-- ==== Sys2Proof/Word.lean ====
section
/-! DEFINITION. The words of the JT-48: bytes and 16-bit values of frames, and the 32-bit timebase. -/

namespace Sys2Proof

/-- A byte of a frame (R186). -/
abbrev Byte := BitVec 8

/-- A field of an order record, a value of an item, a view or a frame (R5, chapter 13). -/
abbrev Word := BitVec 16

/-- A value of the 32-bit millisecond timebase (R28). -/
abbrev Time := BitVec 32

/-- The high byte of a 16-bit value, which travels first (chapter 13). -/
def Word.hi (w : Word) : Byte := w.extractLsb' 8 8

/-- The low byte of a 16-bit value. -/
def Word.lo (w : Word) : Byte := w.extractLsb' 0 8

/-- The 16-bit value of two bytes, high byte first (chapter 13). -/
def Word.ofBytes (hi lo : Byte) : Word := hi ++ lo

/-- A whole number as a 16-bit value, two's complement where negative (chapter 13). -/
def Word.ofInt (i : Int) : Word := BitVec.ofInt 16 i

/-- A natural number as a 16-bit value. -/
def Word.ofNat (n : Nat) : Word := BitVec.ofNat 16 n

/-- A mark or flag reads 1 when set and 0 when clear (chapter 13). -/
def Word.mark (b : Bool) : Word := if b then 1 else 0

end Sys2Proof
end

