-- ==== Sys2Proof/Machine/Tables.lean ====
section
/-! DEFINITION. The names the spec counts by (ports, channels, clutches, fault kinds) and tables with one entry per name. -/

namespace Sys2Proof

/-- The two request ports (chapter 11), coded as the owners of chapter 13. -/
inductive Port where
  | cab | implement
deriving DecidableEq, Repr

def Port.all : List Port :=
  [.cab, .implement]

/-- The number of the name in the order of its table (chapter 13). -/
def Port.code : Port → Nat
  | .cab => 0
  | .implement => 1

/-- The other port. -/
def Port.other : Port → Port
  | .cab => .implement
  | .implement => .cab

/-- The four speed channels in site order (R45, chapter 13). -/
inductive SpeedCh where
  | engine | output | front | radar
deriving DecidableEq, Repr

def SpeedCh.all : List SpeedCh :=
  [.engine, .output, .front, .radar]

/-- The number of the name in the order of its table (chapter 13). -/
def SpeedCh.code : SpeedCh → Nat
  | .engine => 0
  | .output => 1
  | .front => 2
  | .radar => 3

/-- The eight converter channels in site order (R50, chapter 13). -/
inductive ConvCh where
  | hitchPos | draftL | draftR | brakeL | brakeR | inch | tsupply | supply
deriving DecidableEq, Repr

def ConvCh.all : List ConvCh :=
  [.hitchPos, .draftL, .draftR, .brakeL, .brakeR, .inch, .tsupply, .supply]

/-- The number of the name in the order of its table (chapter 13). -/
def ConvCh.code : ConvCh → Nat
  | .hitchPos => 0
  | .draftL => 1
  | .draftR => 2
  | .brakeL => 3
  | .brakeR => 4
  | .inch => 5
  | .tsupply => 6
  | .supply => 7

/-- The nine transmission clutches in the order of R95. -/
inductive Clutch where
  | cf | cr | ca | cb | cc | c1 | c2 | c3 | c4
deriving DecidableEq, Repr

def Clutch.all : List Clutch :=
  [.cf, .cr, .ca, .cb, .cc, .c1, .c2, .c3, .c4]

/-- The number of the name in the order of its table (chapter 13). -/
def Clutch.code : Clutch → Nat
  | .cf => 0
  | .cr => 1
  | .ca => 2
  | .cb => 3
  | .cc => 4
  | .c1 => 5
  | .c2 => 6
  | .c3 => 7
  | .c4 => 8

/-- The 13 current channels (R149). -/
inductive OutCh where
  | oc0 | oc1 | oc2 | oc3 | oc4 | oc5 | oc6 | oc7 | oc8 | oc9 | oc10 | oc11 | oc12
deriving DecidableEq, Repr

def OutCh.all : List OutCh :=
  [.oc0, .oc1, .oc2, .oc3, .oc4, .oc5, .oc6, .oc7, .oc8, .oc9, .oc10, .oc11, .oc12]

/-- The number of the name in the order of its table (chapter 13). -/
def OutCh.code : OutCh → Nat
  | .oc0 => 0
  | .oc1 => 1
  | .oc2 => 2
  | .oc3 => 3
  | .oc4 => 4
  | .oc5 => 5
  | .oc6 => 6
  | .oc7 => 7
  | .oc8 => 8
  | .oc9 => 9
  | .oc10 => 10
  | .oc11 => 11
  | .oc12 => 12

/-- The four drivetrain channels (chapter 13). -/
inductive Channel where
  | gear | axle | hitch | tbrake
deriving DecidableEq, Repr

def Channel.all : List Channel :=
  [.gear, .axle, .hitch, .tbrake]

/-- The number of the name in the order of its table (chapter 13). -/
def Channel.code : Channel → Nat
  | .gear => 0
  | .axle => 1
  | .hitch => 2
  | .tbrake => 3

/-- The 15 fault kinds in the order of the table of R158. -/
inductive FaultKind where
  | outOpen | outShort | sensorRange | speedLost | speedMismatch | flowStarved | syncTimeout | clutchHot | gearSlip | axleMismatch | hitchStall | tbrakeTracking | supplyLow | breakaway | enableLost
deriving DecidableEq, Repr

def FaultKind.all : List FaultKind :=
  [.outOpen, .outShort, .sensorRange, .speedLost, .speedMismatch, .flowStarved, .syncTimeout, .clutchHot, .gearSlip, .axleMismatch, .hitchStall, .tbrakeTracking, .supplyLow, .breakaway, .enableLost]

/-- The number of the name in the order of its table (chapter 13). -/
def FaultKind.code : FaultKind → Nat
  | .outOpen => 0
  | .outShort => 1
  | .sensorRange => 2
  | .speedLost => 3
  | .speedMismatch => 4
  | .flowStarved => 5
  | .syncTimeout => 6
  | .clutchHot => 7
  | .gearSlip => 8
  | .axleMismatch => 9
  | .hitchStall => 10
  | .tbrakeTracking => 11
  | .supplyLow => 12
  | .breakaway => 13
  | .enableLost => 14

/-- The two condition terms of an order (R9). -/
inductive TermNo where
  | first | second
deriving DecidableEq, Repr

/-- The request classes that have a wait timer (R68). -/
inductive WaitClass where
  | fill | axle
deriving DecidableEq, Repr

/-- Whose SYNC a lock ramp or a sync_limit belongs to: the started step's, or that of a direction clutch outside a step (R91). -/
inductive SyncOwner where
  | step | direction
deriving DecidableEq, Repr

/-- The two internal orders whose condition the Fault Unit keeps (R42). -/
inductive FaultOrder where
  | safeNeutral | breakaway
deriving DecidableEq, Repr

/-- One entry per port. -/
structure ByPort (α : Type) where
  cab : α
  implement : α
deriving DecidableEq, Repr

def ByPort.get {α : Type} (t : ByPort α) : Port → α
  | .cab => t.cab
  | .implement => t.implement

def ByPort.set {α : Type} (t : ByPort α) (i : Port) (v : α) : ByPort α :=
  match i with
  | .cab => { t with cab := v }
  | .implement => { t with implement := v }

/-- The table whose entry at each name is given by a function. -/
def ByPort.tabulate {α : Type} (f : Port → α) : ByPort α :=
  ⟨f .cab, f .implement⟩

def ByPort.toList {α : Type} (t : ByPort α) : List α :=
  [t.cab, t.implement]

/-- One entry per speed channel. -/
structure BySpeed (α : Type) where
  engine : α
  output : α
  front : α
  radar : α
deriving DecidableEq, Repr

def BySpeed.get {α : Type} (t : BySpeed α) : SpeedCh → α
  | .engine => t.engine
  | .output => t.output
  | .front => t.front
  | .radar => t.radar

def BySpeed.set {α : Type} (t : BySpeed α) (i : SpeedCh) (v : α) : BySpeed α :=
  match i with
  | .engine => { t with engine := v }
  | .output => { t with output := v }
  | .front => { t with front := v }
  | .radar => { t with radar := v }

/-- The table whose entry at each name is given by a function. -/
def BySpeed.tabulate {α : Type} (f : SpeedCh → α) : BySpeed α :=
  ⟨f .engine, f .output, f .front, f .radar⟩

def BySpeed.toList {α : Type} (t : BySpeed α) : List α :=
  [t.engine, t.output, t.front, t.radar]

/-- One entry per converter channel. -/
structure ByConv (α : Type) where
  hitchPos : α
  draftL : α
  draftR : α
  brakeL : α
  brakeR : α
  inch : α
  tsupply : α
  supply : α
deriving DecidableEq, Repr

def ByConv.get {α : Type} (t : ByConv α) : ConvCh → α
  | .hitchPos => t.hitchPos
  | .draftL => t.draftL
  | .draftR => t.draftR
  | .brakeL => t.brakeL
  | .brakeR => t.brakeR
  | .inch => t.inch
  | .tsupply => t.tsupply
  | .supply => t.supply

def ByConv.set {α : Type} (t : ByConv α) (i : ConvCh) (v : α) : ByConv α :=
  match i with
  | .hitchPos => { t with hitchPos := v }
  | .draftL => { t with draftL := v }
  | .draftR => { t with draftR := v }
  | .brakeL => { t with brakeL := v }
  | .brakeR => { t with brakeR := v }
  | .inch => { t with inch := v }
  | .tsupply => { t with tsupply := v }
  | .supply => { t with supply := v }

/-- The table whose entry at each name is given by a function. -/
def ByConv.tabulate {α : Type} (f : ConvCh → α) : ByConv α :=
  ⟨f .hitchPos, f .draftL, f .draftR, f .brakeL, f .brakeR, f .inch, f .tsupply, f .supply⟩

def ByConv.toList {α : Type} (t : ByConv α) : List α :=
  [t.hitchPos, t.draftL, t.draftR, t.brakeL, t.brakeR, t.inch, t.tsupply, t.supply]

/-- One entry per clutch. -/
structure ByClutch (α : Type) where
  cf : α
  cr : α
  ca : α
  cb : α
  cc : α
  c1 : α
  c2 : α
  c3 : α
  c4 : α
deriving DecidableEq, Repr

def ByClutch.get {α : Type} (t : ByClutch α) : Clutch → α
  | .cf => t.cf
  | .cr => t.cr
  | .ca => t.ca
  | .cb => t.cb
  | .cc => t.cc
  | .c1 => t.c1
  | .c2 => t.c2
  | .c3 => t.c3
  | .c4 => t.c4

def ByClutch.set {α : Type} (t : ByClutch α) (i : Clutch) (v : α) : ByClutch α :=
  match i with
  | .cf => { t with cf := v }
  | .cr => { t with cr := v }
  | .ca => { t with ca := v }
  | .cb => { t with cb := v }
  | .cc => { t with cc := v }
  | .c1 => { t with c1 := v }
  | .c2 => { t with c2 := v }
  | .c3 => { t with c3 := v }
  | .c4 => { t with c4 := v }

/-- The table whose entry at each name is given by a function. -/
def ByClutch.tabulate {α : Type} (f : Clutch → α) : ByClutch α :=
  ⟨f .cf, f .cr, f .ca, f .cb, f .cc, f .c1, f .c2, f .c3, f .c4⟩

def ByClutch.toList {α : Type} (t : ByClutch α) : List α :=
  [t.cf, t.cr, t.ca, t.cb, t.cc, t.c1, t.c2, t.c3, t.c4]

/-- One entry per current channel. -/
structure ByOut (α : Type) where
  oc0 : α
  oc1 : α
  oc2 : α
  oc3 : α
  oc4 : α
  oc5 : α
  oc6 : α
  oc7 : α
  oc8 : α
  oc9 : α
  oc10 : α
  oc11 : α
  oc12 : α
deriving DecidableEq, Repr

def ByOut.get {α : Type} (t : ByOut α) : OutCh → α
  | .oc0 => t.oc0
  | .oc1 => t.oc1
  | .oc2 => t.oc2
  | .oc3 => t.oc3
  | .oc4 => t.oc4
  | .oc5 => t.oc5
  | .oc6 => t.oc6
  | .oc7 => t.oc7
  | .oc8 => t.oc8
  | .oc9 => t.oc9
  | .oc10 => t.oc10
  | .oc11 => t.oc11
  | .oc12 => t.oc12

def ByOut.set {α : Type} (t : ByOut α) (i : OutCh) (v : α) : ByOut α :=
  match i with
  | .oc0 => { t with oc0 := v }
  | .oc1 => { t with oc1 := v }
  | .oc2 => { t with oc2 := v }
  | .oc3 => { t with oc3 := v }
  | .oc4 => { t with oc4 := v }
  | .oc5 => { t with oc5 := v }
  | .oc6 => { t with oc6 := v }
  | .oc7 => { t with oc7 := v }
  | .oc8 => { t with oc8 := v }
  | .oc9 => { t with oc9 := v }
  | .oc10 => { t with oc10 := v }
  | .oc11 => { t with oc11 := v }
  | .oc12 => { t with oc12 := v }

/-- The table whose entry at each name is given by a function. -/
def ByOut.tabulate {α : Type} (f : OutCh → α) : ByOut α :=
  ⟨f .oc0, f .oc1, f .oc2, f .oc3, f .oc4, f .oc5, f .oc6, f .oc7, f .oc8, f .oc9, f .oc10, f .oc11, f .oc12⟩

def ByOut.toList {α : Type} (t : ByOut α) : List α :=
  [t.oc0, t.oc1, t.oc2, t.oc3, t.oc4, t.oc5, t.oc6, t.oc7, t.oc8, t.oc9, t.oc10, t.oc11, t.oc12]

/-- One entry per drivetrain channel. -/
structure ByChannel (α : Type) where
  gear : α
  axle : α
  hitch : α
  tbrake : α
deriving DecidableEq, Repr

def ByChannel.get {α : Type} (t : ByChannel α) : Channel → α
  | .gear => t.gear
  | .axle => t.axle
  | .hitch => t.hitch
  | .tbrake => t.tbrake

def ByChannel.set {α : Type} (t : ByChannel α) (i : Channel) (v : α) : ByChannel α :=
  match i with
  | .gear => { t with gear := v }
  | .axle => { t with axle := v }
  | .hitch => { t with hitch := v }
  | .tbrake => { t with tbrake := v }

/-- The table whose entry at each name is given by a function. -/
def ByChannel.tabulate {α : Type} (f : Channel → α) : ByChannel α :=
  ⟨f .gear, f .axle, f .hitch, f .tbrake⟩

def ByChannel.toList {α : Type} (t : ByChannel α) : List α :=
  [t.gear, t.axle, t.hitch, t.tbrake]

/-- One entry per fault kind. -/
structure ByKind (α : Type) where
  outOpen : α
  outShort : α
  sensorRange : α
  speedLost : α
  speedMismatch : α
  flowStarved : α
  syncTimeout : α
  clutchHot : α
  gearSlip : α
  axleMismatch : α
  hitchStall : α
  tbrakeTracking : α
  supplyLow : α
  breakaway : α
  enableLost : α
deriving DecidableEq, Repr

def ByKind.get {α : Type} (t : ByKind α) : FaultKind → α
  | .outOpen => t.outOpen
  | .outShort => t.outShort
  | .sensorRange => t.sensorRange
  | .speedLost => t.speedLost
  | .speedMismatch => t.speedMismatch
  | .flowStarved => t.flowStarved
  | .syncTimeout => t.syncTimeout
  | .clutchHot => t.clutchHot
  | .gearSlip => t.gearSlip
  | .axleMismatch => t.axleMismatch
  | .hitchStall => t.hitchStall
  | .tbrakeTracking => t.tbrakeTracking
  | .supplyLow => t.supplyLow
  | .breakaway => t.breakaway
  | .enableLost => t.enableLost

def ByKind.set {α : Type} (t : ByKind α) (i : FaultKind) (v : α) : ByKind α :=
  match i with
  | .outOpen => { t with outOpen := v }
  | .outShort => { t with outShort := v }
  | .sensorRange => { t with sensorRange := v }
  | .speedLost => { t with speedLost := v }
  | .speedMismatch => { t with speedMismatch := v }
  | .flowStarved => { t with flowStarved := v }
  | .syncTimeout => { t with syncTimeout := v }
  | .clutchHot => { t with clutchHot := v }
  | .gearSlip => { t with gearSlip := v }
  | .axleMismatch => { t with axleMismatch := v }
  | .hitchStall => { t with hitchStall := v }
  | .tbrakeTracking => { t with tbrakeTracking := v }
  | .supplyLow => { t with supplyLow := v }
  | .breakaway => { t with breakaway := v }
  | .enableLost => { t with enableLost := v }

/-- The table whose entry at each name is given by a function. -/
def ByKind.tabulate {α : Type} (f : FaultKind → α) : ByKind α :=
  ⟨f .outOpen, f .outShort, f .sensorRange, f .speedLost, f .speedMismatch, f .flowStarved, f .syncTimeout, f .clutchHot, f .gearSlip, f .axleMismatch, f .hitchStall, f .tbrakeTracking, f .supplyLow, f .breakaway, f .enableLost⟩

def ByKind.toList {α : Type} (t : ByKind α) : List α :=
  [t.outOpen, t.outShort, t.sensorRange, t.speedLost, t.speedMismatch, t.flowStarved, t.syncTimeout, t.clutchHot, t.gearSlip, t.axleMismatch, t.hitchStall, t.tbrakeTracking, t.supplyLow, t.breakaway, t.enableLost]

/-- Eight 16-bit values, as a frame carries them (chapter 13). -/
structure Values where
  v1 : Word
  v2 : Word
  v3 : Word
  v4 : Word
  v5 : Word
  v6 : Word
  v7 : Word
  v8 : Word
deriving DecidableEq, Repr

def Values.zero : Values := ⟨0, 0, 0, 0, 0, 0, 0, 0⟩

def Values.toList (v : Values) : List Word :=
  [v.v1, v.v2, v.v3, v.v4, v.v5, v.v6, v.v7, v.v8]

/-- The first eight values of a list, 0 past its end. -/
def Values.ofList (l : List Word) : Values :=
  ⟨l.getD 0 0, l.getD 1 0, l.getD 2 0, l.getD 3 0, l.getD 4 0, l.getD 5 0, l.getD 6 0, l.getD 7 0⟩

/-- Value `i`, counted from 0. -/
def Values.nth (v : Values) (i : Nat) : Word := v.toList.getD i 0

end Sys2Proof
end

