-- ==== Sys2Proof/Syntax.lean ====
section
/-! DEFINITION. The commands of the JT-48: one constructor per row of spec/opcode_table.json. -/

namespace Sys2Proof

/-- The commands. A request carries its port, its tag and the header bytes and values its row of R187 reads; an event
carries what comes from outside the part with it. -/
inductive Instr where
  /-- NOP request (R172). -/
  | nop (p : Port) (tag : Byte)
  /-- PLACE (R18): channel, class and term count bytes, lease interval, setpoint fields 8 to 15. -/
  | place (p : Port) (tag : Byte) (channel cls termCount : Byte) (lease : Word) (vals : Values)
  /-- READ (R26). -/
  | read (p : Port) (tag : Byte) (slot inc first count : Byte)
  /-- AMEND (R20): byte 5 is the FRONT flag and a count of seven bits. -/
  | amend (p : Port) (tag : Byte) (slot inc first : Byte) (front : Bool) (count : BitVec 7) (gen : Word) (vals : Values)
  /-- RENEW (R22). -/
  | renew (p : Port) (tag : Byte) (slot inc : Byte)
  /-- RETIRE (R23): expected generation, 0 for any. -/
  | retire (p : Port) (tag : Byte) (slot inc : Byte) (gen : Word)
  /-- FIND (R24). -/
  | find (p : Port) (tag : Byte) (channel : Byte)
  /-- LIST (R25). -/
  | list (p : Port) (tag : Byte) (channel position : Byte)
  /-- COLLECT (R174). -/
  | collect (p : Port) (tag : Byte)
  /-- CAUSES (R175). -/
  | causes (p : Port) (tag : Byte)
  /-- MASK_SET (R176). -/
  | maskSet (p : Port) (tag : Byte) (mask : Byte) (value : Word)
  /-- MASK_CLEAR (R176). -/
  | maskClear (p : Port) (tag : Byte) (mask : Byte) (value : Word)
  /-- STATUS (R172). -/
  | status (p : Port) (tag : Byte) (view first : Byte)
  /-- FAULT_READ (R168): a kind, or 255 for the summary. -/
  | faultRead (p : Port) (tag : Byte) (kind : Byte)
  /-- CLEAR_FAULT (R165). -/
  | clearFault (p : Port) (tag : Byte) (kind : Byte)
  /-- CONFIG_WRITE (R181). -/
  | configWrite (p : Port) (tag : Byte) (item first count : Byte) (vals : Values)
  /-- CONFIG_READ (R182). -/
  | configRead (p : Port) (tag : Byte) (item first : Byte)
  /-- ADAPT_READ (R95). -/
  | adaptRead (p : Port) (tag : Byte) (first count : Byte)
  /-- ADAPT_WRITE (R95). -/
  | adaptWrite (p : Port) (tag : Byte) (first count : Byte) (vals : Values)
  /-- START (R183, R184). -/
  | start (p : Port) (tag : Byte)
  /-- STOP (R185). -/
  | stop (p : Port) (tag : Byte)
  /-- PORT_RESET request (R178). -/
  | portReset (p : Port) (tag : Byte)
  /-- A good frame whose request code names no request (R172). -/
  | badRequest (p : Port) (tag : Byte) (code : Byte)
  /-- A received frame that fails the check of R171; `cut` says that chip-select rose part way through a byte. -/
  | badFrame (p : Port) (received : List Byte) (cut : Bool)
  /-- The refusal of a request whose transaction began while another was in flight (R170), with its code and tag. -/
  | busy (p : Port) (tag : Byte) (code : Byte)
  /-- The fall of a port's chip-select (R169). -/
  | transactionBegin (p : Port)
  /-- The request in flight completes and its answer is written (R169, R170). -/
  | answerWritten (p : Port)
  /-- A change of a port's reset input to a level; the fall (`level = false`) resets the port (R178, log 7). -/
  | portResetInput (p : Port) (level : Bool)
  /-- Power-on reset (R180). -/
  | powerOnReset
  /-- The fall of ENABLE (R153). -/
  | enableFall
  /-- The rise of ENABLE (R153). -/
  | enableRise
  /-- A change of the raw TRAILER_PRESENT input to a level (R138). -/
  | trailerPresentChange (level : Bool)
  /-- The debounce timer reaches 100 ms (R138). -/
  | debounceTimerExpiry
  /-- A change of the raw BREAKAWAY input to a level (R143). -/
  | breakawayInputChange (level : Bool)
  /-- The breakaway timer reaches 20 ms (R143). -/
  | breakawayTimerExpiry
  /-- The next millisecond: the timebase advances, the converters are sampled and every quantity is published (R28, R44). -/
  | muPublication (raw : ByConv (BitVec 12))
  /-- A selected edge at a microsecond of the present millisecond (R45, R46). -/
  | selectedEdge (ch : SpeedCh) (us : Nat)
  /-- A VALID speed channel stalls (R48). -/
  | speedChannelStall (ch : SpeedCh)
  /-- A recorded edge held in STILL is discarded (R48). -/
  | recordedEdgeExpiry (ch : SpeedCh)
  /-- A speed channel has been silent while moving for 1000 ms (R49). -/
  | lostTimerExpiry (ch : SpeedCh)
  /-- A converter channel has been 100 ms in OUT_PENDING (R51). -/
  | windowTimerExpiry (ch : ConvCh)
  /-- Radar and wheels have disagreed for 2000 ms (R55). -/
  | mismatchTimerExpiry
  /-- The supply timer has run 200 ms (R57). -/
  | supplyTimerExpiry
  /-- The timebase has reached the deadline of the head of the lease list (R31). -/
  | leaseExpiry
  /-- The dwell end of an ARMING term is reached (R36). -/
  | dwellEnd (slot : Nat) (term : TermNo)
  /-- The release timer of BRAKE_AXLE runs out (R40). -/
  | brakeAxleReleaseTimerExpiry
  /-- The OTU takes the LCU's oldest outstanding report on a slot (R38). -/
  | conditionReport (slot : Nat)
  /-- The OTU takes the FU's oldest outstanding report on one of its two orders (R162). -/
  | faultConditionReport (which : FaultOrder)
  /-- A waiting FILL or AXLE request starves (R68). -/
  | flowWaitExpiry (cls : WaitClass)
  /-- FILL time runs out (R83). -/
  | fillEnd
  /-- HOLD time runs out (R84, R87 to R89). -/
  | holdEnd
  /-- RAMP_ON time runs out (R84, R87 to R89). -/
  | rampOnEnd
  /-- A lock ramp ends (R85, R91). -/
  | lockRampEnd (owner : SyncOwner)
  /-- SYNC reaches its sync_limit (R86, R91). -/
  | syncLimitExpiry (owner : SyncOwner)
  /-- A shuttle's deceleration with wheel speed unavailable has lasted sync_limit (R88). -/
  | decelerationLimitExpiry
  /-- The RAMP_OFF of a NEUTRALIZE step ends (R90). -/
  | rampOffEnd
  /-- The up timer reaches 1000 ms (R93). -/
  | upTimerExpiry
  /-- The down timer reaches 500 ms (R93). -/
  | downTimerExpiry
  /-- The cooling step of every 100 ms (R96). -/
  | coolingStep
  /-- The GEAR_SLIP timer reaches 500 ms (R100). -/
  | gearSlipTimerExpiry
  /-- The set timer of the slip latch reaches 300 ms (R107). -/
  | setTimerExpiry
  /-- The clear timer of the slip latch reaches 2000 ms (R107). -/
  | clearTimerExpiry
  /-- The axle release fill ends (R110). -/
  | axleFillEnd
  /-- The settle timer reaches settle_time (R112). -/
  | settleEnd
  /-- The AXLE_MISMATCH timer reaches 1000 ms (R115). -/
  | axleMismatchTimerExpiry
  /-- The excess timer reaches 500 ms (R127). -/
  | excessTimerExpiry
  /-- The step timer reaches 100 ms (R127). -/
  | stepTimerExpiry
  /-- The deviation timer reaches 200 ms (R129). -/
  | deviationTimerExpiry
  /-- The stall timer reaches 2000 ms (R131). -/
  | stallTimerExpiry
  /-- The tracking timer reaches 300 ms (R144). -/
  | trackingTimerExpiry
  /-- A PWM period boundary, with the mean current of each channel over the period that ends (R150, R152, R154). -/
  | periodBoundary (mean : ByOut Word)
  /-- A channel's open-load timer reaches 50 ms (R154). -/
  | openLoadTimerExpiry (ch : OutCh)
  /-- A current sample of a channel, in mA (R155). -/
  | shortCircuitTrip (ch : OutCh) (sample : Word)
  /-- A port's throttle timer runs out (R177). -/
  | throttleTimerExpiry (p : Port)
  /-- The rise of chip-select that ends a transaction discarded by the port's reset input (R178). -/
  | heldResetDiscard (p : Port)
deriving DecidableEq, Repr

end Sys2Proof
end

