-- ==== Sys2Proof/Decode.lean ====
section
/-! DEFINITION. Request frames: the CRC-8 of R186, the reading of a received frame as a command (R171, R172, R187), its
encoder, and the host's `decodeTableWord` over the rows that give bits (there are none). -/

namespace Sys2Proof

/-- One shift of the CRC register: XOR with 0x2F when the bit shifted out is 1 (R186). -/
def crcShift (r : Byte) : Byte :=
  if r.getLsbD 7 then (r <<< 1) ^^^ 0x2F else r <<< 1

/-- The register after one more byte (R186). -/
def crcByte (r b : Byte) : Byte :=
  crcShift (crcShift (crcShift (crcShift (crcShift (crcShift (crcShift (crcShift (r ^^^ b))))))))

/-- The CRC-8 of a list of bytes: register 0xFF, no final inversion (R186). -/
def crc8 (bytes : List Byte) : Byte :=
  bytes.foldl crcByte 0xFF

/-- The bytes of eight values, high byte first (chapter 13). -/
def Values.bytes (v : Values) : List Byte :=
  [v.v1.hi, v.v1.lo, v.v2.hi, v.v2.lo, v.v3.hi, v.v3.lo, v.v4.hi, v.v4.lo,
   v.v5.hi, v.v5.lo, v.v6.hi, v.v6.lo, v.v7.hi, v.v7.lo, v.v8.hi, v.v8.lo]

/-- The frame of 24 bytes and the check byte that closes it (R186). -/
def closeFrame (bytes : List Byte) : List Byte :=
  bytes ++ [crc8 bytes]

/-- A frame fails the check of R171: fewer than 25 bytes, a byte cut short, or a check byte that differs from the CRC-8
of the first 24 bytes. Bytes after the 25th are ignored. -/
def frameBad (received : List Byte) (cut : Bool) : Bool :=
  cut || received.length < 25 || received.getD 24 0 != crc8 (received.take 24)

/-- A request code names a request (chapter 13.2). -/
def codeNamesRequest (code : Byte) : Bool := code.toNat < 22

/-- The word in bytes `i` and `i + 1` of a frame. -/
def frameWord (f : List Byte) (i : Nat) : Word := Word.ofBytes (f.getD i 0) (f.getD (i + 1) 0)

/-- The eight values of a frame, bytes 8 to 23. -/
def frameValues (f : List Byte) : Values :=
  ⟨frameWord f 8, frameWord f 10, frameWord f 12, frameWord f 14,
   frameWord f 16, frameWord f 18, frameWord f 20, frameWord f 22⟩

/-- The request a frame with a good check stands for, by its code and the header bytes its row of R187 reads. -/
def goodFrameCommand (p : Port) (f : List Byte) : Instr :=
  let tag := f.getD 1 0
  let b2 := f.getD 2 0
  let b3 := f.getD 3 0
  let b4 := f.getD 4 0
  let b5 := f.getD 5 0
  let w := frameWord f 6
  let v := frameValues f
  match (f.getD 0 0).toNat with
  | 0 => .nop p tag
  | 1 => .place p tag b2 b3 b4 w v
  | 2 => .read p tag b2 b3 b4 b5
  | 3 => .amend p tag b2 b3 b4 (b5.getLsbD 7) (b5.extractLsb' 0 7) w v
  | 4 => .renew p tag b2 b3
  | 5 => .retire p tag b2 b3 w
  | 6 => .find p tag b2
  | 7 => .list p tag b2 b4
  | 8 => .collect p tag
  | 9 => .causes p tag
  | 10 => .maskSet p tag b2 v.v1
  | 11 => .maskClear p tag b2 v.v1
  | 12 => .status p tag b2 b4
  | 13 => .faultRead p tag b2
  | 14 => .clearFault p tag b2
  | 15 => .configWrite p tag b2 b4 b5 v
  | 16 => .configRead p tag b2 b4
  | 17 => .adaptRead p tag b4 b5
  | 18 => .adaptWrite p tag b4 b5 v
  | 19 => .start p tag
  | 20 => .stop p tag
  | 21 => .portReset p tag
  | _ => .badRequest p tag (f.getD 0 0)

/-- The command that a frame received at a port is when chip-select rises (R169, R171, R172). Total on any bytes. -/
def frameCommand (p : Port) (received : List Byte) (cut : Bool) : Instr :=
  if frameBad received cut then .badFrame p received cut else goodFrameCommand p received

/-- The 24 bytes of a request frame before its check (chapter 13.1). -/
def frameBody (code tag b2 b3 b4 b5 : Byte) (w : Word) (v : Values) : List Byte :=
  [code, tag, b2, b3, b4, b5, w.hi, w.lo] ++ v.bytes

/-- The request frame of a command that a frame can carry, with 0 in the bytes its row of R187 does not use. -/
def requestFrame : Instr → Option (List Byte)
  | .nop _ t => some (closeFrame (frameBody 0 t 0 0 0 0 0 .zero))
  | .place _ t c k n l v => some (closeFrame (frameBody 1 t c k n 0 l v))
  | .read _ t s i f n => some (closeFrame (frameBody 2 t s i f n 0 .zero))
  | .amend _ t s i f fr n g v => some (closeFrame (frameBody 3 t s i f (BitVec.ofBool fr ++ n) g v))
  | .renew _ t s i => some (closeFrame (frameBody 4 t s i 0 0 0 .zero))
  | .retire _ t s i g => some (closeFrame (frameBody 5 t s i 0 0 g .zero))
  | .find _ t c => some (closeFrame (frameBody 6 t c 0 0 0 0 .zero))
  | .list _ t c q => some (closeFrame (frameBody 7 t c 0 q 0 0 .zero))
  | .collect _ t => some (closeFrame (frameBody 8 t 0 0 0 0 0 .zero))
  | .causes _ t => some (closeFrame (frameBody 9 t 0 0 0 0 0 .zero))
  | .maskSet _ t m v => some (closeFrame (frameBody 10 t m 0 0 0 0 { Values.zero with v1 := v }))
  | .maskClear _ t m v => some (closeFrame (frameBody 11 t m 0 0 0 0 { Values.zero with v1 := v }))
  | .status _ t w f => some (closeFrame (frameBody 12 t w 0 f 0 0 .zero))
  | .faultRead _ t k => some (closeFrame (frameBody 13 t k 0 0 0 0 .zero))
  | .clearFault _ t k => some (closeFrame (frameBody 14 t k 0 0 0 0 .zero))
  | .configWrite _ t i f n v => some (closeFrame (frameBody 15 t i 0 f n 0 v))
  | .configRead _ t i f => some (closeFrame (frameBody 16 t i 0 f 0 0 .zero))
  | .adaptRead _ t f n => some (closeFrame (frameBody 17 t 0 0 f n 0 .zero))
  | .adaptWrite _ t f n v => some (closeFrame (frameBody 18 t 0 0 f n 0 v))
  | .start _ t => some (closeFrame (frameBody 19 t 0 0 0 0 0 .zero))
  | .stop _ t => some (closeFrame (frameBody 20 t 0 0 0 0 0 .zero))
  | .portReset _ t => some (closeFrame (frameBody 21 t 0 0 0 0 0 .zero))
  | .badRequest _ t c => some (closeFrame (frameBody c t 0 0 0 0 0 .zero))
  | .badFrame _ r _ => some r
  | .busy .. | .transactionBegin _ | .answerWritten _ | .portResetInput .. | .powerOnReset | .enableFall | .enableRise
  | .trailerPresentChange _ | .debounceTimerExpiry | .breakawayInputChange _ | .breakawayTimerExpiry
  | .muPublication _ | .selectedEdge .. | .speedChannelStall _ | .recordedEdgeExpiry _ | .lostTimerExpiry _
  | .windowTimerExpiry _ | .mismatchTimerExpiry | .supplyTimerExpiry | .leaseExpiry | .dwellEnd ..
  | .brakeAxleReleaseTimerExpiry | .conditionReport _ | .faultConditionReport _ | .flowWaitExpiry _ | .fillEnd
  | .holdEnd | .rampOnEnd | .lockRampEnd _ | .syncLimitExpiry _ | .decelerationLimitExpiry | .rampOffEnd
  | .upTimerExpiry | .downTimerExpiry | .coolingStep | .gearSlipTimerExpiry | .setTimerExpiry | .clearTimerExpiry
  | .axleFillEnd | .settleEnd | .axleMismatchTimerExpiry | .excessTimerExpiry | .stepTimerExpiry
  | .deviationTimerExpiry | .stallTimerExpiry | .trackingTimerExpiry | .periodBoundary _ | .openLoadTimerExpiry _
  | .shortCircuitTrip .. | .throttleTimerExpiry _ | .heldResetDiscard _ => none

/-- The port of a command that a frame carries; CAB for the others. -/
def Instr.port : Instr → Port
  | .nop p _ | .place p _ _ _ _ _ _ | .read p _ _ _ _ _ | .amend p _ _ _ _ _ _ _ _ | .renew p _ _ _
  | .retire p _ _ _ _ | .find p _ _ | .list p _ _ _ | .collect p _ | .causes p _ | .maskSet p _ _ _
  | .maskClear p _ _ _ | .status p _ _ _ | .faultRead p _ _ | .clearFault p _ _ | .configWrite p _ _ _ _ _
  | .configRead p _ _ _ | .adaptRead p _ _ _ | .adaptWrite p _ _ _ _ | .start p _ | .stop p _ | .portReset p _
  | .badRequest p _ _ | .badFrame p _ _ | .busy p _ _ | .transactionBegin p | .answerWritten p | .portResetInput p _
  | .throttleTimerExpiry p | .heldResetDiscard p => p
  | .powerOnReset | .enableFall | .enableRise
  | .trailerPresentChange _ | .debounceTimerExpiry | .breakawayInputChange _ | .breakawayTimerExpiry
  | .muPublication _ | .selectedEdge .. | .speedChannelStall _ | .recordedEdgeExpiry _ | .lostTimerExpiry _
  | .windowTimerExpiry _ | .mismatchTimerExpiry | .supplyTimerExpiry | .leaseExpiry | .dwellEnd ..
  | .brakeAxleReleaseTimerExpiry | .conditionReport _ | .faultConditionReport _ | .flowWaitExpiry _ | .fillEnd
  | .holdEnd | .rampOnEnd | .lockRampEnd _ | .syncLimitExpiry _ | .decelerationLimitExpiry | .rampOffEnd
  | .upTimerExpiry | .downTimerExpiry | .coolingStep | .gearSlipTimerExpiry | .setTimerExpiry | .clearTimerExpiry
  | .axleFillEnd | .settleEnd | .axleMismatchTimerExpiry | .excessTimerExpiry | .stepTimerExpiry
  | .deviationTimerExpiry | .stallTimerExpiry | .trackingTimerExpiry | .periodBoundary _ | .openLoadTimerExpiry _
  | .shortCircuitTrip .. => .cab

/-- The command that a word spells by the table's bits. No row of spec/opcode_table.json gives bits, so none does. -/
def decodeTableWord (_nbits _w : Nat) : Option Instr := none

end Sys2Proof
end

