-- ==== Sys2Proof/Config.lean ====
section
/-! DEFINITION. What the spec leaves open, as constants without a body: no proof can see their values. -/

namespace Sys2Proof

/-- FREE VALUE (log 11): whether a current whose exact value is the fraction `n / d` of a milliampere is rounded up.
The spec gives ramp, shuttle and pedal currents as formulas (R74, R84, R88, R91) and states no rounding. -/
opaque Config.roundsUp : (n d : Nat) → Bool

/-- FREE VALUE (log 10): the speed a channel reads when its filtered interval is 0 µs, where the quotient of R47 has no
value; R47's clamp to the range still applies. The argument is the channel's number. -/
opaque Config.speedAtZeroInterval : Nat → Nat

/-- FREE VALUE (log 12): what a 16-bit view value shows for a count above 65535. -/
opaque Config.wideReading : Nat → Word

/-- FREE VALUE (log 13): the code of CONFIG as the device state in the answer to CONFIG_READ (R182); chapter 13 gives none. -/
opaque Config.configCode : Word

/-- FREE VALUE (log 13): the bits in which the code of RUN differs from that of CONFIG, where they are not 0. -/
opaque Config.runBits : Word

/-- The code of the device state (R182): two codes that differ, since a processor learns the state from them (R180). The
argument says whether the device is in RUN. -/
def Config.deviceCode (running : Bool) : Word :=
  if running then Config.configCode ^^^ (if Config.runBits = 0 then 1 else Config.runBits) else Config.configCode

/-- FREE VALUE (log 14): the GEAR view's "resulting direction and gear as a gear site" of a step whose result has no
direction or no complete gear; chapter 13 codes only a direction with a gear number. The arguments are the view's codes of
direction, range and step (0 for NONE). -/
opaque Config.partialGearSite : (dir range step : Nat) → Word

end Sys2Proof
end

