-- ==== Sys2Proof/Machine/Types.lean ====
section
/-! DEFINITION. The records the blocks of the JT-48 hold: orders, timers, clutches, steps, channels and ports. -/

namespace Sys2Proof.Machine

/-- A running timer: the timebase value at its start, and whether it has run out (its expiry was taken) and waits to be
discarded. -/
structure Run where
  start : Time
  out : Bool
deriving DecidableEq, Repr

/-- A timer of the part; `none` is idle (R28: every timer is measured on the timebase). -/
abbrev Timer := Option Run

/-- The device state (R180). -/
inductive Device where
  | config | run
deriving DecidableEq, Repr

/-- The owner of an order (R5). -/
inductive Owner where
  | cab | implement | internal
deriving DecidableEq, Repr

/-- The state of an order (R10). -/
inductive OrderState where
  | dormant | outranked | governing | lapsed
deriving DecidableEq, Repr

/-- The reasons of LIMITED and WAITING (R15). -/
inductive Reason where
  | shifting | flowWait | inchWait | hotClutch | restartInterlock | band | shiftWait | slipTrim | upperLimit
  | draftFrozen | sensorDegraded | stalled | detached | faultDegraded
deriving DecidableEq, Repr

/-- The keeping of an order (R15). -/
inductive Keeping where
  | none | kept
  | limited (r : Reason)
  | waiting (r : Reason)
deriving DecidableEq, Repr

/-- A handle: slot number and incarnation (R2); as a value, slot then incarnation (chapter 13). -/
structure Handle where
  slot : Byte
  inc : Byte
deriving DecidableEq, Repr

/-- The empty handle, slot 255 with incarnation 255 (chapter 13). -/
def Handle.empty : Handle := ⟨255, 255⟩

/-- The evaluation record of a set term (R34). -/
inductive TermEval where
  | isFalse
  | arming (dwellEnd : Time)
  | isTrue
deriving DecidableEq, Repr

/-- A condition term: its four fields, its four marks (R9), and the LCU's evaluation record (R34). -/
structure Term where
  quantity : Word
  threshold : Word
  hysteresis : Word
  dwell : Word
  quantityMark : Bool
  thresholdMark : Bool
  hysteresisMark : Bool
  dwellMark : Bool
  eval : Option TermEval
deriving DecidableEq, Repr

/-- A term as placed: fields 0, marks clear, no evaluation record (R9). -/
def Term.blank : Term := ⟨0, 0, 0, 0, false, false, false, false, none⟩

/-- An order record (R5, R6, R9). `cond` is the order's condition as the OTU last took it (R10, R38); `lcuCond` is the
condition as the LCU keeps it (R38). -/
structure Order where
  channel : Channel
  cls : Nat
  owner : Owner
  state : OrderState
  keeping : Keeping
  lease : Word
  termCount : Nat
  setpoint : Values
  term1 : Term
  term2 : Term
  gen : Word
  cond : Bool
  lcuCond : Bool
deriving DecidableEq, Repr

/-- A slot of the order table: its incarnation, and its order or FREE (R1, R2). -/
structure Slot where
  inc : Byte
  order : Option Order
deriving DecidableEq, Repr

/-- The order table, the precedence lists and the live-order counts (chapter 1). -/
structure Otu where
  slots : List Slot
  lists : ByChannel (List Nat)
  live : ByPort Nat
deriving DecidableEq, Repr

/-- An entry of the lease list (R29). -/
structure Lease where
  slot : Nat
  deadline : Time
deriving DecidableEq, Repr

/-- The Lease and Condition Unit (chapter 2). `brakeRelease` runs only while `brakeAxle` is TRUE (R40). `reports` are the
reports to the OTU not yet taken, oldest first: a slot and the new truth (R38). -/
structure Lcu where
  now : Time
  leases : List Lease
  brakeAxle : Bool
  brakeRelease : Timer
  transport : Bool
  reports : List (Nat × Bool)
deriving DecidableEq, Repr

/-- The timing state of a speed channel (R46). Times are in µs; the filtered interval is `num / den` µs, kept exactly. -/
inductive SpeedTiming where
  | still (recorded : Option Nat)
  | valid (last num den : Nat)
deriving DecidableEq, Repr

/-- A speed channel (R46, R49). `resuming` says that its lost mark was cleared after the last publication: it reads LOST until
the next. -/
structure SpeedRec where
  timing : SpeedTiming
  lostTimer : Timer
  lost : Bool
  resuming : Bool
deriving DecidableEq, Repr

/-- The window state of a converter channel (R51). -/
inductive Window where
  | inWindow
  | outPending (since : Time)
  | outOfRange
deriving DecidableEq, Repr

/-- A converter channel: latest raw sample, whether it lies inside the window, window state, and the last value scaled from
a sample inside the window (R50, R51). `resuming` says that an unlatch took it out of OUT_OF_RANGE after its last sample: its
value is unavailable until the next. -/
structure ConvRec where
  raw : BitVec 12
  inside : Bool
  window : Window
  last : Option Int
  resuming : Bool
deriving DecidableEq, Repr

/-- The pedal band (R56). -/
inductive Band where
  | released | modulating | pressed
deriving DecidableEq, Repr

/-- The ground speed source (R53). -/
inductive Source where
  | radar | wheel
deriving DecidableEq, Repr

/-- What a speed channel reads (R46, R49). -/
inductive ChanState where
  | valid | still | lost
deriving DecidableEq, Repr

/-- A publication: what each channel reads in it, and each quantity of R44, a value or unavailable. Speeds of the road are in
0.1 km/h, drafts in 0.1 kN. -/
structure Pub where
  chans : BySpeed ChanState
  windows : ByConv Window
  raws : ByConv (BitVec 12)
  engine : Option Nat
  wheel : Option Nat
  front : Option Nat
  radar : Option Nat
  source : Source
  ground : Option Nat
  slip : Option Nat
  position : Option Nat
  draftL : Option Int
  draftR : Option Int
  draft : Option Int
  brakeL : Option Nat
  brakeR : Option Nat
  service : Option Nat
  pedal : Option Nat
  band : Band
  line : Option Nat
  supply : Option Nat
deriving DecidableEq, Repr

/-- No quantity has a value before the first publication (R44); the channels then read as power-on reset leaves them (R46,
R51, log 15) and the band RELEASED (R56). -/
def Pub.none : Pub :=
  ⟨.tabulate fun _ => .still, .tabulate fun _ => .inWindow, .tabulate fun _ => 0, .none, .none, .none, .none, .radar,
   .none, .none, .none, .none, .none, .none, .none, .none, .none, .none, .released, .none, .none⟩

/-- The Measurement Unit (chapter 3). `published` says that the publication of the present millisecond has come (R44, log 3),
`begun` that one has come since power-on reset (R44); `supplyLow` is "available and below supply_min" (R57), and `byWheel`
"SPEED_MISMATCH latched with action DEGRADE" (R53), both as of the last publication. -/
structure Mu where
  speed : BySpeed SpeedRec
  conv : ByConv ConvRec
  pub : Pub
  mismatch : Timer
  supply : Timer
  published : Bool
  begun : Bool
  supplyLow : Bool
  byWheel : Bool
deriving DecidableEq, Repr

/-- The request state of a FILL or AXLE entry (R60). -/
inductive ReqState where
  | idle | waiting | granted
deriving DecidableEq, Repr

/-- A FILL or AXLE entry of the grant table; `wait` is the wait start time while its wait timer runs (R60, R68, R69). -/
structure FlowEntry where
  state : ReqState
  asked : Nat
  granted : Nat
  wait : Option Time
deriving DecidableEq, Repr

def FlowEntry.idle : FlowEntry := ⟨.idle, 0, 0, none⟩

/-- The Flow Arbiter (chapter 4). -/
structure Flow where
  fill : FlowEntry
  fillSite : Option Clutch
  axle : FlowEntry
  liftAsked : Nat
  liftGranted : Nat
  hold : Bool
deriving DecidableEq, Repr

/-- A direction of the gearbox (R72). -/
inductive Dir where
  | forward | reverse
deriving DecidableEq, Repr

/-- A range (R72). -/
inductive Range where
  | a | b | c
deriving DecidableEq, Repr

/-- A step clutch number 1 to 4 (R72). -/
inductive StepNo where
  | s1 | s2 | s3 | s4
deriving DecidableEq, Repr

/-- A direction and gear configuration of the box; `none` is NONE (R75, R78). -/
structure Conf where
  dir : Option Dir
  range : Option Range
  step : Option StepNo
deriving DecidableEq, Repr

/-- The state of a clutch (R74). -/
inductive ClutchState where
  | opened | fill | hold | rampOn | sync | locked | rampOff
deriving DecidableEq, Repr

/-- A straight-line ramp of current under way (R74, R85). -/
structure Ramp where
  first : Nat
  last : Nat
  start : Time
  length : Nat
deriving DecidableEq, Repr

/-- A clutch record (R74); `heatRest` is the remainder below one unit of heat, in ten-thousandths (R96). -/
structure ClutchRec where
  state : ClutchState
  current : Nat
  ramp : Option Ramp
  fillOffset : Int
  trend : Int
  heat : Nat
  heatRest : Nat
  hot : Bool
deriving DecidableEq, Repr

/-- The kinds of step (R78). -/
inductive StepKind where
  | single | range | shuttle | free | engage | neutralize
deriving DecidableEq, Repr

/-- The phase of a started step, named after the on-coming clutch's state (R79, chapter 13). -/
inductive Phase where
  | flowWait | fill | hold | rampOn | sync | rampOff
deriving DecidableEq, Repr

/-- A step record (R79). `phase` is `none` while the step is not started. `zeroRamp` marks a NEUTRALIZE built while
SAFE_NEUTRAL governs (R90); `response` is the shuttle_response as the step started and `decel` the deceleration part of a
shuttle's SYNC (R88); `syncStart` is the start of the sync_limit timer (R86); `preShift`, `observation` and `observable`
serve fill adaptation (R83, R94). -/
structure GearStep where
  kind : StepKind
  on : List Clutch
  off : List Clutch
  result : Conf
  downward : Bool
  upward : Bool
  zeroRamp : Bool
  phase : Option Phase
  phaseStart : Time
  phaseLength : Nat
  response : Nat
  decel : Bool
  syncStart : Option Time
  preShift : Option Nat
  observation : Int
  observable : Bool
deriving DecidableEq, Repr

/-- The three flags for the other job units (R101). -/
structure SqFlags where
  draftFreeze : Bool
  assistWindow : Bool
  releaseDeferral : Bool
deriving DecidableEq, Repr

def SqFlags.clear : SqFlags := ⟨false, false, false⟩

/-- An order as a job unit last took it: its handle and its setpoint fields. -/
structure Taken where
  handle : Handle
  setpoint : Values
deriving DecidableEq, Repr

/-- The Shift Sequencer (chapter 5). `looseSync` is the start of the sync_limit timer of a direction clutch in SYNC outside
a step (R91). -/
structure Sq where
  clutch : ByClutch ClutchRec
  interlock : Bool
  autoTarget : Nat
  queue : List GearStep
  looseSync : Option Time
  up : Timer
  down : Timer
  refusalUp : Bool
  refusalDown : Bool
  slip : Timer
  flags : SqFlags
  taken : Option Taken
deriving DecidableEq, Repr

/-- The coupling states of FA (R105). -/
inductive Coupling where
  | engaged | releaseWait | releasing | released | engaging
deriving DecidableEq, Repr

/-- The Axle Coupling Unit (chapter 6). -/
structure Acu where
  coupling : Coupling
  fill : Timer
  settle : Timer
  latch : Bool
  setTimer : Timer
  clearTimer : Timer
  mismatch : Timer
  openMark : Bool
  shortMark : Bool
  taken : Option Taken
deriving DecidableEq, Repr

/-- The regulator modes (R120). -/
inductive HitchMode where
  | hold | regulating | liftWait | transport
deriving DecidableEq, Repr

/-- The valve motions (R120). -/
inductive Motion where
  | idle | raise | lower
deriving DecidableEq, Repr

/-- The stall timer with the hitch position at its start (R131). -/
structure StallRun where
  run : Run
  position : Nat
deriving DecidableEq, Repr

/-- The Hitch Regulator (chapter 7). `exceeds` is "slip over the limit" as last decided (R127); `frozenLost` says that a draft
pin was lost during the freeze (R128); `positions` are the recorded positions of a lowering, newest first (R126);
`stallActive` is the position at the detection while HITCH_STALL is ACTIVE (R131); `blocked` is a raise wanted and not made
(R124); `clamp` says that the upper limit clamp applies (R123). -/
structure Hr where
  mode : HitchMode
  motion : Motion
  error : Int
  holdPos : Option Nat
  transportPos : Option Nat
  trim : Nat
  exceeds : Bool
  excess : Timer
  step : Timer
  frozen : Option Int
  frozenLost : Bool
  ceiling : Nat
  positions : List (Time × Nat)
  deviation : Timer
  stall : Option StallRun
  stallActive : Option Nat
  stallMark : Bool
  openMark : Bool
  shortMark : Bool
  asked : Nat
  granted : Nat
  clamp : Bool
  blocked : Bool
  taken : Option Taken
deriving DecidableEq, Repr

/-- The trailer states (R139). -/
inductive TrailerState where
  | detached | released | braking | assist | emergency
deriving DecidableEq, Repr

/-- The Trailer Brake Unit (chapter 8). -/
structure Tbu where
  presence : Bool
  debounce : Timer
  breakTimer : Timer
  tracking : Timer
  openMark : Bool
  shortMark : Bool
  taken : Option Taken
deriving DecidableEq, Repr

/-- A current channel (chapter 9). `regulating` says that a driven period has begun since the channel entered DRIVING
(R151). -/
structure OutRec where
  inForce : Nat
  pending : Nat
  tripped : Bool
  openTimer : Timer
  measured : Nat
  ditherPositive : Bool
  regulating : Bool
deriving DecidableEq, Repr

/-- The channel states of the Output Stage (R151). -/
inductive OutState where
  | off | driving | gated | tripped
deriving DecidableEq, Repr

/-- The fault actions (R160, chapter 13). -/
inductive Action where
  | advisory | degrade | safe | brake
deriving DecidableEq, Repr

/-- The stored part of an entry of the fault table (R158). -/
structure FaultEntry where
  latched : Bool
  site : Option Word
deriving DecidableEq, Repr

/-- The first-fault record when full (R163). -/
structure FirstFault where
  kind : FaultKind
  site : Word
  time : Time
  handle : Handle
deriving DecidableEq, Repr

/-- The Fault Unit (chapter 10). `reports` are the reports to the OTU not yet taken, oldest first. -/
structure Fu where
  entry : ByKind FaultEntry
  mask : ByPort (BitVec 15)
  clutchOpen : Bool
  clutchShort : Bool
  record : Option FirstFault
  safeNeutral : Bool
  breakaway : Bool
  reports : List (FaultOrder × Bool)
deriving DecidableEq, Repr

/-- The causes of an attention line (R175). -/
inductive Cause where
  | orders | fault | gear | trailer
deriving DecidableEq, Repr

/-- The result codes (chapter 13.2). -/
inductive Result where
  | ok | none | pending | busy | badFrame | badRequest | badField | range | stale | conflict | denied | tableFull
  | quota | badState | lapsed | stillActive | configInvalid
deriving DecidableEq, Repr

/-- An answer frame without its check byte (chapter 13.1). -/
structure Answer where
  code : Byte
  tag : Byte
  result : Result
  state : OrderState
  handle : Handle
  gen : Word
  vals : Values
deriving DecidableEq, Repr

/-- A transaction under way: `refused` when it began while a request was in flight (R170), `discard` when the port's reset
input discards its request (R178). -/
structure Txn where
  refused : Bool
  discard : Bool
deriving DecidableEq, Repr

/-- A request port (chapter 11). `throttle` is the end of a running throttle timer. -/
structure PortRec where
  slot : Answer
  dataOut : Answer
  inFlight : Option Answer
  txn : Option Txn
  resetHeld : Bool
  changed : List Nat
  causes : BitVec 4
  causeMask : BitVec 4
  asserted : Bool
  throttle : Option Time
  badFrames : Nat
  busys : Nat
deriving DecidableEq, Repr

/-- The Configuration Store (chapter 12): the device state and items 0 to 28. -/
structure Cs where
  device : Device
  items : List (List Word)
deriving DecidableEq, Repr

/-- The three discrete inputs; `true` is high. -/
structure Inputs where
  enable : Bool
  trailerPresent : Bool
  breakaway : Bool
deriving DecidableEq, Repr

end Sys2Proof.Machine
end

