-- ==== Sys2Proof/Machine/Store.lean ====
section
/-! DEFINITION. The configuration items: lengths, defaults, ranges and named readers (chapter 12.2 and the item tables of
chapters 1 to 11), and the records as power-on reset leaves them. -/

namespace Sys2Proof.Machine

/-- The number of values of each item, items 0 to 28 (chapter 12.2). -/
def itemLengths : List Nat :=
  [12, 12, 10, 10, 10, 10, 10, 10, 10, 10, 10, 5, 4, 8, 2, 8, 8, 8, 8, 3, 5, 6, 3, 4, 2, 4, 2, 15, 13]

/-- An item's number of values; 0 for a number that names no item. -/
def itemLength (item : Nat) : Nat := itemLengths.getD item 0

/-- The defaults of a clutch's item (R73). -/
def clutchDefaults : List Word := [1100, 120, 4, 350, 80, 300, 700, 1400, 60, 1500]

/-- The defaults of the fault actions (R158), in the codes of chapter 13. -/
def actionDefaults : List Word := [2, 2, 1, 1, 1, 0, 0, 0, 2, 1, 1, 0, 1, 3, 0]

/-- Every item at its default (R4, R39, R45, R50, R51, R57, R59, R72, R73, R94, R96, R105, R119, R137, R152, R158, R173,
R177). Speeds are in 0.1 km/h, road scalings in 0.1 pulses per metre, trailer_ratio in 0.01. -/
def defaultItems : List (List Word) :=
  [List.replicate 12 0, List.replicate 12 0] ++ List.replicate 9 clutchDefaults ++
  [[5, 1200, 150, 600, 200],
   [24, 3, 200, 12],
   [60, 400, 300, 1300, 0, 0, 0, 0],
   [250, 1500],
   [0, 2048, 2048, 0, 0, 0, 0, 0],
   [1000, 2000, 2000, 16000, 16000, 1000, 16000, 6000],
   List.replicate 8 100,
   List.replicate 8 3995,
   [2000, 200, 800],
   [80, 100, 40000, 20000, 200],
   [8, 300, 60, 250, 4, 1200],
   [100, 1600, 15000],
   [100, 0, 0, 12000],
   [24, 24],
   [1, 1, 1, 0],
   [20, 20],
   actionDefaults,
   [60, 60, 60, 60, 60, 60, 60, 60, 60, 0, 40, 40, 0]]

/-- A value of the store; 0 where there is none. -/
def itemValue (items : List (List Word)) (item index : Nat) : Word := (items.getD item []).getD index 0

/-- A value of the store as a natural number. -/
def itemNat (items : List (List Word)) (item index : Nat) : Nat := (itemValue items item index).toNat

/-- The allowed actions of each kind (R158), as codes. -/
def allowedActions : FaultKind → List Nat
  | .outOpen | .speedLost => [0, 1, 2]
  | .outShort => [1, 2]
  | .sensorRange | .speedMismatch | .axleMismatch | .hitchStall | .supplyLow => [0, 1]
  | .flowStarved | .clutchHot | .tbrakeTracking | .enableLost => [0]
  | .syncTimeout | .gearSlip => [0, 2]
  | .breakaway => [3]

/-- A value lies from a low to a high bound, both inclusive. -/
def within (lo hi n : Nat) : Bool := lo ≤ n && n ≤ hi

/-- The range of one value of a clutch's item (R73). -/
def clutchValueOk (index n : Nat) : Bool :=
  match index with
  | 1 => within 20 400 n
  | 2 => within 1 16 n
  | 4 => within 20 300 n
  | 5 => within 50 800 n
  | 8 => within 20 200 n
  | 9 => within 200 5000 n
  | _ => within 0 2000 n

/-- A value lies in its own range (R4, R39, R45, R50, R51, R57, R59, R72, R73, R94, R96, R105, R119, R137, R152, R167,
R173, R177). A gain is signed, −32767 to +32767. Ranges that refer to another value are in `crossOk`. -/
def valueOk (item index : Nat) (w : Word) : Bool :=
  let n := w.toNat
  match item with
  | 0 | 1 => within 0 20000 n
  | 2 | 3 | 4 | 5 | 6 | 7 | 8 | 9 | 10 => clutchValueOk index n
  | 11 => match index with
    | 0 => within 1 16 n
    | 2 => within 20 400 n
    | 4 => within 50 1000 n
    | _ => within 0 2000 n
  | 12 => match index with
    | 0 => within 8 63 n
    | 1 => within 1 8 n
    | 2 => within 50 500 n
    | _ => within 1 60 n
  | 13 => match index with
    | 0 => within 1 250 n
    | 1 | 2 | 3 => within 10 5000 n
    | _ => within 0 2 n
  | 14 => match index with
    | 0 => within 50 1000 n
    | _ => within 500 4000 n
  | 15 | 17 | 18 => within 0 4095 n
  | 16 => w.toInt ≠ -32768
  | 19 => match index with
    | 0 => within 500 10000 n
    | 1 => within 50 400 n
    | _ => within 0 1000 n
  | 20 => match index with
    | 0 | 1 => within 20 500 n
    | 2 => within 1000 65535 n
    | 3 => true
    | _ => within 1 1000 n
  | 21 => match index with
    | 0 => within 1 100 n
    | 1 | 3 => within 0 1000 n
    | 2 => within 10 150 n
    | 4 => within 1 20 n
    | _ => within 100 2000 n
  | 22 => match index with
    | 0 => within 50 300 n
    | 1 => within 200 2000 n
    | _ => within 2000 16000 n
  | 23 => match index with
    | 0 => within 50 150 n
    | 1 => within 0 1 n
    | 2 => within 0 4000 n
    | _ => within 2000 15000 n
  | 24 => within 4 40 n
  | 25 => within 0 1 n
  | 26 => within 0 250 n
  | 27 => match FaultKind.all[index]? with
    | some k => (allowedActions k).contains n
    | none => false
  | 28 => within 0 200 n
  | _ => false

/-- The ranges that refer to another value of the store: raw_low below raw_high (R51), cool_limit below hot_limit (R96),
lower_max_current not below lower_base_current (R119). -/
def crossOk (items : List (List Word)) : Nat → Bool
  | 17 | 18 => (List.range 8).all fun i => itemNat items 17 i < itemNat items 18 i
  | 20 => itemNat items 20 3 < itemNat items 20 2
  | 21 => itemNat items 21 3 ≤ itemNat items 21 5
  | _ => true

/-- Writes a run of values into a list from an index on. -/
def writeRun (l : List Word) (first : Nat) : List Word → List Word
  | [] => l
  | v :: vs => writeRun (l.set first v) (first + 1) vs

/-- The store after a run of values of one item is written. -/
def writeItem (items : List (List Word)) (item first : Nat) (vals : List Word) : List (List Word) :=
  items.set item (writeRun (items.getD item []) first vals)

/-! Named readers of the items. -/

/-- The ten values of a clutch's item, in the order of R73. -/
structure ClutchItem where
  fillCurrent : Nat
  fillTime : Nat
  fillUnits : Nat
  holdCurrent : Nat
  holdTime : Nat
  rampTime : Nat
  syncCurrent : Nat
  lockCurrent : Nat
  syncWindow : Nat
  syncLimit : Nat
deriving DecidableEq, Repr

def clutchItem (items : List (List Word)) (c : Clutch) : ClutchItem :=
  let v := itemNat items (2 + c.code)
  ⟨v 0, v 1, v 2, v 3, v 4, v 5, v 6, v 7, v 8, v 9⟩

/-- The ratio of a gear in a direction, in 0.1 rpm per km/h (R72). -/
def gearRatio (items : List (List Word)) (d : Dir) (gear : Nat) : Nat :=
  itemNat items (match d with | .forward => 0 | .reverse => 1) (gear - 1)

/-- The edge selection of a speed channel doubles its edges under BOTH (R45). -/
def edgeFactor (items : List (List Word)) (ch : SpeedCh) : Nat :=
  if itemNat items 13 (4 + ch.code) = 2 then 2 else 1

/-- The quota of a port (R4). -/
def quota (items : List (List Word)) (p : Port) : Nat := itemNat items 24 p.code

/-- The throttle of a port, in ms (R177). -/
def throttleMs (items : List (List Word)) (p : Port) : Nat := itemNat items 26 p.code

/-- The configured action of a kind (R158, R167). -/
def actionOf (items : List (List Word)) (k : FaultKind) : Action :=
  match itemNat items 27 k.code with
  | 1 => .degrade
  | 2 => .safe
  | 3 => .brake
  | _ => .advisory

/-- The dither amplitude of a channel (R152). -/
def ditherOf (items : List (List Word)) (ch : OutCh) : Nat := itemNat items 28 ch.code

/-- The default trailer law as setpoint fields of DEFAULT_TBRAKE (R14, R137). -/
def defaultTrailerLaw (items : List (List Word)) : Values :=
  ⟨itemValue items 23 0, itemValue items 23 1, itemValue items 23 2, itemValue items 23 3, 0, 0, 0, 0⟩

/-! The records at power-on reset. -/

/-- The channel, class and setpoint fields of internal order `k` (R13). -/
def internalSetpoint (items : List (List Word)) (k : Nat) : Channel × Nat × Values :=
  match k with
  | 0 => (.gear, 0, ⟨0, 0, 1, 1, 12, 2100, 1400, 3⟩)
  | 1 => (.axle, 0, ⟨0, 150, 15, 8, 0, 0, 0, 0⟩)
  | 2 => (.hitch, 0, ⟨4, 0, 0, 0, 100, 1000, 0, 0⟩)
  | 3 => (.tbrake, 0, ⟨150, 0, 0, 15000, 0, 0, 0, 0⟩)
  | 4 => (.gear, 3, ⟨0, 0, 1, 1, 12, 2100, 1400, 3⟩)
  | 5 => (.axle, 3, ⟨0, 150, 15, 8, 0, 0, 0, 0⟩)
  | 6 => (.hitch, 3, ⟨4, 0, 0, 0, 100, 1000, 0, 0⟩)
  | _ => (.tbrake, 3, defaultTrailerLaw items)

/-- Internal order `k` with a condition and a state (R13, R43). -/
def internalOrder (k : Nat) (cond : Bool) (st : OrderState) : Order :=
  let (ch, cls, sp) := internalSetpoint defaultItems k
  { channel := ch, cls := cls, owner := .internal, state := st, keeping := .none, lease := 0, termCount := 0,
    setpoint := sp, term1 := .blank, term2 := .blank, gen := 1, cond := cond, lcuCond := cond }

/-- The eight internal slots, resolved once: SAFE_NEUTRAL governs GEAR exactly while ENABLE is low (R42, R43). -/
def internalSlots (enable : Bool) : List Slot :=
  let slot (o : Order) : Slot := ⟨0, some o⟩
  [slot (internalOrder 0 (!enable) (if enable then .dormant else .governing)),
   slot (internalOrder 1 false .dormant),
   slot (internalOrder 2 false .dormant),
   slot (internalOrder 3 false .dormant),
   slot (internalOrder 4 true (if enable then .governing else .outranked)),
   slot (internalOrder 5 true .governing),
   slot (internalOrder 6 true .governing),
   slot (internalOrder 7 true .governing)]

/-- The order table after power-on reset (R1, R2, R4, R12, R13, R43). -/
def Otu.reset (enable : Bool) : Otu where
  slots := internalSlots enable ++ List.replicate 40 ⟨0, none⟩
  lists := ⟨[0, 4], [1, 5], [2, 6], [3, 7]⟩
  live := ⟨0, 0⟩

/-- The LCU after power-on reset (R28, R29, R34, R40, R41). -/
def Lcu.reset : Lcu := ⟨0, [], false, none, false, []⟩

/-- The MU after power-on reset (R44, R46, R49, R51, R55, R57). The first publication comes when the timebase reaches 1, so
none is outstanding at 0. -/
def Mu.reset : Mu where
  speed := .tabulate fun _ => ⟨.still none, none, false, false⟩
  conv := .tabulate fun _ => ⟨0, true, .inWindow, none, false⟩
  pub := .none
  mismatch := none
  supply := none
  published := true
  begun := false
  supplyLow := false
  byWheel := false

/-- The Flow Arbiter after power-on reset (R60, R70). -/
def Flow.reset : Flow := ⟨.idle, none, .idle, 0, 0, false⟩

/-- A clutch record after power-on reset (R74). -/
def ClutchRec.reset : ClutchRec := ⟨.opened, 0, none, 0, 0, 0, 0, false⟩

/-- The SQ after power-on reset (R74, R75, R79, R93, R100, R101). -/
def Sq.reset : Sq where
  clutch := .tabulate fun _ => ClutchRec.reset
  interlock := true
  autoTarget := 0
  queue := []
  looseSync := none
  up := none
  down := none
  refusalUp := false
  refusalDown := false
  slip := none
  flags := .clear
  taken := none

/-- The ACU after power-on reset (R105, R115, R116). -/
def Acu.reset : Acu := ⟨.engaged, none, none, false, none, none, none, false, false, none⟩

/-- The HR after power-on reset (R119). -/
def Hr.reset : Hr where
  mode := .hold
  motion := .idle
  error := 0
  holdPos := none
  transportPos := none
  trim := 0
  exceeds := false
  excess := none
  step := none
  frozen := none
  frozenLost := false
  ceiling := 0
  positions := []
  deviation := none
  stall := none
  stallActive := none
  stallMark := false
  openMark := false
  shortMark := false
  asked := 0
  granted := 0
  clamp := false
  blocked := false
  taken := none

/-- The TBU after power-on reset (R138, R143, R144, R145). -/
def Tbu.reset : Tbu := ⟨false, none, none, none, false, false, none⟩

/-- A current channel after power-on reset (R149). -/
def OutRec.reset : OutRec := ⟨0, 0, false, none, 0, true, false⟩

/-- The FU after power-on reset (R158, R161, R162, R163). -/
def Fu.reset (enable : Bool) : Fu where
  entry := .tabulate fun _ => ⟨false, none⟩
  mask := ⟨0, 0⟩
  clutchOpen := false
  clutchShort := false
  record := none
  safeNeutral := !enable
  breakaway := false
  reports := []

/-- The NONE answer: result NONE and all other fields 0 (R169). -/
def Answer.noneAnswer : Answer := ⟨0, 0, .none, .dormant, ⟨0, 0⟩, 0, .zero⟩

/-- A port after power-on reset (R169, R174 to R177, R179); its pins keep their levels. -/
def PortRec.reset (txn : Option Txn) (resetHeld : Bool) : PortRec where
  slot := .noneAnswer
  dataOut := .noneAnswer
  inFlight := none
  txn := txn
  resetHeld := resetHeld
  changed := []
  causes := 0
  causeMask := 0
  asserted := false
  throttle := none
  badFrames := 0
  busys := 0

end Sys2Proof.Machine
end

