-- ==== Sys2Proof/Machine/State.lean ====
section
/-! DEFINITION. The state of the JT-48 as plain data, what can stop a step, and the state after power-on reset. -/

namespace Sys2Proof.Machine

/-- The state: every block's own state, the pins, and the queue of commands that wait, first in, first out. -/
structure State where
  pending : List Instr
  inputs : Inputs
  cs : Cs
  otu : Otu
  lcu : Lcu
  mu : Mu
  flow : Flow
  sq : Sq
  acu : Acu
  hr : Hr
  tbu : Tbu
  os : ByOut OutRec
  fu : Fu
  rp : ByPort PortRec
deriving DecidableEq, Repr

/-- The faults a step can stop with: none. The spec gives every command an effect in every state, so no constructor is
needed; this is safe, since it hides no behaviour. -/
inductive Fault where
deriving DecidableEq, Repr

/-- The refusals a step can stop with. -/
inductive Refusal where
  /-- Raised by `exec` for a command that has no meaning yet; safe, since a refused step proves nothing of the hardware. -/
  | notModelled (mnemonic : String)
deriving DecidableEq, Repr

/-- The state right after power-on reset with the pins at given levels and a transaction possibly under way on a port
(R180 and the power-on values of each chapter). -/
def State.powerOn (inputs : Inputs) (txn : ByPort (Option Txn)) (held : ByPort Bool) : State where
  pending := []
  inputs := inputs
  cs := ⟨.config, defaultItems⟩
  otu := .reset inputs.enable
  lcu := .reset
  mu := .reset
  flow := .reset
  sq := .reset
  acu := .reset
  hr := .reset
  tbu := .reset
  os := .tabulate fun _ => OutRec.reset
  fu := .reset inputs.enable
  rp := .tabulate fun p => PortRec.reset (txn.get p) (held.get p)

/-- The state after reset, with every discrete input low, no port reset held and no transaction under way (log 1). -/
def State.reset : State := State.powerOn ⟨false, false, false⟩ ⟨none, none⟩ ⟨false, false⟩

end Sys2Proof.Machine
end

