-- ==== Sys2Proof/Machine/Flags.lean ====
section
/-! DEFINITION. Timers on the timebase, and the flags of the ports: causes, masks, the attention line and the changed-order
sets (R28, R174 to R177). -/

namespace Sys2Proof.Machine

/-- Milliseconds from a start to now, modulo 2^32 (R28). -/
def elapsed (now start : Time) : Nat := (now - start).toNat

/-- The time remaining to a deadline (R28): the deadline minus now modulo 2^32. No interval is longer than 5000 ms, so a
remainder of 2^31 or more is a deadline already passed, with nothing remaining. -/
def remaining (now deadline : Time) : Nat :=
  let r := (deadline - now).toNat
  if r < 2147483648 then r else 0

/-- The timer as it starts. -/
def Timer.begun (now : Time) : Timer := some ⟨now, false⟩

/-- The timer has reached its limit and its expiry has not been taken. -/
def Timer.due (now : Time) (limit : Nat) : Timer → Bool
  | some r => !r.out && limit ≤ elapsed now r.start
  | none => false

/-- The timer once its expiry is taken: it does not report again until it is discarded. -/
def Timer.runOut : Timer → Timer
  | some r => some { r with out := true }
  | none => none

/-- The timer has run out and has not been discarded. -/
def Timer.isOut : Timer → Bool
  | some r => r.out
  | none => false

/-- A timer that runs exactly while a condition holds: it starts when the condition begins and is discarded when it ends. -/
def Timer.follow (cond : Bool) (now : Time) (t : Timer) : Timer :=
  if cond then (match t with | some r => some r | none => Timer.begun now) else none

/-- A count as a 16-bit view value; above 65535 the spec gives no value (log 12). -/
def viewNat (n : Nat) : Word := if n < 65536 then Word.ofNat n else Config.wideReading n

/-- A timer's "ms run" in a view, 0 when idle. A timer that has run out runs on until it is discarded (log 50). -/
def Timer.ran (now : Time) : Timer → Word
  | none => 0
  | some r => viewNat (elapsed now r.start)

/-! Short names for what many blocks read. -/

/-- Now is the value of the timebase (R28). -/
def State.now (s : State) : Time := s.lcu.now

def State.items (s : State) : List (List Word) := s.cs.items

/-- The device is in RUN (R180). -/
def State.running (s : State) : Bool := s.cs.device = .run

/-- The ENABLE input is high. -/
def State.enable (s : State) : Bool := s.inputs.enable

def State.pub (s : State) : Pub := s.mu.pub

def State.action (s : State) (k : FaultKind) : Action := actionOf s.items k

def State.latched (s : State) (k : FaultKind) : Bool := (s.fu.entry.get k).latched

/-! Ports. -/

def State.port (s : State) (p : Port) : PortRec := s.rp.get p

def State.setPort (s : State) (p : Port) (r : PortRec) : State := { s with rp := s.rp.set p r }

/-- The bit of a cause in a cause set or mask (chapter 13). -/
def Cause.bit : Cause → BitVec 4
  | .orders => 1
  | .fault => 2
  | .gear => 4
  | .trailer => 8

/-- A cause is set and not masked (R176). -/
def PortRec.unmasked (r : PortRec) : Bool := r.causes &&& ~~~ r.causeMask != 0

/-- The line deasserts and the throttle timer starts, unless the throttle is 0 (R177). -/
def PortRec.deassert (r : PortRec) (now : Time) (throttle : Nat) : PortRec :=
  { r with asserted := false, throttle := if throttle = 0 then r.throttle else some (now + BitVec.ofNat 32 throttle) }

/-- The attention line after a change of causes or mask (R177). -/
def PortRec.attend (r : PortRec) (now : Time) (throttle : Nat) : PortRec :=
  if r.asserted then
    if r.unmasked then r else r.deassert now throttle
  else if r.unmasked && r.throttle.isNone then { r with asserted := true } else r

def State.attend (s : State) (p : Port) : State :=
  s.setPort p ((s.port p).attend s.now (throttleMs s.items p))

/-- A cause is set at a port; the attention line follows (R175, R177). -/
def State.setCause (s : State) (p : Port) (c : Cause) : State :=
  let r := s.port p
  (s.setPort p { r with causes := r.causes ||| c.bit }).attend p

/-- A cause set on both ports (R175). -/
def State.setCauseBoth (s : State) (c : Cause) : State := (s.setCause .cab c).setCause .implement c

/-- Adds a slot number to a set kept in ascending order, each at most once (R16, R174). -/
def insertSlot (k : Nat) : List Nat → List Nat
  | [] => [k]
  | x :: xs => if k < x then k :: x :: xs else if k = x then x :: xs else x :: insertSlot k xs

/-- A slot enters a port's changed-order set; into an empty set it sets ORDERS (R16, R175). -/
def State.enterSet (s : State) (p : Port) (k : Nat) : State :=
  let r := s.port p
  let s' := s.setPort p { r with changed := insertSlot k r.changed }
  if r.changed.isEmpty then s'.setCause p .orders else s'

/-- A slot leaves a port's changed-order set (R3). -/
def State.leaveSet (s : State) (p : Port) (k : Nat) : State :=
  let r := s.port p
  s.setPort p { r with changed := r.changed.filter (· ≠ k) }

/-- The port whose set an owner's orders enter: internal orders enter the CAB port's (R16). -/
def Owner.port : Owner → Port
  | .cab | .internal => .cab
  | .implement => .implement

def ownerOf : Port → Owner
  | .cab => .cab
  | .implement => .implement

end Sys2Proof.Machine
end

