-- ==== Sys2Proof/Machine/Ops.lean ====
section
/-! DEFINITION. Shared operations on the order table: reading and writing orders, the governing order, keeping (R1, R2,
R10, R12, R15, R16). -/

namespace Sys2Proof.Machine

/-- The order in a slot, if the slot is live. -/
def State.order (s : State) (k : Nat) : Option Order := (s.otu.slots[k]?).bind (·.order)

/-- The incarnation of a slot. -/
def State.incarnation (s : State) (k : Nat) : Byte := ((s.otu.slots[k]?).map (·.inc)).getD 0

/-- The handle of the present placement in a slot (R2). -/
def State.handle (s : State) (k : Nat) : Handle := ⟨BitVec.ofNat 8 k, s.incarnation k⟩

/-- Replaces slot `k` of a slot list. -/
def putSlot (slots : List Slot) (k : Nat) (sl : Slot) : List Slot := slots.set k sl

def State.setSlot (s : State) (k : Nat) (sl : Slot) : State :=
  { s with otu := { s.otu with slots := putSlot s.otu.slots k sl } }

/-- Writes the order record in a slot; the incarnation stays. -/
def State.setOrder (s : State) (k : Nat) (o : Order) : State := s.setSlot k ⟨s.incarnation k, some o⟩

def State.list (s : State) (ch : Channel) : List Nat := s.otu.lists.get ch

def State.setList (s : State) (ch : Channel) (l : List Nat) : State :=
  { s with otu := { s.otu with lists := s.otu.lists.set ch l } }

def State.live (s : State) (p : Port) : Nat := s.otu.live.get p

def State.setLive (s : State) (p : Port) (n : Nat) : State :=
  { s with otu := { s.otu with live := s.otu.live.set p n } }

/-- The order a live handle names: the slot is live and its incarnation is the handle's (R2). A slot number past 47 names
no slot and is answered as a FREE one (log 8). -/
def State.lookup (s : State) (h : Handle) : Option Order :=
  if s.incarnation h.slot.toNat = h.inc then s.order h.slot.toNat else none

/-- An order is GOVERNING. -/
def State.isGoverning (s : State) (k : Nat) : Bool :=
  match s.order k with
  | some o => o.state = .governing
  | none => false

/-- The slot of the governing order of a channel: the entry of its list whose state is GOVERNING (R10). -/
def State.governing (s : State) (ch : Channel) : Option Nat := (s.list ch).find? s.isGoverning

/-- The handle of a channel's governing order. -/
def State.governingHandle (s : State) (ch : Channel) : Handle :=
  match s.governing ch with
  | some k => s.handle k
  | none => .empty

/-- An order is eligible: not LAPSED, and its condition is true (R10). -/
def Order.eligible (o : Order) : Bool := o.state ≠ .lapsed && o.cond

/-- Puts a slot into the changed-order set of its order's owner (R16). -/
def State.noteChange (s : State) (k : Nat) (o : Order) : State := s.enterSet o.owner.port k

/-- Writes a keeping value on a channel's governing order when it differs from the one held; the slot then enters its
owner's changed-order set (R15, R16). -/
def State.writeKeeping (s : State) (ch : Channel) (v : Keeping) : State :=
  match s.governing ch with
  | none => s
  | some k =>
    match s.order k with
    | none => s
    | some o => if o.keeping = v then s else (s.setOrder k { o with keeping := v }).noteChange k o

/-- The order a job unit takes: the governing order of its channel with its handle. -/
def State.takenNow (s : State) (ch : Channel) : Option Taken :=
  match s.governing ch with
  | none => none
  | some k => (s.order k).map fun o => ⟨s.handle k, o.setpoint⟩

/-- Field `i` (0 to 7) of the setpoint of an order as taken, 0 when none was taken. -/
def takenField (t : Option Taken) (i : Nat) : Nat :=
  match t with
  | some t => (t.setpoint.nth i).toNat
  | none => 0

/-- The slot of an order as taken. -/
def takenSlot (t : Option Taken) : Nat :=
  match t with
  | some t => t.handle.slot.toNat
  | none => 255

/-- A fraction of a milliampere as a whole current: exact where it is whole, else rounded either way (log 11). -/
def freeRound (n d : Nat) : Nat :=
  if n % d = 0 then n / d else if Config.roundsUp n d then n / d + 1 else n / d

/-- The current of a straight-line ramp at a time (R74): its first current at its start, its last current once its length has
passed. -/
def Ramp.at (r : Ramp) (now : Time) : Nat :=
  let t := elapsed now r.start
  if r.length ≤ t then r.last
  else if r.first ≤ r.last then r.first + freeRound ((r.last - r.first) * t) r.length
  else r.first - freeRound ((r.first - r.last) * t) r.length

/-- The larger of the values of a list, 0 for the empty list. -/
def listMax : List Nat → Nat
  | [] => 0
  | x :: xs => max x (listMax xs)

end Sys2Proof.Machine
end

