-- ==== Sys2Proof/Machine/Operands.lean ====
section
/-! DEFINITION. The operand forms of the requests: codes of chapter 13.2, the fields of an order record as read and as
written, and the range checks of setpoints, leases and terms (R5 to R9, R18, R20, R33). -/

namespace Sys2Proof.Machine

/-! Codes (chapter 13.2). -/

def Result.code : Result → Byte
  | .ok => 0 | .none => 1 | .pending => 2 | .busy => 3 | .badFrame => 4 | .badRequest => 5 | .badField => 6 | .range => 7
  | .stale => 8 | .conflict => 9 | .denied => 10 | .tableFull => 11 | .quota => 12 | .badState => 13 | .lapsed => 14
  | .stillActive => 15 | .configInvalid => 16

def OrderState.code : OrderState → Nat
  | .dormant => 0 | .outranked => 1 | .governing => 2 | .lapsed => 3

def Owner.code : Owner → Nat
  | .cab => 0 | .implement => 1 | .internal => 2

def Reason.code : Reason → Nat
  | .shifting => 1 | .flowWait => 2 | .inchWait => 3 | .hotClutch => 4 | .restartInterlock => 5 | .band => 6
  | .shiftWait => 7 | .slipTrim => 8 | .upperLimit => 9 | .draftFrozen => 10 | .sensorDegraded => 11 | .stalled => 12
  | .detached => 13 | .faultDegraded => 14

/-- A keeping value: its kind in the high byte, its reason in the low byte. -/
def Keeping.code : Keeping → Word
  | .none => 0
  | .kept => 0x100
  | .limited r => Word.ofNat (0x200 + r.code)
  | .waiting r => Word.ofNat (0x300 + r.code)

def Action.code : Action → Nat
  | .advisory => 0 | .degrade => 1 | .safe => 2 | .brake => 3

/-- A handle as a value: slot in the high byte, incarnation in the low byte. -/
def Handle.word (h : Handle) : Word := Word.ofBytes h.slot h.inc

/-- The site value "none". -/
def noSite : Word := 0xFFFF

/-! Names from codes. -/

def channelOf (b : Byte) : Option Channel := Channel.all[b.toNat]?

def kindOf (b : Byte) : Option FaultKind := FaultKind.all[b.toNat]?

/-! Condition terms (R33). -/

/-- The quantities of condition terms (R33). -/
inductive Quantity where
  | groundSpeed | wheelSlip | engineSpeed | hitchPosition | gearNumber | serviceBrake
deriving DecidableEq, Repr

def quantityOf : Nat → Option Quantity
  | 0 => some .groundSpeed
  | 1 => some .wheelSlip
  | 2 => some .engineSpeed
  | 3 => some .hitchPosition
  | 4 => some .gearNumber
  | 5 => some .serviceBrake
  | _ => none

/-- The largest threshold and the largest hysteresis of a quantity (R33). -/
def Quantity.limits : Quantity → Nat × Nat
  | .groundSpeed => (600, 100)
  | .wheelSlip => (100, 50)
  | .engineSpeed => (3500, 500)
  | .hitchPosition => (1000, 200)
  | .gearNumber => (12, 2)
  | .serviceBrake => (16000, 2000)

/-- The quantity a term's first field names. -/
def Term.quantityName (t : Term) : Option Quantity := quantityOf t.quantity.hi.toNat

/-- The relation of a term is ABOVE (low byte 0); BELOW is 1. -/
def Term.above (t : Term) : Bool := t.quantity.lo = 0

/-- All four marks of a term are set (R9). -/
def Term.set (t : Term) : Bool := t.quantityMark && t.thresholdMark && t.hysteresisMark && t.dwellMark

/-- The fields of a term lie in their ranges (R9, R33): threshold and hysteresis are held against the quantity once its mark
is set, and only to 16 bits before. -/
def Term.inRange (t : Term) : Bool :=
  t.dwell.toNat ≤ 2000 &&
    (!t.quantityMark ||
      match t.quantityName with
      | some q => t.quantity.lo.toNat ≤ 1 && t.threshold.toNat ≤ q.limits.1 && t.hysteresis.toNat ≤ q.limits.2
      | none => false)

/-- A term truth (R34). -/
def Term.truth (t : Term) : Bool := t.set && t.eval = some .isTrue

/-- The AND of the term truths of an order with terms (R10, R38). -/
def Order.termsTrue (o : Order) : Bool := o.term1.truth && (o.termCount < 2 || o.term2.truth)

def Order.term (o : Order) : TermNo → Term
  | .first => o.term1
  | .second => o.term2

def Order.setTerm (o : Order) (n : TermNo) (t : Term) : Order :=
  match n with
  | .first => { o with term1 := t }
  | .second => { o with term2 := t }

/-! Setpoints (R7, R8). -/

/-- Every setpoint field of a channel lies in its range, the ranges that refer to another field included, and every unused
field is 0 (R7, R8). -/
def setpointOk (ch : Channel) (v : Values) : Bool :=
  let n (i : Nat) : Nat := (v.nth i).toNat
  match ch with
  | .gear =>
    n 0 ≤ 2 && n 1 ≤ 1 && within 1 12 (n 2) && within 1 12 (n 3) && within (n 3) 12 (n 4) && within 1200 2600 (n 5) &&
      within 800 2000 (n 6) && n 6 + 200 ≤ n 5 && within 1 5 (n 7)
  | .axle =>
    n 0 ≤ 2 && n 1 ≤ 400 && within 5 40 (n 2) && within 2 40 (n 3) && n 3 + 2 ≤ n 2 && n 4 = 0 && n 5 = 0 && n 6 = 0 &&
      n 7 = 0
  | .hitch =>
    n 0 ≤ 4 && n 1 ≤ 1000 && n 2 ≤ 1500 && n 3 ≤ 100 && within 10 500 (n 4) && within 100 1000 (n 5) &&
      (n 6 = 0 || within 5 50 (n 6)) && n 7 = 0
  | .tbrake =>
    within 50 150 (n 0) && n 1 ≤ 1 && n 2 ≤ 4000 && within 2000 15000 (n 3) && n 4 = 0 && n 5 = 0 && n 6 = 0 && n 7 = 0

/-- The number of setpoint fields that R7 or R8 gives a meaning on a channel. -/
def usedSetpoints : Channel → Nat
  | .gear => 8
  | .axle => 4
  | .hitch => 7
  | .tbrake => 4

/-- A lease interval is in range for its owner: 20 to 5000 ms in 10 ms steps, or 0, which IMPLEMENT may not ask (R5, R18,
R20). -/
def leaseOk (owner : Owner) (w : Word) : Bool :=
  let n := w.toNat
  if n = 0 then owner ≠ .implement else within 20 5000 n && n % 10 = 0

/-! The fields of an order record (R5). -/

/-- An AMEND may write a field of an order (R20). -/
def Order.writable (o : Order) (i : Nat) : Bool :=
  i = 5 || (within 8 15 i && i < 8 + usedSetpoints o.channel) || (within 16 23 i && i < 16 + 4 * o.termCount)

/-- Writes one field of a term and sets its mark (R9). -/
def Term.write (t : Term) (i : Nat) (w : Word) : Term :=
  match i with
  | 0 => { t with quantity := w, quantityMark := true }
  | 1 => { t with threshold := w, thresholdMark := true }
  | 2 => { t with hysteresis := w, hysteresisMark := true }
  | _ => { t with dwell := w, dwellMark := true }

/-- Writes one of eight values. -/
def writeValue (v : Values) (i : Nat) (w : Word) : Values :=
  match i with
  | 0 => { v with v1 := w }
  | 1 => { v with v2 := w }
  | 2 => { v with v3 := w }
  | 3 => { v with v4 := w }
  | 4 => { v with v5 := w }
  | 5 => { v with v6 := w }
  | 6 => { v with v7 := w }
  | _ => { v with v8 := w }

/-- Writes one writable field of an order record. -/
def Order.writeField (o : Order) (i : Nat) (w : Word) : Order :=
  if i = 5 then { o with lease := w }
  else if i < 16 then { o with setpoint := writeValue o.setpoint (i - 8) w }
  else if i < 20 then { o with term1 := o.term1.write (i - 16) w }
  else { o with term2 := o.term2.write (i - 20) w }

/-- Writes a run of fields from a first field on. -/
def Order.writeFields (o : Order) (first : Nat) : List Word → Order
  | [] => o
  | w :: ws => Order.writeFields (o.writeField first w) (first + 1) ws

/-- Every value of an order record is in range as it stands (R20, step 6). -/
def Order.inRange (o : Order) : Bool :=
  leaseOk o.owner o.lease && setpointOk o.channel o.setpoint && o.term1.inRange && o.term2.inRange

/-- Generations advance by one and wrap from 65535 to 1 (R6). -/
def nextGen (g : Word) : Word := if g = 0xFFFF then 1 else g + 1

/-- The lease remaining of an order (R32). -/
def State.leaseRemaining (s : State) (k : Nat) : Nat :=
  match s.lcu.leases.find? (fun l => l.slot = k) with
  | some l => remaining s.now l.deadline
  | none => 0

/-- The setpoint fields of DEFAULT_TBRAKE and of every other order are fields 8 to 15; a field as READ returns it (R5,
R26). -/
def State.fieldOf (s : State) (k : Nat) (o : Order) (i : Nat) : Word :=
  match i with
  | 0 => Word.ofNat o.channel.code
  | 1 => Word.ofNat o.cls
  | 2 => Word.ofNat o.owner.code
  | 3 => Word.ofNat o.state.code
  | 4 => o.keeping.code
  | 5 => o.lease
  | 6 => Word.ofNat (s.leaseRemaining k)
  | 7 => Word.ofNat o.termCount
  | 16 => o.term1.quantity
  | 17 => o.term1.threshold
  | 18 => o.term1.hysteresis
  | 19 => o.term1.dwell
  | 20 => o.term2.quantity
  | 21 => o.term2.threshold
  | 22 => o.term2.hysteresis
  | 23 => o.term2.dwell
  | j => o.setpoint.nth (j - 8)

/-- A run of `n` fields from `first` on. -/
def State.fieldRun (s : State) (k : Nat) (o : Order) (first n : Nat) : List Word :=
  (List.range n).map fun i => s.fieldOf k o (first + i)

/-- A run of eight values of a list from an index on, 0 past its end. -/
def window (l : List Word) (first : Nat) : Values := .ofList ((l.drop first).take 8)

/-- The two halves of a timebase value, high half first. -/
def timeWords (t : Time) : List Word := [t.extractLsb' 16 16, t.extractLsb' 0 16]

end Sys2Proof.Machine
end

