-- ==== Sys2Proof/Machine/Flow.lean ====
section
/-! DEFINITION. The Flow Arbiter: the grant pass, requests, releases, the supply hold, and what a consumer does at once
when it is told of a grant (R61 to R70). -/

namespace Sys2Proof.Machine

/-! The items (R59). -/

def flowCapacity (items : List (List Word)) : Nat := itemNat items 12 0
def flowReserve (items : List (List Word)) : Nat := itemNat items 12 1
def flowWaitLimit (items : List (List Word)) : Nat := itemNat items 12 2
def liftMax (items : List (List Word)) : Nat := itemNat items 12 3

/-- What grants may use in all: the capacity minus the reserve. -/
def flowBudget (items : List (List Word)) : Nat := flowCapacity items - flowReserve items

/-- The available flow (R61). -/
def Flow.available (f : Flow) (budget : Nat) : Nat := budget - (f.fill.granted + f.axle.granted + f.liftGranted)

/-- An entry as it is when granted whole (R65, step 2). -/
def FlowEntry.grant (e : FlowEntry) : FlowEntry := ⟨.granted, e.asked, e.asked, none⟩

/-- The head of the wait list, a request of `asked` units, meets the available flow: whether it is granted, and the lift
grant after a cut by the shortfall (R65, steps 2 to 4). -/
def serve (asked available lift : Nat) : Bool × Nat :=
  let cut := min lift (asked - available)
  (asked ≤ available + cut, lift - cut)

/-- The fill entry's turn in a grant pass. -/
def Flow.serveFill (f : Flow) (budget : Nat) : Flow :=
  if f.fill.state = .waiting then
    let r := serve f.fill.asked (f.available budget) f.liftGranted
    { f with fill := if r.1 then f.fill.grant else f.fill, liftGranted := r.2 }
  else f

/-- The axle entry's turn in a grant pass, which comes only when no fill waits. -/
def Flow.serveAxle (f : Flow) (budget : Nat) : Flow :=
  if f.fill.state ≠ .waiting ∧ f.axle.state = .waiting then
    let r := serve f.axle.asked (f.available budget) f.liftGranted
    { f with axle := if r.1 then f.axle.grant else f.axle, liftGranted := r.2 }
  else f

/-- The lift grant at the end of a pass (R66). -/
def Flow.serveLift (f : Flow) (budget : Nat) : Flow :=
  if f.fill.state = .waiting ∨ f.axle.state = .waiting then f
  else { f with liftGranted := min f.liftAsked (budget - (f.fill.granted + f.axle.granted)) }

/-- One grant pass (R65, R66): the supply hold lets no FILL or AXLE request through. -/
def Flow.pass (f : Flow) (budget : Nat) : Flow :=
  let g := if f.hold then f else (f.serveFill budget).serveAxle budget
  g.serveLift budget

/-! What a consumer does in the pass that tells it. -/

/-- The current of a direction clutch and every other clutch is worked out at the end of the event; here a clutch only
takes a state (R74), which ends a ramp it was on. -/
def ClutchRec.enter (c : ClutchRec) (st : ClutchState) : ClutchRec := { c with state := st, ramp := none }

/-- Puts clutches into a state. -/
def Sq.enterAll (q : Sq) (cs : List Clutch) (st : ClutchState) : Sq :=
  { q with clutch := cs.foldl (fun t c => t.set c ((t.get c).enter st)) q.clutch }

/-- The largest value of a clutch item over the on-coming clutches of a step (R83). -/
def overOn (items : List (List Word)) (on : List Clutch) (f : ClutchItem → Nat) : Nat :=
  listMax (on.map fun c => f (clutchItem items c))

/-- The FILL length of a step: the largest fill_time plus fill_offset, never less than 10 ms (R83). -/
def fillLength (items : List (List Word)) (q : Sq) (on : List Clutch) : Nat :=
  max 10 (listMax (on.map fun c => ((clutchItem items c).fillTime + (q.clutch.get c).fillOffset).toNat))

/-- A step is one of those R94 may observe: a SINGLE upshift. -/
def GearStep.upshift (st : GearStep) : Bool := st.kind = .single && st.upward

/-- The SQ is told that its FILL request is granted: each on-coming clutch of the started step enters FILL, and the engine
speed of the moment is its pre-shift speed (R83, R94). -/
def State.sqFillGranted (s : State) : State :=
  match s.sq.queue with
  | st :: rest =>
    if st.phase = some .flowWait then
      let st' : GearStep :=
        { st with
          phase := some .fill, phaseStart := s.now, phaseLength := fillLength s.items s.sq st.on, preShift := s.pub.engine,
          observation := 0, observable := st.upshift && s.pub.engine.isSome && s.pub.band = .released }
      { s with sq := { s.sq.enterAll st.on .fill with queue := st' :: rest } }
    else s
  | [] => s

/-- The ACU is told that its AXLE request is granted: it enters RELEASING and the fill timer starts (R110). -/
def State.acuAxleGranted (s : State) : State :=
  if s.acu.coupling = .releaseWait then
    { s with acu := { s.acu with coupling := .releasing, fill := Timer.begun s.now } }
  else s

/-! The modes of the Hitch Regulator are needed here, since a lift grant changes them. -/

/-- TRANSPORT (slot 2) governs HITCH, as the HR last took it. -/
def Hr.transport (h : Hr) : Bool := takenSlot h.taken = 2

/-- SUPPLY_LOW is latched with action DEGRADE (R69, R124). -/
def State.supplyDegrade (s : State) : Bool := s.latched .supplyLow && s.action .supplyLow = .degrade

/-- The HITCH order as taken is in mode HOLD (code 4). -/
def Hr.holdMode (h : Hr) : Bool := takenField h.taken 0 = 4

/-- The conditions of the HOLD row of R120. -/
def State.hrHold (s : State) : Bool :=
  !s.running || !s.enable || s.hr.stallMark || s.hr.openMark || s.hr.shortMark || s.pub.position.isNone ||
    s.hr.taken.isNone || (s.hr.holdMode && !s.hr.transport)

/-- The mode of R120 where the HOLD row does not apply. -/
def Hr.workMode (h : Hr) : HitchMode :=
  if h.motion = .raise ∧ 0 < h.asked ∧ h.granted = 0 then .liftWait
  else if h.transport then .transport else .regulating

/-- The stall timer runs while the motion is RAISE with a granted amount, and the HITCH_STALL condition ends with it
(R131). -/
def Hr.followStall (h : Hr) (now : Time) (position : Option Nat) : Hr :=
  if h.motion = .raise ∧ 0 < h.granted then
    { h with stall := some (h.stall.getD ⟨⟨now, false⟩, position.getD 0⟩) }
  else { h with stall := none, stallActive := none }

/-- The HR takes the lift grant as it stands; mode and stall timer follow (R120, R125, R131). -/
def State.hrSync (s : State) : State :=
  let h := { s.hr with granted := s.flow.liftGranted }
  let h := if h.mode = .hold then h else { h with mode := h.workMode }
  { s with hr := h.followStall s.now s.pub.position }

/-- Runs a grant pass; each consumer that is told of a grant acts in the same pass (R65, R66). -/
def State.grantPass (s : State) : State :=
  let f := s.flow
  let g := f.pass (flowBudget s.items)
  let s := { s with flow := g }
  let s := if f.fill.state ≠ .granted ∧ g.fill.state = .granted then s.sqFillGranted else s
  let s := if f.axle.state ≠ .granted ∧ g.axle.state = .granted then s.acuAxleGranted else s
  if g.liftGranted = f.liftGranted then s else s.hrSync

/-! Requests, releases and withdrawals. -/

/-- An entry as a request leaves it before the grant pass (R63); under the supply hold no wait timer starts (R69). -/
def Flow.request (f : Flow) (now : Time) (units : Nat) : FlowEntry :=
  ⟨.waiting, units, 0, if f.hold then none else some now⟩

/-- A release or withdrawal of the fill entry (R67); on an IDLE entry nothing happens. -/
def State.releaseFill (s : State) : State :=
  if s.flow.fill.state = .idle then s
  else ({ s with flow := { s.flow with fill := .idle, fillSite := none } }).grantPass

/-- A release or withdrawal of the axle entry (R67). -/
def State.releaseAxle (s : State) : State :=
  if s.flow.axle.state = .idle then s
  else ({ s with flow := { s.flow with axle := .idle } }).grantPass

/-- A new FILL or AXLE request finds a grant of its entry: its units are released first, with the pass of R67 (R63). -/
def State.freeFill (s : State) : State := if s.flow.fill.state = .granted then s.releaseFill else s

def State.freeAxle (s : State) : State := if s.flow.axle.state = .granted then s.releaseAxle else s

/-- A FILL request taken on an entry without a grant (R63). -/
def State.putFill (s : State) (units : Nat) (site : Clutch) : State :=
  ({ s with flow := { s.flow with fill := s.flow.request s.now units, fillSite := some site } }).grantPass

/-- An AXLE request taken on an entry without a grant (R63). -/
def State.putAxle (s : State) (units : Nat) : State :=
  ({ s with flow := { s.flow with axle := s.flow.request s.now units } }).grantPass

/-- A FILL request (R63). -/
def State.askFill (s : State) (units : Nat) (site : Clutch) : State := s.freeFill.putFill units site

/-- An AXLE request (R63). -/
def State.askAxle (s : State) (units : Nat) : State := s.freeAxle.putAxle units

/-- A new asked lift amount (R64). -/
def State.askLift (s : State) (asked : Nat) : State :=
  if asked = s.flow.liftAsked then s
  else
    ({ s with flow := { s.flow with liftAsked := asked, liftGranted := min s.flow.liftGranted asked } }).grantPass

/-- A waiting entry without its wait timer. -/
def FlowEntry.unwait (e : FlowEntry) : FlowEntry := { e with wait := none }

/-- A waiting entry whose wait starts now. -/
def FlowEntry.rewait (e : FlowEntry) (now : Time) : FlowEntry :=
  if e.state = .waiting then { e with wait := some now } else e

/-- The supply hold follows the latch and the action of SUPPLY_LOW; its beginning discards the wait timers, its end starts
them afresh, and a grant pass follows either (R69, R65). -/
def State.followHold (s : State) : State :=
  let hold := s.supplyDegrade
  if hold = s.flow.hold then s
  else if hold then
    ({ s with flow := { s.flow with hold := true, fill := s.flow.fill.unwait, axle := s.flow.axle.unwait } }).grantPass
  else
    ({ s with
        flow := { s.flow with
          hold := false, fill := s.flow.fill.rewait s.now, axle := s.flow.axle.rewait s.now } }).grantPass

end Sys2Proof.Machine
end

