-- ==== Sys2Proof/Machine/Axle.lean ====
section
/-! DEFINITION. The Axle Coupling Unit: wish, wanted state, release, engagement, hand-over, keeping and current (chapter
6). -/

namespace Sys2Proof.Machine

def axleFillUnits (items : List (List Word)) : Nat := itemNat items 11 0
def axleFillCurrent (items : List (List Word)) : Nat := itemNat items 11 1
def axleFillTime (items : List (List Word)) : Nat := itemNat items 11 2
def axleHoldCurrent (items : List (List Word)) : Nat := itemNat items 11 3
def settleTime (items : List (List Word)) : Nat := itemNat items 11 4

/-- The AXLE order as taken is in AUTO (code 2). -/
def Acu.auto (a : Acu) : Bool := a.taken.isSome && takenField a.taken 0 = 2

/-- The order wish is released (R106 to R108). No order taken yet wishes engaged, as both internal orders do. -/
def State.acuWishReleased (s : State) : Bool :=
  match s.acu.taken with
  | none => false
  | some _ =>
    match takenField s.acu.taken 0 with
    | 1 => true
    | 2 =>
      match s.pub.ground with
      | none => false
      | some g =>
        let slow := g ≤ takenField s.acu.taken 1
        if s.pub.slip.isSome then !(slow && s.acu.latch) else !slow
    | _ => false

/-- The degraded hold (R116). -/
def State.acuDegraded (s : State) : Bool :=
  (s.latched .axleMismatch && s.action .axleMismatch = .degrade) || s.acu.openMark || s.acu.shortMark

/-- The wanted state is released (R106). -/
def State.acuWantsReleased (s : State) : Bool := s.acuWishReleased && !s.acuDegraded && s.enable

def State.acuCoupling (s : State) (c : Coupling) : State := { s with acu := { s.acu with coupling := c } }

/-- An engagement, at once, by the coupling state (R111). -/
def State.acuEngage (s : State) : State :=
  match s.acu.coupling with
  | .releaseWait => (s.acuCoupling .engaged).releaseAxle
  | .releasing =>
    ({ s with acu := { s.acu with coupling := .engaging, fill := none, settle := Timer.begun s.now } }).releaseAxle
  | .released => { s with acu := { s.acu with coupling := .engaging, settle := Timer.begun s.now } }
  | .engaged | .engaging => s

/-- A wanted release, by the coupling state: it begins in ENGAGED once it may (R109), and the deferral flag draws it back
from RELEASE_WAIT (R113). -/
def State.acuRelease (s : State) : State :=
  match s.acu.coupling with
  | .engaged =>
    if s.running && s.enable && !s.sq.flags.releaseDeferral then
      (s.acuCoupling .releaseWait).askAxle (axleFillUnits s.items)
    else s
  | .releaseWait => if s.sq.flags.releaseDeferral then (s.acuCoupling .engaged).releaseAxle else s
  | .releasing | .released | .engaging => s

/-- The coupling follows the wanted state and the deferral flag; in CONFIG the ACU stays ENGAGED (R106, R109, R111, R113,
R114). -/
def State.acuFollow (s : State) : State :=
  if !s.running then s else if s.acuWantsReleased then s.acuRelease else s.acuEngage

/-- The slip latch and its timers as a hand-over leaves them (R107). -/
def Acu.take (a : Acu) (t : Option Taken) : Acu :=
  let b := { a with taken := t, setTimer := none, clearTimer := none }
  let same := a.auto && a.taken.map (·.handle) = t.map (·.handle)
  if b.auto && same then b else { b with latch := false }

/-- The ACU takes the governing AXLE order or its amended contents (R106, R107). -/
def State.acuTake (s : State) : State :=
  ({ s with acu := s.acu.take (s.takenNow .axle) }).acuFollow

/-- The slip latch timers on a publication (R107, R108). `was` says that slip was available in the publication before: in the
one that brings it back no timer starts. -/
def Acu.publish (a : Acu) (now : Time) (was : Bool) (slip : Option Nat) : Acu :=
  if !a.auto then a
  else
    match slip with
    | none => { a with latch := false, setTimer := none, clearTimer := none }
    | some v =>
      { a with
        setTimer := a.setTimer.follow (was && !a.latch && takenField a.taken 2 ≤ v) now,
        clearTimer := a.clearTimer.follow (was && a.latch && v < takenField a.taken 3) now }

/-- The ACU takes a publication; `was` says that the one before it gave a slip. -/
def State.acuPublish (s : State) (was : Bool) : State :=
  if s.running then ({ s with acu := s.acu.publish s.now was s.pub.slip }).acuFollow else s

/-- The AXLE_MISMATCH test: the check runs and the axles disagree (R115). -/
def State.acuMismatch (s : State) : Bool :=
  match s.pub.front, s.pub.wheel with
  | some f, some w =>
    let big := max f w
    s.running && s.acu.coupling = .engaged && 20 < big && big < 10 * (big - min f w)
  | _, _ => false

/-- The current on OC9 (R105). -/
def State.acuCurrent (s : State) : Nat :=
  match s.acu.coupling with
  | .releasing => axleFillCurrent s.items
  | .released => axleHoldCurrent s.items
  | .engaged | .releaseWait | .engaging => 0

/-- The keeping of the governing AXLE order (R117). -/
def State.acuKeeping (s : State) : Keeping :=
  let wish := s.acuWishReleased
  let c := s.acu.coupling
  if !s.enable && wish then .waiting .faultDegraded
  else if s.acuDegraded && wish then .limited .faultDegraded
  else if wish && s.sq.flags.releaseDeferral && (c = .engaged || c = .engaging) then .waiting .shiftWait
  else if wish && c ≠ .released then .waiting .flowWait
  else if s.acu.auto && (s.pub.slip.isNone || s.pub.ground.isNone) then .limited .sensorDegraded
  else .kept

/-- ENABLE falls in RUN (R114): every state follows the spring. -/
def State.acuEnableFall (s : State) : State := if s.running then s.acuEngage else s

/-- STOP (R114): ENGAGED with every timer discarded and the latch clear. The Flow Arbiter ends its entry itself (R70). -/
def Acu.stop (a : Acu) : Acu :=
  { a with
    coupling := .engaged, fill := none, settle := none, latch := false, setTimer := none, clearTimer := none,
    mismatch := none }

end Sys2Proof.Machine
end

