-- ==== Sys2Proof/Machine/Hitch.lean ====
section
/-! DEFINITION. The Hitch Regulator: modes, control error, motion, lift requests, slip trim, draft freeze, transport hold,
keeping and currents (chapter 7). -/

namespace Sys2Proof.Machine

def draftGain (items : List (List Word)) : Int := (itemNat items 21 0 : Int)
def raiseBase (items : List (List Word)) : Nat := itemNat items 21 1
def raiseUnit (items : List (List Word)) : Nat := itemNat items 21 2
def lowerBase (items : List (List Word)) : Nat := itemNat items 21 3
def lowerGain (items : List (List Word)) : Nat := itemNat items 21 4
def lowerMax (items : List (List Word)) : Nat := itemNat items 21 5

/-! The fields of the HITCH order as taken (R8). -/

def Hr.field (h : Hr) (i : Nat) : Int := (takenField h.taken i : Int)
def Hr.positionSet (h : Hr) : Int := h.field 1
def Hr.draftSet (h : Hr) : Int := h.field 2
def Hr.mix (h : Hr) : Int := h.field 3
def Hr.dropRate (h : Hr) : Nat := takenField h.taken 4
def Hr.upperLimit (h : Hr) : Int := h.field 5
def Hr.slipLimit (h : Hr) : Nat := takenField h.taken 6

/-- The HITCH order as taken is in DRAFT (1) or MIXED (2). -/
def Hr.draftMode (h : Hr) : Bool := takenField h.taken 0 = 1 || takenField h.taken 0 = 2

/-- The fallback of R128 and R130: DRAFT and MIXED are worked out as POSITION. Under a freeze begun without a draft it holds for MIXED
with mix 0 too (log 60). -/
def State.draftFallback (s : State) : Bool :=
  if s.sq.flags.draftFreeze then s.hr.frozenLost else s.pub.draft.isNone

/-- The draft R122 uses: the frozen value while the freeze holds, else the published one. -/
def State.draftUsed (s : State) : Int :=
  if s.sq.flags.draftFreeze then s.hr.frozen.getD 0 else s.pub.draft.getD 0

/-- The mode that R122 works out: the order's, with DRAFT and MIXED as POSITION (0) under the fallback. -/
def State.hrErrorMode (s : State) : Nat :=
  if s.hr.draftMode && s.draftFallback then 0 else takenField s.hr.taken 0

/-- The effective setpoint (R122). -/
def Hr.effective (h : Hr) : Int := min (h.positionSet + h.trim) h.upperLimit

/-- A control error clamped to its range (R122). -/
def clampError (e : Int) : Int := max (-1000) (min 1000 e)

/-- The control error of R122 at a hitch position. -/
def State.hrRawError (s : State) (position : Nat) : Int :=
  let h := s.hr
  let ePos := h.effective - position
  let eDraft := (draftGain s.items * (s.draftUsed - h.draftSet)).tdiv 10 + h.trim
  clampError <|
    match s.hrErrorMode with
    | 1 => eDraft
    | 2 => (h.mix * eDraft + (100 - h.mix) * ePos).tdiv 100
    | 3 => h.upperLimit - position
    | _ => ePos

/-- The upper limit clamp of R123 on an error: the error used and whether the clamp applies. It has no part in RAISE. -/
def Hr.clampUpper (h : Hr) (mode position : Nat) (e : Int) : Int × Bool :=
  if mode = 3 then (e, false)
  else
    let up := h.upperLimit
    let e' := if up + 5 < position then up - position else if up - 5 ≤ position ∧ 0 < e then 0 else e
    (e', ((mode = 0 || mode = 2) && h.effective < h.positionSet + h.trim) || e' ≠ e)

/-- The lift amount asked for an error (R125). -/
def liftFor (items : List (List Word)) (e : Int) : Nat := max 1 (min (liftMax items) ((e.natAbs + 24) / 25))

/-- The ceiling and the recorded positions as a motion begins or ends (R126). -/
def Hr.move (h : Hr) (items : List (List Word)) (now : Time) (position : Nat) (m : Motion) : Hr :=
  if m = .lower then
    if h.motion = .lower then h else { h with motion := m, ceiling := lowerBase items, positions := [(now, position)] }
  else { h with motion := m, ceiling := 0, positions := [] }

/-- The motion is set with its asked lift amount, which goes to the Flow Arbiter in the same event (R120, R125). -/
def State.hrMove (s : State) (m : Motion) : State :=
  let asked := if m = .raise then liftFor s.items s.hr.error else 0
  let h := s.hr.move s.items s.now (s.pub.position.getD 0) m
  (({ s with hr := { h with asked := asked } }).askLift asked).hrSync

/-- R122 to R124 in REGULATING and in a LIFT_WAIT not reached from TRANSPORT. Whether the clamp applies is settled here, at a
publication or a hand-over, and not at a step of the trim between two of them (log 55). -/
def State.hrRegulate (s : State) : State :=
  let position := s.pub.position.getD 0
  let r := s.hr.clampUpper s.hrErrorMode position (s.hrRawError position)
  let wants := 5 < r.1
  let blocked := wants && s.supplyDegrade
  let m : Motion := if wants && !blocked then .raise else if r.1 < -5 then .lower else .idle
  ({ s with hr := { s.hr with error := r.1, clamp := r.2, blocked := blocked } }).hrMove m

/-- The deviation of R129. -/
def Hr.deviationAt (h : Hr) (position : Nat) : Int := (position : Int) - (h.transportPos.getD position : Nat)

/-- A correction starts (R129): a raise for a negative deviation, unless SUPPLY_LOW holds it back (log 20), a lowering for
a positive one. -/
def State.hrCorrect (s : State) : State :=
  let d := s.hr.deviationAt (s.pub.position.getD 0)
  if d < 0 ∧ s.supplyDegrade then { s with hr := { s.hr with blocked := true } }
  else
    let h := { s.hr with deviation := none, error := -d, blocked := false }
    ({ s with hr := h }).hrMove (if d < 0 then .raise else .lower)

/-- R129 on a publication. In IDLE no raise counts as wanted until the deviation timer has run out, also where SUPPLY_LOW has
just ended a raise (log 20). -/
def State.hrTransport (s : State) : State :=
  let d := s.hr.deviationAt (s.pub.position.getD 0)
  if s.hr.motion = .idle then
    let t := s.hr.deviation.follow (15 < d.natAbs) s.now
    let s := { s with hr := { s.hr with deviation := t, blocked := false } }
    if t.isOut then s.hrCorrect else s
  else if d.natAbs ≤ 5 then ({ s with hr := { s.hr with blocked := false } }).hrMove .idle
  else ({ s with hr := { s.hr with error := -d } }).hrMove s.hr.motion

/-- The HR enters HOLD (R120, R121): the hold position is the position of the moment. A running deviation timer is discarded
(log 41). -/
def State.hrEnterHold (s : State) : State :=
  ({ s with
      hr := { s.hr with
        mode := .hold, holdPos := s.pub.position, error := 0, clamp := false, blocked := false,
        deviation := none } }).hrMove .idle

/-- The HR takes up the governing order outside HOLD, at once (R121, R122, R129). -/
def State.hrWork (s : State) : State :=
  if s.hr.transport then
    let tp : Option Nat := match s.hr.transportPos with | some p => some p | none => s.pub.position
    ({ s with hr := { s.hr with mode := .transport, transportPos := tp, clamp := false, blocked := false } }).hrMove .idle
  else ({ s with hr := { s.hr with mode := .regulating } }).hrRegulate

/-- The mode is held against the HOLD row of R120, and a raise ends under SUPPLY_LOW (R120, R130, R132): it counts as
wanted and not made until the next publication (log 20, log 43). -/
def State.hrRefresh (s : State) : State :=
  if s.hrHold then
    if s.hr.mode = .hold then s else s.hrEnterHold
  else if s.hr.mode = .hold then ({ s with hr := { s.hr with holdPos := none } }).hrWork
  else if s.hr.motion = .raise ∧ s.supplyDegrade then ({ s with hr := { s.hr with blocked := true } }).hrMove .idle
  else s

/-! Slip trim (R127). -/

/-- The published slip is over the limit of the order as taken. -/
def State.slipOver (s : State) : Bool :=
  s.hr.slipLimit ≠ 0 && (match s.pub.slip with | some v => s.hr.slipLimit < v | none => false)

/-- The step timer as the slip stops being over the limit: it starts afresh while there is trim to take back. -/
def Hr.fall (h : Hr) (now : Time) : Hr :=
  { h with exceeds := false, excess := none, step := if 0 < h.trim then Timer.begun now else none }

/-- The trim's timers on a publication. -/
def Hr.trimPublish (h : Hr) (now : Time) (exceeds : Bool) : Hr :=
  if exceeds then
    { h with exceeds := true, excess := h.excess.follow true now, step := if h.exceeds then h.step else none }
  else if h.exceeds then h.fall now else h

/-- The trim's timers on a hand-over (R127): the excess timer is discarded and a running fall carries on; a running rise stops
at once (log 42). -/
def Hr.trimTake (h : Hr) (now : Time) (exceeds : Bool) : Hr :=
  if h.exceeds then (if exceeds then { h with excess := none, step := none } else h.fall now)
  else { h with excess := none }

/-- One rise of the trim by 10 ‰ (R127). -/
def Hr.trimRise (h : Hr) (now : Time) : Hr :=
  let t := min 200 (h.trim + 10)
  { h with trim := t, step := if t = 200 then none else Timer.begun now }

/-- One fall of the trim by 10 ‰ (R127). -/
def Hr.trimFall (h : Hr) (now : Time) : Hr :=
  let t := h.trim - 10
  { h with trim := t, step := if t = 0 then none else Timer.begun now }

/-! Draft freeze (R128). -/

/-- The draft freeze flag is set: the published draft of the moment is frozen. -/
def State.hrFreeze (s : State) : State :=
  { s with hr := { s.hr with frozen := s.pub.draft, frozenLost := s.pub.draft.isNone } }

/-- The flag clears: the frozen value is discarded. -/
def State.hrUnfreeze (s : State) : State := { s with hr := { s.hr with frozen := none, frozenLost := false } }

/-! Lowering (R126). -/

/-- The rate ceiling and the recorded positions after a publication in LOWER. The newest record 100 ms old or more gives
the descent; before there is one, the oldest record does. -/
def Hr.lowerPublish (h : Hr) (items : List (List Word)) (now : Time) (position : Nat) : Hr :=
  let back := (h.positions.find? fun r => 100 ≤ elapsed now r.1) <|> h.positions.getLast?
  let fast :=
    match back with
    | some (t, p) => elapsed now t ≠ 0 && h.dropRate * elapsed now t < (p - position) * 1000
    | none => false
  let ceiling := if fast then h.ceiling - 5 else min (lowerMax items) (h.ceiling + 1)
  { h with ceiling := ceiling, positions := (now, position) :: h.positions.filter fun r => elapsed now r.1 < 100 }

/-- The stall timer and the HITCH_STALL condition on a publication (R131). -/
def Hr.stallPublish (h : Hr) (now : Time) (position : Nat) : Hr :=
  let stall :=
    match h.stall with
    | some r => if !r.run.out ∧ r.position + 5 ≤ position then some ⟨⟨now, false⟩, position⟩ else some r
    | none => none
  let active :=
    match h.stallActive with
    | some p => if p + 5 ≤ position then none else some p
    | none => none
  { h with stall := stall, stallActive := active }

/-- The HR takes a publication; `lowering` says that the motion was LOWER as it came. A draft that is lost during a freeze is lost
until the flag clears, also where it returns before (R128, R130, log 62). -/
def State.hrPublish (s : State) (lowering : Bool) : State :=
  if !s.running then s
  else
    let lost := s.hr.frozenLost || (s.sq.flags.draftFreeze && s.pub.draft.isNone)
    let s := { s with hr := { s.hr.trimPublish s.now s.slipOver with frozenLost := lost } }
    let held := s.hr.mode = .hold
    let s := s.hrRefresh
    if s.hr.mode = .hold then s
    else
      let s := if s.hr.transport then s.hrTransport else if held then s else s.hrRegulate
      let position := s.pub.position.getD 0
      let h := s.hr.stallPublish s.now position
      { s with hr := if lowering && h.motion = .lower then h.lowerPublish s.items s.now position else h }

/-- The HR takes the governing HITCH order or its amended contents (R121, R127, R129). -/
def State.hrTake (s : State) : State :=
  let old := s.hr
  let h := { old with taken := s.takenNow .hitch }
  let other := old.taken.map (·.handle) ≠ h.taken.map (·.handle)
  let h :=
    if h.transport then
      if old.transport then h else { h with transportPos := s.pub.position, deviation := none }
    else { h with transportPos := none, deviation := none }
  let s := { s with hr := h }
  let s := { s with hr := s.hr.trimTake s.now s.slipOver }
  if s.hrHold then
    if s.hr.mode ≠ .hold then s.hrEnterHold
    else if other && s.hr.holdMode then { s with hr := { s.hr with holdPos := s.pub.position } }
    else s
  else ({ s with hr := { s.hr with holdPos := none } }).hrWork

/-- The lower valve current (R126). -/
def State.lowerCurrent (s : State) : Nat :=
  min (min (lowerMax s.items) (lowerBase s.items + lowerGain s.items * s.hr.error.natAbs)) s.hr.ceiling

/-- The raise valve current (R125). -/
def State.raiseCurrent (s : State) : Nat :=
  if s.hr.granted = 0 then 0 else min 2000 (raiseBase s.items + s.hr.granted * raiseUnit s.items)

/-- The current on OC10 (R120). -/
def State.hrRaise (s : State) : Nat := if s.hr.motion = .raise then s.raiseCurrent else 0

/-- The current on OC11 (R120). -/
def State.hrLower (s : State) : Nat := if s.hr.motion = .lower then s.lowerCurrent else 0

/-- The keeping of the governing HITCH order (R134). A raise that SUPPLY_LOW held back counts as held back until the publication
that works it out again (log 43). -/
def State.hrKeeping (s : State) : Keeping :=
  let h := s.hr
  let dagger := !(h.holdMode && !h.transport)
  if dagger && !s.enable then .waiting .faultDegraded
  else if dagger && h.stallMark then .limited .stalled
  else if dagger && (h.openMark || h.shortMark) then .limited .faultDegraded
  else if dagger && s.pub.position.isNone then .waiting .sensorDegraded
  else if h.blocked then .waiting .faultDegraded
  else if h.mode = .liftWait then .waiting .flowWait
  else if h.motion = .raise ∧ 0 < h.granted ∧ h.granted < h.asked then .limited .flowWait
  else if h.clamp then .limited .upperLimit
  else if h.draftMode && s.pub.draft.isNone then .limited .sensorDegraded
  else if s.sq.flags.draftFreeze && h.draftMode && (takenField h.taken 0 = 1 || 0 < h.mix) then .limited .draftFrozen
  else if 0 < h.trim && (takenField h.taken 0 = 0 || h.draftMode) then .limited .slipTrim
  else .kept

/-- STOP (R133); the marks follow the fault table. -/
def Hr.stop (h : Hr) : Hr :=
  { Hr.reset with stallMark := h.stallMark, openMark := h.openMark, shortMark := h.shortMark, taken := h.taken }

end Sys2Proof.Machine
end

