-- ==== Sys2Proof/Machine/Trailer.lean ====
section
/-! DEFINITION. The Trailer Brake Unit: state, law, demand, current, tracking and keeping (chapter 8). All but the presence,
the timers and the marks is worked out from the state as it stands, so every event that moves it moves it at once. -/

namespace Sys2Proof.Machine

def trailerRatio (items : List (List Word)) : Nat := itemNat items 22 0
def releaseCurrent (items : List (List Word)) : Nat := itemNat items 22 1
def fullPressure (items : List (List Word)) : Nat := itemNat items 22 2

/-- The larger of the two brake pressures, of those available; 0 where neither is (R140). -/
def Pub.brakeMax (p : Pub) : Nat := max (p.brakeL.getD 0) (p.brakeR.getD 0)

/-- The law of the TBRAKE order as taken (R140): gain in %, trailer_ratio in 0.01. In CONFIG it is the law of the order last
taken (log 44). -/
def State.tbuLaw (s : State) : Nat :=
  min (takenField s.tbu.taken 3) (takenField s.tbu.taken 0 * trailerRatio s.items * s.pub.brakeMax / 10000)

/-- The trailer state (R139), and in CONFIG (R146). BREAKAWAY is slot 3. -/
def State.tbuState (s : State) : TrailerState :=
  if s.governing .tbrake = some 3 then .emergency
  else if !s.tbu.presence then .detached
  else if !s.running then .released
  else if s.sq.flags.assistWindow && takenField s.tbu.taken 1 = 1 then .assist
  else if 0 < s.tbuLaw then .braking else .released

/-- The demand (R139, R146). -/
def State.tbuDemand (s : State) : Nat :=
  if !s.running then 0
  else
    match s.tbuState with
    | .emergency => max (fullPressure s.items) s.tbuLaw
    | .detached => 0
    | .assist => max s.tbuLaw (takenField s.tbu.taken 2)
    | .braking => s.tbuLaw
    | .released => 0

/-- The current of a demand: a straight line from release_current at 0 to 0 at full_pressure (R136). -/
def trailerCurrent (items : List (List Word)) (demand : Nat) : Nat :=
  releaseCurrent items * (fullPressure items - demand) / fullPressure items

/-- The current on OC12 (R136, R146). -/
def State.tbuCurrent (s : State) : Nat :=
  if !s.running then 0
  else
    match s.tbuState with
    | .emergency => 0
    | .detached => releaseCurrent s.items
    | .assist | .braking | .released => trailerCurrent s.items s.tbuDemand

/-- The TBU takes the governing TBRAKE order or its amended contents (R142). -/
def State.tbuTake (s : State) : State := { s with tbu := { s.tbu with taken := s.takenNow .tbrake } }

/-- The tracking test: the check runs and the line misses its demand (R144). -/
def State.tbuMisses (s : State) : Bool :=
  match s.pub.line with
  | some p =>
    s.running && s.enable && (s.tbuState = .braking || s.tbuState = .assist) && !s.tbu.openMark && !s.tbu.shortMark &&
      500 < max p s.tbuDemand - min p s.tbuDemand
  | none => false

/-- The keeping of the governing TBRAKE order (R147). -/
def State.tbuKeeping (s : State) : Keeping :=
  if s.tbuState = .emergency then .kept
  else if s.tbuState = .detached then .waiting .detached
  else if !s.enable then .limited .faultDegraded
  else if s.tbu.openMark || s.tbu.shortMark then .limited .faultDegraded
  else if s.pub.brakeL.isNone && s.pub.brakeR.isNone then .limited .faultDegraded
  else .kept

end Sys2Proof.Machine
end

