-- ==== Sys2Proof/Machine/Gearbox.lean ====
section
/-! DEFINITION. Readings of the gearbox: clutches of a gear, gear record, sequencer state, slip and currents (R72, R74 to
R76, R85, R88, R91). -/

namespace Sys2Proof.Machine

def Dir.clutch : Dir → Clutch
  | .forward => .cf
  | .reverse => .cr

def Range.clutch : Range → Clutch
  | .a => .ca
  | .b => .cb
  | .c => .cc

def StepNo.clutch : StepNo → Clutch
  | .s1 => .c1
  | .s2 => .c2
  | .s3 => .c3
  | .s4 => .c4

def Range.num : Range → Nat
  | .a => 0
  | .b => 1
  | .c => 2

def StepNo.num : StepNo → Nat
  | .s1 => 0
  | .s2 => 1
  | .s3 => 2
  | .s4 => 3

/-- The range of gear `n` (R72). -/
def gearRange (n : Nat) : Range := if n ≤ 4 then .a else if n ≤ 8 then .b else .c

/-- The step clutch number of gear `n`: (n − 1) mod 4 + 1 (R72). -/
def gearStepNo (n : Nat) : StepNo :=
  match (n - 1) % 4 with
  | 0 => .s1
  | 1 => .s2
  | 2 => .s3
  | _ => .s4

/-- The gear number of a range and a step (R72). -/
def gearOf (r : Range) (t : StepNo) : Nat := 4 * r.num + t.num + 1

/-- The gear number of a configuration with both range and step. -/
def Conf.gear (c : Conf) : Option Nat :=
  match c.range, c.step with
  | some r, some t => some (gearOf r t)
  | _, _ => none

def Sq.state (q : Sq) (c : Clutch) : ClutchState := (q.clutch.get c).state

def Sq.locked (q : Sq) (c : Clutch) : Bool := q.state c = .locked

/-- The engaged direction (R75). -/
def Sq.engaged (q : Sq) : Option Dir :=
  if q.locked .cf then some .forward else if q.locked .cr then some .reverse else none

/-- The locked range (R75). -/
def Sq.range (q : Sq) : Option Range :=
  if q.locked .ca then some .a else if q.locked .cb then some .b else if q.locked .cc then some .c else none

/-- The locked step (R75). -/
def Sq.step (q : Sq) : Option StepNo :=
  if q.locked .c1 then some .s1
  else if q.locked .c2 then some .s2
  else if q.locked .c3 then some .s3
  else if q.locked .c4 then some .s4 else none

/-- A direction clutch that is LOCKED or in SYNC: the base direction of R78 and the take-up direction of R104. -/
def Sq.takeUp (q : Sq) : Option Dir :=
  if q.state .cf = .locked ∨ q.state .cf = .sync then some .forward
  else if q.state .cr = .locked ∨ q.state .cr = .sync then some .reverse else none

/-- The direction clutch in SYNC, if any. -/
def Sq.syncDir (q : Sq) : Option Dir :=
  if q.state .cf = .sync then some .forward else if q.state .cr = .sync then some .reverse else none

/-- Both direction clutches are OPEN. -/
def Sq.dirsOpen (q : Sq) : Bool := q.state .cf = .opened && q.state .cr = .opened

/-- What the gear record holds of the clutches (R75). -/
def Sq.record (q : Sq) : Option Dir × Option Range × Option StepNo := (q.engaged, q.range, q.step)

/-- The gear number of the record (R75), the value of GEAR_NUMBER terms (R33). With a direction engaged and no locked range or
step it is 0 (log 37). -/
def Sq.gearNumber (q : Sq) : Nat :=
  match q.engaged, q.range, q.step with
  | some _, some r, some t => gearOf r t
  | _, _, _ => 0

/-- The box as it stands (R78). -/
def Sq.box (q : Sq) : Conf := ⟨q.takeUp, q.range, q.step⟩

/-- The started step, which is at the head of the queue (R79). -/
def Sq.started (q : Sq) : Option GearStep :=
  match q.queue with
  | st :: _ => if st.phase.isSome then some st else none
  | [] => none

/-- The sequencer states (R76). -/
inductive SeqState where
  | stopped | neutral | preselect | engage | drive | powershift | shuttle | inch | disengage | halt
deriving DecidableEq, Repr

/-- The sequencer state in RUN with ENABLE high (R76). -/
def Sq.seq (q : Sq) : SeqState :=
  match q.started.map GearStep.kind with
  | some .single | some .range => .powershift
  | some .shuttle => .shuttle
  | some .engage => .engage
  | some .neutralize => .disengage
  | some .free => if q.dirsOpen then .preselect else .inch
  | none =>
    if q.syncDir.isSome then .inch else if q.engaged.isSome then .drive else .neutral

/-- The sequencer state (R76). -/
def State.seqState (s : State) : SeqState :=
  if !s.running then .stopped else if !s.enable then .halt else s.sq.seq

/-! Speeds and slips, in hundredths of a rpm: the wheel speed in 0.1 km/h times a ratio in 0.1 rpm per km/h. They are kept exactly
(log 58). -/

/-- The expected engine speed of a gear (R72). -/
def State.expected (s : State) (d : Dir) (gear wheel : Nat) : Nat := wheel * gearRatio s.items d gear

/-- The slip of a gear (R72), exact in hundredths of a rpm (log 58): none while a speed is unavailable. -/
def State.slipOf (s : State) (d : Dir) (gear : Nat) : Option Nat :=
  match s.pub.engine, s.pub.wheel with
  | some e, some w =>
    let x := s.expected d gear w
    some (max (e * 100) x - min (e * 100) x)
  | _, _ => none

/-- The slip of a shuttle in deceleration (R88): engine speed plus expected engine speed. -/
def State.decelSlip (s : State) (d : Dir) (gear : Nat) : Option Nat :=
  match s.pub.engine, s.pub.wheel with
  | some e, some w => some (e * 100 + s.expected d gear w)
  | _, _ => none

/-- The slip of a started step in SYNC (R85, R88). -/
def State.stepSlip (s : State) (st : GearStep) : Option Nat :=
  match st.result.dir, st.result.gear with
  | some d, some g => if st.decel then s.decelSlip d g else s.slipOf d g
  | _, _ => none

/-- The slip of a direction clutch in SYNC outside a step (R91). -/
def State.looseSlip (s : State) (d : Dir) : Option Nat :=
  match s.sq.range, s.sq.step with
  | some r, some t => s.slipOf d (gearOf r t)
  | _, _ => none

/-! Currents (R74, R88, R91). -/

/-- The started step holds a clutch in its SYNC phase. -/
def Sq.stepSync (q : Sq) (c : Clutch) : Option GearStep :=
  match q.started with
  | some st => if st.phase = some .sync ∧ c ∈ st.on then some st else none
  | none => none

/-- A FREE step is started. -/
def Sq.freeStarted (q : Sq) : Bool := q.started.map GearStep.kind = some .free

/-- The shuttle current (R88): sync_current times (0.6 + 0.2 × shuttle_response), limited to lock_current. -/
def shuttleCurrent (it : ClutchItem) (response : Nat) : Nat :=
  min it.lockCurrent (freeRound (it.syncCurrent * (3 + response)) 5)

/-- The pedal current of a direction clutch (R91), for a band other than RELEASED. -/
def State.pedalCurrent (s : State) (it : ClutchItem) : Nat :=
  match s.pub.band with
  | .pressed => 0
  | .modulating => freeRound (it.lockCurrent * (900 - s.pub.pedal.getD 0)) 850
  | .released => it.lockCurrent

/-- The current of a clutch in SYNC without a lock ramp (R85, R88, R91). A direction clutch in SYNC beside a started step that is not
in its own SYNC, a FREE step apart, takes the current it has outside a step (log 59). -/
def State.syncCurrent (s : State) (c : Clutch) : Nat :=
  let it := clutchItem s.items c
  let dir := c = .cf ∨ c = .cr
  let pedal := s.pub.band ≠ .released
  match s.sq.stepSync c with
  | some st =>
    let base := if st.decel then shuttleCurrent it st.response else it.syncCurrent
    if dir ∧ pedal then min base (s.pedalCurrent it) else base
  | none =>
    if s.sq.freeStarted then 0 else if pedal then s.pedalCurrent it else it.syncCurrent

/-- The current the SQ commands on a clutch (R74). -/
def State.clutchCurrent (s : State) (c : Clutch) : Nat :=
  let r := s.sq.clutch.get c
  let it := clutchItem s.items c
  match r.state with
  | .opened => 0
  | .fill => it.fillCurrent
  | .hold => it.holdCurrent
  | .locked => it.lockCurrent
  | .rampOn | .rampOff => match r.ramp with | some p => p.at s.now | none => 0
  | .sync => match r.ramp with | some p => p.at s.now | none => s.syncCurrent c

end Sys2Proof.Machine
end

