-- ==== Sys2Proof/Machine/Fault.lean ====
section
/-! DEFINITION. The Fault Unit: detections, unlatches, the conditions of SAFE_NEUTRAL and BREAKAWAY, the first-fault
record, and what the units do with a latch (chapter 10). -/

namespace Sys2Proof.Machine

/-! Sites (chapter 13.2). -/

def faSite : Word := 9
def hitchRaiseSite : Word := 10
def trailerSite : Word := 12
def enableSite : Word := 0

/-- A gear as a site: direction in the high byte, number in the low byte. -/
def gearSite (d : Dir) (gear : Nat) : Word :=
  Word.ofNat ((match d with | .forward => 0 | .reverse => 256) + gear)

/-- The channel a detection affects (R163). -/
def affected (k : FaultKind) (site : Word) : Channel :=
  match k with
  | .outOpen | .outShort =>
    if site.toNat ≤ 8 then .gear else if site.toNat = 9 then .axle else if site.toNat ≤ 11 then .hitch else .tbrake
  | .sensorRange =>
    if site.toNat ≤ 2 then .hitch else if site.toNat = 5 ∨ site.toNat = 7 then .gear else .tbrake
  | .speedLost => if site.toNat ≤ 1 then .gear else .axle
  | .flowStarved => if site = faSite then .axle else .gear
  | .speedMismatch | .axleMismatch => .axle
  | .hitchStall => .hitch
  | .tbrakeTracking | .breakaway => .tbrake
  | .syncTimeout | .clutchHot | .gearSlip | .supplyLow | .enableLost => .gear

/-- The clutch mark of a kind; false for kinds that have none (R161). -/
def Fu.clutchMark (f : Fu) : FaultKind → Bool
  | .outOpen => f.clutchOpen
  | .outShort => f.clutchShort
  | _ => false

/-- A kind counts toward SAFE (R162). -/
def State.countsSafe (s : State) (k : FaultKind) : Bool :=
  s.latched k && (s.action k = .safe || s.fu.clutchMark k)

/-- The SAFE_NEUTRAL condition worked out afresh (R42, R162). -/
def State.safeCondition (s : State) : Bool := !s.enable || FaultKind.all.any s.countsSafe

/-- Both conditions are worked out afresh; each change is reported to the OTU as a claim (R162). -/
def State.fuConditions (s : State) : State :=
  let safe := s.safeCondition
  let brk := s.latched .breakaway
  let r1 := if safe = s.fu.safeNeutral then [] else [(FaultOrder.safeNeutral, safe)]
  let r2 := if brk = s.fu.breakaway then [] else [(FaultOrder.breakaway, brk)]
  { s with fu := { s.fu with safeNeutral := safe, breakaway := brk, reports := s.fu.reports ++ r1 ++ r2 } }

/-- The FAULT cause at each port whose report mask mark for the kind is clear, and TRAILER at both for BREAKAWAY (R164). -/
def State.reportFault (s : State) (k : FaultKind) : State :=
  let told (s : State) (p : Port) : State := if (s.fu.mask.get p).getLsbD k.code then s else s.setCause p .fault
  let s := told (told s .cab) .implement
  if k = .breakaway then s.setCauseBoth .trailer else s

/-- The marks the units set as a detection is handed to them (R49, R116, R131, R132, R145, R161), by the action of the kind at the
detection, SPEED_LOST's too (log 54). -/
def State.markUnits (s : State) (k : FaultKind) (site : Word) : State :=
  let n := site.toNat
  let acts := s.action k ≠ .advisory
  match k with
  | .speedLost =>
    match SpeedCh.all[n]? with
    | some ch =>
      if acts then { s with mu := { s.mu with speed := s.mu.speed.set ch { s.mu.speed.get ch with lost := true } } } else s
    | none => s
  | .outOpen =>
    if n ≤ 8 then (if acts then { s with fu := { s.fu with clutchOpen := true } } else s)
    else if n = 9 then (if acts then { s with acu := { s.acu with openMark := true } } else s)
    else if n ≤ 11 then (if acts then { s with hr := { s.hr with openMark := true } } else s)
    else { s with tbu := { s.tbu with openMark := true } }
  | .outShort =>
    if n ≤ 8 then (if acts then { s with fu := { s.fu with clutchShort := true } } else s)
    else if n = 9 then { s with acu := { s.acu with shortMark := true } }
    else if n ≤ 11 then { s with hr := { s.hr with shortMark := true } }
    else { s with tbu := { s.tbu with shortMark := true } }
  | .hitchStall => if s.action k = .degrade then { s with hr := { s.hr with stallMark := true } } else s
  | .sensorRange | .speedMismatch | .flowStarved | .syncTimeout | .clutchHot | .gearSlip | .axleMismatch
  | .tbrakeTracking | .supplyLow | .breakaway | .enableLost => s

/-- The units follow a change of the fault table: supply hold, coupling, regulator mode (R69, R116, R131, R132). -/
def State.unitsFollow (s : State) : State :=
  let s := s.followHold.acuFollow
  if s.running then s.hrRefresh else s

/-- The first-fault record as a detection leaves it (R163). -/
def State.recordFirst (s : State) (k : FaultKind) (site : Word) : Option FirstFault :=
  match s.fu.record with
  | some r => some r
  | none => some ⟨k, site, s.now, s.governingHandle (affected k site)⟩

/-- A detection reaches the FU: latch and site, first-fault record, reports, units, conditions (R159). -/
def State.detect (s : State) (k : FaultKind) (site : Word) : State :=
  let s := { s with fu := { s.fu with record := s.recordFirst k site, entry := s.fu.entry.set k ⟨true, some site⟩ } }
  ((s.reportFault k).markUnits k site).unitsFollow.fuConditions

/-- What the units undo as a kind is unlatched (R49, R51, R116, R131, R132, R145, R155, R161). -/
def State.unmarkUnits (s : State) (k : FaultKind) : State :=
  match k with
  | .speedLost =>
    { s with mu := { s.mu with speed := .tabulate fun ch => 
        let r := s.mu.speed.get ch
        { r with lost := false, resuming := r.resuming || r.lost } } }
  | .sensorRange =>
    { s with
      mu := { s.mu with
        conv := .tabulate fun ch =>
          let r := s.mu.conv.get ch
          if r.window = .outOfRange then { r with window := .inWindow, resuming := true } else r } }
  | .outOpen =>
    { s with
      fu := { s.fu with clutchOpen := false }, acu := { s.acu with openMark := false },
      hr := { s.hr with openMark := false }, tbu := { s.tbu with openMark := false } }
  | .outShort =>
    { s with
      fu := { s.fu with clutchShort := false }, acu := { s.acu with shortMark := false },
      hr := { s.hr with shortMark := false }, tbu := { s.tbu with shortMark := false },
      os := .tabulate fun ch => { s.os.get ch with tripped := false } }
  | .hitchStall => { s with hr := { s.hr with stallMark := false } }
  | .speedMismatch | .flowStarved | .syncTimeout | .clutchHot | .gearSlip | .axleMismatch | .tbrakeTracking | .supplyLow
  | .breakaway | .enableLost => s

/-- The record after an unlatch: it empties if it holds this kind (R163, R166). -/
def recordAfter (r : Option FirstFault) (k : FaultKind) : Option FirstFault :=
  match r with
  | some f => if f.kind = k then none else some f
  | none => none

/-- A kind is unlatched (R166). -/
def State.unlatch (s : State) (k : FaultKind) : State :=
  let e := s.fu.entry.get k
  let s :=
    { s with
      fu := { s.fu with record := recordAfter s.fu.record k, entry := s.fu.entry.set k { e with latched := false } } }
  (s.unmarkUnits k).unitsFollow.fuConditions

end Sys2Proof.Machine
end

