-- ==== Sys2Proof/Machine/Shift.lean ====
section
/-! DEFINITION. The Shift Sequencer: wish, plan, queue, steps and their phases, pedal, automatic shifting, adaptation, heat,
hand-over, keeping (chapter 5). -/

namespace Sys2Proof.Machine

/-! Wish and plan (R77, R78). -/

/-- The GEAR order as taken is in AUTO (code 2). -/
def Sq.auto (q : Sq) : Bool := q.taken.isSome && takenField q.taken 0 = 2

/-- SAFE_NEUTRAL (slot 0) governs, as the SQ last took it. -/
def Sq.safeNeutral (q : Sq) : Bool := takenSlot q.taken = 0

/-- The wish: a direction or none, and a gear (R77). -/
def Sq.wish (q : Sq) : Option Dir × Nat :=
  let d : Dir := if takenField q.taken 1 = 1 then .reverse else .forward
  match takenField q.taken 0 with
  | 1 => (some d, takenField q.taken 2)
  | 2 => (some d, q.autoTarget)
  | _ => (none, takenField q.taken 2)

/-- A gear moved into the band of the order as taken (R77). -/
def Sq.intoBand (q : Sq) (gear : Nat) : Nat := min (max gear (takenField q.taken 3)) (takenField q.taken 4)

/-- A step record that has not started (R79). -/
def GearStep.fresh (kind : StepKind) (on off : List Clutch) (result : Conf) : GearStep where
  kind := kind
  on := on
  off := off
  result := result
  downward := false
  upward := false
  zeroRamp := false
  phase := none
  phaseStart := 0
  phaseLength := 0
  response := 0
  decel := false
  syncStart := none
  preShift := none
  observation := 0
  observable := false

/-- The FREE steps from a base to a range and a step (R78, row 3). -/
def freeSteps (base : Conf) (r : Range) (t : StepNo) : List GearStep :=
  let c1 : Conf := { base with range := some r }
  let c2 : Conf := { c1 with step := some t }
  (if base.range = some r then [] else [.fresh .free [r.clutch] ((base.range.map Range.clutch).toList) c1]) ++
  (if base.step = some t then [] else [.fresh .free [t.clutch] ((base.step.map StepNo.clutch).toList) c2])

/-- One SINGLE or RANGE step from a gear to another in a direction (R78, row 4). -/
def gearChange (d : Dir) (r0 : Range) (t0 : StepNo) (gear : Nat) : GearStep :=
  let r := gearRange gear
  let t := gearStepNo gear
  let result : Conf := ⟨some d, some r, some t⟩
  let st : GearStep :=
    if r = r0 then .fresh .single [t.clutch] [t0.clutch] result
    else if t = t0 then .fresh .range [r.clutch] [r0.clutch] result
    else .fresh .range [r.clutch, t.clutch] [r0.clutch, t0.clutch] result
  { st with downward := gear < gearOf r0 t0, upward := gearOf r0 t0 < gear }

/-- The gears passed on the way to a target, one at a time, at most `n` of them. -/
def gearWalk : Nat → Nat → Nat → List Nat
  | 0, _, _ => []
  | n + 1, gear, target =>
    if gear < target then (gear + 1) :: gearWalk n (gear + 1) target
    else if target < gear then (gear - 1) :: gearWalk n (gear - 1) target
    else []

/-- The steps through a list of gears (R78, row 4). -/
def gearChanges (d : Dir) (r : Range) (t : StepNo) : List Nat → List GearStep
  | [] => []
  | g :: gs => gearChange d r t g :: gearChanges d (gearRange g) (gearStepNo g) gs

/-- The NEUTRALIZE step out of a direction (R78, row 1; R90). -/
def neutralizeStep (base : Conf) (d : Dir) (zero : Bool) : GearStep :=
  { GearStep.fresh .neutralize [] [d.clutch] { base with dir := none } with zeroRamp := zero }

/-- The steps of the gear once the direction is settled (R78, rows 3 and 4). A base with a direction whose range or step is
NONE has no gear to shift from and takes FREE steps (log 28). -/
def gearSteps (base : Conf) (wishes pressed auto : Bool) (gear : Nat) : List GearStep :=
  let free := freeSteps base (gearRange gear) (gearStepNo gear)
  match base.dir, base.range, base.step with
  | some d, some r, some t =>
    if !wishes || pressed then free
    else if auto then gearChanges d r t (gearWalk 11 (gearOf r t) gear)
    else gearChanges d r t (if gearOf r t = gear then [] else [gear])
  | _, _, _ => free

/-- The plan from a base to the wish (R78). -/
def Sq.plan (q : Sq) (band : Band) (base : Conf) : List GearStep :=
  let (wd, gear) := q.wish
  let pressed : Bool := band = .pressed
  let dirStep : List GearStep :=
    match base.dir, wd with
    | some d, none => [neutralizeStep base d q.safeNeutral]
    | some d, some w =>
      if d = w then []
      else [.fresh (if pressed then .free else .shuttle) [w.clutch] [d.clutch] { base with dir := some w }]
    | none, _ => []
  let base1 : Conf := match base.dir, wd with | some _, w => { base with dir := w } | none, _ => base
  let gears := gearSteps base1 wd.isSome pressed q.auto gear
  let engage : List GearStep :=
    match base.dir, wd with
    | none, some w => [.fresh .engage [w.clutch] [] ⟨some w, some (gearRange gear), some (gearStepNo gear)⟩]
    | _, _ => []
  dirStep ++ gears ++ engage

/-! Flags (R101). -/

/-- The flags of the ended or abandoned step clear; each reader takes the change (R101, R109, R128), and so the ACU's AXLE request
comes before a FILL request of the next step in the event (log 17). -/
def State.clearFlags (s : State) : State :=
  let old := s.sq.flags
  let s := { s with sq := { s.sq with flags := .clear } }
  let s := if old.draftFreeze then s.hrUnfreeze else s
  if old.releaseDeferral then s.acuFollow else s

/-! Abandonment, rebuild, start (R80 to R83, R90). -/

/-- A LOCKED direction clutch goes under the pedal, in SYNC, when the band is not RELEASED (R91). -/
def State.inchEntry (s : State) : State :=
  match s.sq.engaged with
  | some d =>
    if s.pub.band = .released then s
    else { s with sq := { s.sq.enterAll [d.clutch] .sync with looseSync := none } }
  | none => s

/-- The started step at the head is abandoned (R81): its FILL request or grant is given up, its on-coming clutches go OPEN,
its flags clear, it leaves the queue, and the pedal takes effect (R92). -/
def State.abandonHead (s : State) : State :=
  match s.sq.queue with
  | st :: rest =>
    let q := if st.phase = some .flowWait then s.sq else s.sq.enterAll st.on .opened
    let s := { s with sq := { q with queue := rest } }
    let s := if st.phase = some .flowWait ∨ st.phase = some .fill then s.releaseFill else s
    s.clearFlags.inchEntry
  | [] => s

/-- Two steps agree in kind, on-coming clutches, off-going clutches and resulting gear (R80). -/
def GearStep.agrees (a b : GearStep) : Bool := a.kind = b.kind && a.on = b.on && a.off = b.off && a.result = b.result

/-- A started step that a rebuild leaves to complete (R80). -/
def GearStep.stays (st : GearStep) : Bool :=
  st.kind = .neutralize || st.phase = some .rampOn || st.phase = some .sync || st.phase = some .rampOff

def State.setQueue (s : State) (l : List GearStep) : State := { s with sq := { s.sq with queue := l.take 4 } }

/-- The started step is abandoned and the plan rebuilt (R80, R81). -/
def State.abandonRebuild (s : State) : State :=
  let s := s.abandonHead
  s.setQueue (s.sq.plan s.pub.band s.sq.box)

/-- The plan is rebuilt (R80). In HALT and in CONFIG no plan is built (R98, R103). -/
def State.rebuild (s : State) : State :=
  if !(s.running && s.enable) then s
  else
    match s.sq.started with
    | none => s.setQueue (s.sq.plan s.pub.band s.sq.box)
    | some st =>
      if st.stays then s.setQueue (st :: s.sq.plan s.pub.band st.result)
      else
        match s.sq.plan s.pub.band s.sq.box with
        | p :: ps => if p.agrees st then s.setQueue (st :: ps) else s.abandonRebuild
        | [] => s.abandonRebuild

/-- What holds an unstarted head step back (R82). -/
inductive Held where
  | no | off | interlock | hot | pedal
deriving DecidableEq, Repr

def State.heldBy (s : State) (st : GearStep) : Held :=
  if !(s.running && s.enable) then .off
  else if st.kind = .engage ∧ s.sq.interlock then .interlock
  else if st.on.any fun c => (s.sq.clutch.get c).hot then .hot
  else if st.kind ≠ .neutralize ∧ s.pub.band = .modulating ∧ s.sq.seq = .inch then .pedal
  else .no

/-- The unstarted head step, if there is one. -/
def Sq.waitingHead (q : Sq) : Option GearStep :=
  match q.queue with
  | st :: _ => if st.phase.isNone then some st else none
  | [] => none

def State.setHead (s : State) (st : GearStep) : State := { s with sq := { s.sq with queue := st :: s.sq.queue.tail } }

/-- A clutch begins a ramp from one current to another (R74). -/
def Sq.startRamp (q : Sq) (c : Clutch) (st : ClutchState) (first last : Nat) (now : Time) (length : Nat) : Sq :=
  { q with clutch := q.clutch.set c { q.clutch.get c with state := st, ramp := some ⟨first, last, now, length⟩ } }

/-- The clutches of a step fall from their present currents to 0 (R74, R84, R88, R90). -/
def State.rampOff (s : State) (cs : List Clutch) (length : Nat) : State :=
  { s with sq := cs.foldl (fun q c => q.startRamp c .rampOff (s.clutchCurrent c) 0 s.now length) s.sq }

/-- No direction clutch slips outside a step any more. -/
def State.endLoose (s : State) : State := { s with sq := { s.sq with looseSync := none } }

/-- The FILL units of a step (R63, R83). -/
def fillUnits (items : List (List Word)) (on : List Clutch) : Nat :=
  (on.map fun c => (clutchItem items c).fillUnits).sum

/-- The head step starts (R82, R83, R90, R101). A zero-ramp NEUTRALIZE is not started here (`State.tryStart`). -/
def State.beginStep (s : State) (st : GearStep) : State :=
  if st.kind = .neutralize then
    let length := overOn s.items st.off ClutchItem.rampTime
    (s.setHead { st with phase := some .rampOff, phaseStart := s.now, phaseLength := length }).endLoose.rampOff st.off length
  else
    let st' : GearStep :=
      { st with phase := some .flowWait, phaseStart := s.now, phaseLength := 0, response := takenField s.sq.taken 7 }
    let freeze : Bool := st.kind = .range ∨ st.kind = .shuttle
    let s := s.setHead st'
    let s :=
      { s with
        sq := { s.sq with flags := { s.sq.flags with draftFreeze := freeze, assistWindow := st.kind = .shuttle } } }
    let s := if freeze then s.hrFreeze else s
    match st.on with
    | c :: _ => s.askFill (fillUnits s.items st.on) c
    | [] => s

/-- The head step starts if it is unstarted and nothing holds it back. -/
def State.startPlain (s : State) : State :=
  match s.sq.waitingHead with
  | some st => if s.heldBy st = .no then s.beginStep st else s
  | none => s

/-! Ends of steps (R85, R90, R91, R94). -/

/-- The observation of a step that ended by R85 is applied to its on-coming clutch (R94). -/
def ClutchRec.observe (c : ClutchRec) (obs : Int) : ClutchRec :=
  if obs ≠ 0 ∧ obs = c.trend then
    { c with trend := 0, fillOffset := max (-64) (min 64 (c.fillOffset + 4 * obs)) }
  else { c with trend := obs }

def Sq.observe (q : Sq) (st : GearStep) (clean : Bool) : Sq :=
  match st.on with
  | c :: _ =>
    if clean && st.observable then { q with clutch := q.clutch.set c ((q.clutch.get c).observe st.observation) } else q
  | [] => q

/-- The started step ends: observation, flags, queue, pedal, and the plan is rebuilt (R80, R85, R91, R94, R101). `clean`
says that it ended by R85. -/
def State.finishStep (s : State) (clean : Bool) : State :=
  match s.sq.queue with
  | st :: rest =>
    let q := s.sq.observe st clean
    (({ s with sq := { q with queue := rest } }).clearFlags.inchEntry).rebuild
  | [] => s

/-- A zero-ramp NEUTRALIZE at the head: its direction clutch goes OPEN and it ends in the same event (R90). -/
def State.zeroNeutral (s : State) (st : GearStep) : State :=
  (({ s with sq := s.sq.enterAll st.off .opened }).endLoose).finishStep false

/-- The head step starts as soon as its start conditions hold (R82). A zero-ramp NEUTRALIZE ends at once, and the step
behind it gets its own chance in the same event. -/
def State.tryStart (s : State) : State :=
  match s.sq.waitingHead with
  | some st =>
    if s.heldBy st = .no then
      if st.kind = .neutralize ∧ st.zeroRamp then (s.zeroNeutral st).startPlain else s.beginStep st
    else s
  | none => s

def State.endStep (s : State) (clean : Bool) : State := (s.finishStep clean).tryStart

def State.replan (s : State) : State := s.rebuild.tryStart

/-! Phases. -/

/-- The SYNC timer as a SYNC begins or the pedal rises: under the pedal none runs (R86, R91). -/
def State.syncBegin (s : State) (on : List Clutch) : Option Time :=
  let dir := on.any fun c => c = .cf || c = .cr
  if dir && s.pub.band ≠ .released then none else some s.now

/-- FILL ends: the on-coming clutches enter HOLD and the grant is released (R83). -/
def State.fillDone (s : State) (st : GearStep) : State :=
  let st' := { st with phase := some .hold, phaseStart := s.now, phaseLength := overOn s.items st.on ClutchItem.holdTime }
  let s := s.setHead st'
  ({ s with sq := s.sq.enterAll st.on .hold }).releaseFill

/-- The on-coming clutches rise from hold_current to a last current each (R84, R87 to R89). -/
def State.rampOn (s : State) (cs : List Clutch) (last : ClutchItem → Nat) (length : Nat) : State :=
  { s with
    sq := cs.foldl
      (fun q c =>
        let it := clutchItem s.items c
        q.startRamp c .rampOn it.holdCurrent (last it) s.now length) s.sq }

/-- The flags that a step sets as it enters RAMP_ON (R101); the ACU takes the release deferral (R113). -/
def State.rampFlags (s : State) (st : GearStep) : State :=
  let f := s.sq.flags
  let shift : Bool := st.kind = .single ∨ st.kind = .range
  let f :=
    { f with
      assistWindow := f.assistWindow || (shift && st.downward)
      releaseDeferral := st.kind = .range ∨ st.kind = .shuttle }
  let s := { s with sq := { s.sq with flags := f } }
  if f.releaseDeferral then s.acuFollow else s

/-- A FREE step on the direction group at the end of HOLD: the clutches swap and the step ends (R89). -/
def State.swapDirection (s : State) (st : GearStep) : State :=
  let q := (s.sq.enterAll st.off .opened).enterAll st.on .sync
  ({ s with sq := { q with looseSync := s.syncBegin st.on } }).endStep false

/-- HOLD ends (R84, R87 to R89). -/
def State.holdDone (s : State) (st : GearStep) : State :=
  let enter (s : State) (length : Nat) : State :=
    s.setHead { st with phase := some .rampOn, phaseStart := s.now, phaseLength := length }
  match st.kind with
  | .free =>
    if st.on.any fun c => c = .cf || c = .cr then s.swapDirection st
    else
      let s := { s with sq := s.sq.enterAll st.off .opened }
      (enter s 50).rampOn st.on ClutchItem.lockCurrent 50
  | .shuttle =>
    let length := overOn s.items st.off ClutchItem.rampTime
    let s := (s.rampOff st.off length).endLoose
    ((enter s length).rampOn st.on (shuttleCurrent · st.response) length).rampFlags st
  | .single | .range | .engage | .neutralize =>
    let length := overOn s.items st.on ClutchItem.rampTime
    let s := s.rampOff st.off length
    ((enter s length).rampOn st.on ClutchItem.syncCurrent length).rampFlags st

/-- RAMP_ON ends (R84, R87 to R89): the off-going clutches are OPEN, and the on-coming ones enter SYNC or, for a FREE
step, LOCKED. A shuttle begins its deceleration here whatever the last published wheel speed; one already below 0.5 km/h ends
it at the next publication (log 61). -/
def State.rampDone (s : State) (st : GearStep) : State :=
  if st.kind = .free then ({ s with sq := s.sq.enterAll st.on .locked }).endStep false
  else
    let shuttle : Bool := st.kind = .shuttle
    let st' : GearStep :=
      { st with
        phase := some .sync, phaseStart := s.now, phaseLength := 0, decel := shuttle,
        syncStart := if shuttle then none else s.syncBegin st.on }
    let s := s.setHead st'
    { s with sq := (s.sq.enterAll st.off .opened).enterAll st.on .sync }

/-- Deceleration ends: the assist window closes and the sync_limit timer starts (R88, R101). -/
def State.endDecel (s : State) (st : GearStep) : State :=
  let s := s.setHead { st with decel := false, syncStart := s.syncBegin st.on }
  { s with sq := { s.sq with flags := { s.sq.flags with assistWindow := false } } }

/-- The lock ramp of clutches in SYNC begins: from their present currents to lock_current over 50 ms (R85). -/
def State.lockRamp (s : State) (cs : List Clutch) : State :=
  { s with
    sq := cs.foldl
      (fun q c => q.startRamp c .sync (s.syncCurrent c) (clutchItem s.items c).lockCurrent s.now 50) s.sq }

/-- A lock ramp has begun on some of the clutches. -/
def Sq.ramping (q : Sq) (cs : List Clutch) : Bool := cs.any fun c => (q.clutch.get c).ramp.isSome

/-- The lock ramps of the clutches have run their 50 ms. -/
def State.rampsDone (s : State) (cs : List Clutch) : Bool :=
  cs ≠ [] && cs.all fun c =>
    match (s.sq.clutch.get c).ramp with
    | some r => r.length ≤ elapsed s.now r.start
    | none => false

/-- The clutches are under the pedal: a direction clutch with the band not RELEASED (R91). -/
def State.underPedal (s : State) (cs : List Clutch) : Bool :=
  s.pub.band ≠ .released && cs.any fun c => c = .cf || c = .cr

/-- The step is locked: its on-coming clutches enter LOCKED and it ends (R85, R86). -/
def State.lockStep (s : State) (st : GearStep) (clean : Bool) : State :=
  ({ s with sq := s.sq.enterAll st.on .locked }).endStep clean

/-- A direction clutch outside a step locks again (R91). -/
def State.lockLoose (s : State) (d : Dir) : State :=
  (({ s with sq := s.sq.enterAll [d.clutch] .locked }).endLoose).tryStart

/-- The direction clutch that slips outside the SYNC of a step (R91). -/
def Sq.loose (q : Sq) : Option Dir :=
  match q.syncDir with
  | some d => if (q.stepSync d.clutch).isSome then none else some d
  | none => none

/-! Publications. -/

/-- Heat of a clutch in SYNC for one millisecond, the remainder carried in ten-thousandths of a unit (R96). Heat that stops at
65535 carries no remainder; any other remainder stays until the next heat (log 38). -/
def ClutchRec.warm (c : ClutchRec) (slip : Option Nat) : ClutchRec :=
  match slip with
  | some v =>
    let t := c.heat * 10000 + c.heatRest + v
    if 65535 * 10000 ≤ t then { c with heat := 65535, heatRest := 0 }
    else { c with heat := t / 10000, heatRest := t % 10000 }
  | none => c

/-- The slip that heats a clutch (R96). A direction clutch in SYNC that is not the started step's own takes the slip of R91, also
while a step on other clutches is started (log 48). -/
def State.heatSlip (s : State) (c : Clutch) : Option Nat :=
  match s.sq.stepSync c with
  | some st => s.stepSlip st
  | none => match s.sq.loose with | some d => s.looseSlip d | none => none

/-- One millisecond of heat on every clutch in SYNC (R96). A clutch that is not in SYNC keeps its remainder (log 38). -/
def State.heatUp (s : State) : State :=
  { s with
    sq := { s.sq with
      clutch := .tabulate fun c =>
        let r := s.sq.clutch.get c
        if r.state = .sync then r.warm (s.heatSlip c) else r } }

/-- The HOT test of one clutch (R96), taken when heat has moved or a limit has been written (log 56). -/
def State.hotTest (s : State) (c : Clutch) : State :=
  let r := s.sq.clutch.get c
  if !r.hot && itemNat s.items 20 2 ≤ r.heat then
    ({ s with sq := { s.sq with clutch := s.sq.clutch.set c { r with hot := true } } }).detect .clutchHot
      (Word.ofNat c.code)
  else if r.hot && r.heat ≤ itemNat s.items 20 3 then
    { s with sq := { s.sq with clutch := s.sq.clutch.set c { r with hot := false } } }
  else s

/-- The HOT tests, clutch by clutch from CF to C4: the order in which several become HOT in one event (log 51). -/
def State.hotTests (s : State) : State := Clutch.all.foldl State.hotTest s

/-- The observation of R94 on a publication. -/
def GearStep.watch (st : GearStep) (items : List (List Word)) (engine : Option Nat) (band : Band) : GearStep :=
  let st : GearStep := { st with observable := st.observable && engine.isSome && band = .released }
  match engine, st.preShift with
  | some e, some p =>
    if st.observation ≠ 0 then st
    else if st.phase = some .hold ∧ e + itemNat items 20 1 < p then { st with observation := -1 }
    else if st.phase = some .rampOn ∧ p + itemNat items 20 0 < e then { st with observation := 1 }
    else st
  | _, _ => st

def State.observe (s : State) : State :=
  match s.sq.started with
  | some st => s.setHead (st.watch s.items s.pub.engine s.pub.band)
  | none => s

/-- The started FREE step that a rise out of PRESSED abandons (R92). -/
def GearStep.freeEarly (st : GearStep) : Bool :=
  st.kind = .free && (st.phase = some .flowWait || st.phase = some .fill || st.phase = some .hold)

/-- The band leaves RELEASED over a direction clutch in SYNC: a lock ramp is dropped and the sync_limit timer discarded;
the band returns to RELEASED: the timer starts afresh (R91). -/
def State.pedalSync (s : State) (down : Bool) : State :=
  match s.sq.syncDir with
  | none => s
  | some d =>
    let s := if down then { s with sq := s.sq.enterAll [d.clutch] .sync } else s
    let t : Option Time := if down then none else some s.now
    match s.sq.stepSync d.clutch with
    | some st => if st.decel then s else s.setHead { st with syncStart := t }
    | none => { s with sq := { s.sq with looseSync := t } }

/-- The pedal band of the last publication before is `old`; the SQ takes the new one (R80, R91, R92). -/
def State.pedalChange (s : State) (old : Band) : State :=
  let new := s.pub.band
  if new = old ∨ !(s.running && s.enable) then s
  else
    let s := if old = .released then s.pedalSync true else if new = .released then s.pedalSync false else s
    let s := if s.sq.seq = .drive then s.inchEntry else s
    if (old = .pressed ∨ new = .pressed) ∧ !s.sq.dirsOpen then
      let early : Bool := match s.sq.started with | some st => old = .pressed && st.freeEarly | none => false
      let s := if early then s.abandonHead else s
      s.rebuild
    else s

/-- Deceleration ends at the first wheel speed below 0.5 km/h (R88) that a publication brings after it began (log 61). -/
def State.standstill (s : State) : State :=
  match s.sq.started with
  | some st =>
    if st.phase = some .sync ∧ st.decel ∧ s.pub.wheel.any (· < 5) then s.endDecel st else s
  | none => s

/-- A slip lies within a window in rpm (R85); an unavailable slip does not. -/
def inWindow (slip : Option Nat) (windowRpm : Nat) : Bool := slip.any (· ≤ windowRpm * 100)

/-- The lock ramp of the started step begins on a slip within the window (R85, R91). -/
def State.lockStart (s : State) : State :=
  match s.sq.started with
  | some st =>
    if st.phase = some .sync ∧ !st.decel ∧ !s.sq.ramping st.on ∧ !s.underPedal st.on ∧
        inWindow (s.stepSlip st) (overOn s.items st.on ClutchItem.syncWindow) then
      s.lockRamp st.on
    else s
  | none => s

/-- The lock ramp of a direction clutch outside a step, or beside a started step on other clutches (R91, log 48). -/
def State.looseStart (s : State) : State :=
  match s.sq.loose with
  | some d =>
    if !s.sq.ramping [d.clutch] ∧ !s.underPedal [d.clutch] ∧
        inWindow (s.looseSlip d) (clutchItem s.items d.clutch).syncWindow then
      s.lockRamp [d.clutch]
    else s
  | none => s

/-- The SQ takes a publication; `old` is the pedal band before it. Heat comes first, for the millisecond that has passed
(log 17). -/
def State.sqPublish (s : State) (old : Band) : State :=
  if !s.running then s
  else
    ((((((s.heatUp).hotTests.observe).pedalChange old).standstill).lockStart).looseStart).tryStart

/-! Automatic shifting (R93). -/

/-- The timers run: AUTO, DRIVE, the queue empty. -/
def State.autoRuns (s : State) : Bool :=
  s.sq.auto && s.seqState = .drive && s.sq.queue.isEmpty && s.pub.engine.isSome

def State.wantsUp (s : State) : Bool := s.pub.engine.any (takenField s.sq.taken 5 < ·)

def State.wantsDown (s : State) : Bool := s.pub.engine.any (· < takenField s.sq.taken 6)

/-- The auto target moves and the plan is rebuilt (R80, R93). -/
def State.retarget (s : State) (gear : Nat) : State := ({ s with sq := { s.sq with autoTarget := gear } }).replan

/-! Halt, hand-over, START, STOP (R77, R90, R97, R98, R103). -/

/-- Every clutch goes OPEN at once, with no ramps. -/
def Sq.openAll (q : Sq) : Sq := q.enterAll Clutch.all .opened

/-- ENABLE falls in RUN: HALT (R98). -/
def State.halt (s : State) : State :=
  let s := s.releaseFill
  let q := s.sq.openAll
  ({ s with
      sq := { q with
        queue := [], looseSync := none, interlock := true, up := none, down := none, refusalUp := false,
        refusalDown := false } }).clearFlags

/-- The auto target at a hand-over (R77); `same` says that the same order was already held in AUTO. -/
def Sq.retake (q : Sq) (same : Bool) : Nat :=
  if !q.auto then 0
  else if same then q.intoBand q.autoTarget
  else
    match q.dirsOpen, q.range, q.step with
    | false, some r, some t => q.intoBand (gearOf r t)
    | _, _, _ => q.intoBand (takenField q.taken 2)

/-- The restart interlock at a hand-over (R97): SAFE_NEUTRAL sets it, a port order in NEUTRAL clears it. -/
def Sq.interlockTake (q : Sq) : Bool :=
  if q.safeNeutral then true
  else if 8 ≤ takenSlot q.taken ∧ takenSlot q.taken < 48 ∧ takenField q.taken 0 = 0 then false
  else q.interlock

/-- What a hand-over writes before the plan. -/
def Sq.take (q : Sq) (t : Option Taken) : Sq :=
  let same := q.auto && q.taken.map (·.handle) = t.map (·.handle)
  let n := { q with taken := t, up := none, down := none }
  { n with autoTarget := n.retake same, interlock := n.interlockTake }

/-- SAFE_NEUTRAL over a NEUTRALIZE step in RAMP_OFF opens its clutch at once (R90). -/
def State.cutNeutral (s : State) : State :=
  match s.sq.started with
  | some st =>
    if st.kind = .neutralize ∧ s.sq.safeNeutral then s.zeroNeutral st else s
  | none => s

/-- The SQ takes the governing GEAR order or its amended contents (R77, R80, R90, R97). -/
def State.sqTake (s : State) : State :=
  (({ s with sq := s.sq.take (s.takenNow .gear) }).cutNeutral).replan

/-- START (R103): the interlock is set and the governing GEAR order taken; with ENABLE low the SQ stands in HALT. -/
def State.sqStart (s : State) : State := ({ s with sq := { s.sq with interlock := true } }).sqTake

/-- STOP (R103). -/
def Sq.stop (q : Sq) : Sq :=
  let o := q.openAll
  { o with
    queue := [], looseSync := none, up := none, down := none, refusalUp := false, refusalDown := false, slip := none,
    autoTarget := 0, flags := .clear }

/-- The FILL request was withdrawn as starved (R99). -/
def State.sqStarved (s : State) : State :=
  match s.sq.started with
  | some st => if st.phase = some .flowWait then s.abandonHead.replan else s
  | none => s

/-- The GEAR_SLIP test: the check runs and the driven gear slips by more than 8 % (R100). -/
def State.gearSlips (s : State) : Bool :=
  match s.sq.engaged, s.sq.range, s.sq.step, s.pub.wheel with
  | some d, some r, some t, some w =>
    s.seqState = .drive && 10 ≤ w &&
      (s.slipOf d (gearOf r t)).any fun v => 8 * s.expected d (gearOf r t) w < 100 * v
  | _, _, _, _ => false

/-- The site of a GEAR_SLIP detection: the driven gear (R100). -/
def Sq.gearSite (q : Sq) : Word :=
  match q.engaged with
  | some d => Sys2Proof.Machine.gearSite d q.gearNumber
  | none => noSite

/-- The keeping of the governing GEAR order (R102). -/
def State.sqKeeping (s : State) : Keeping :=
  if !s.enable then .waiting .faultDegraded
  else
    match s.sq.started, s.sq.waitingHead with
    | some st, _ => if st.phase = some .flowWait then .waiting .flowWait else .limited .shifting
    | none, some st =>
      match s.heldBy st with
      | .interlock => .limited .restartInterlock
      | .hot => .limited .hotClutch
      | .pedal => .waiting .inchWait
      | .off | .no => .kept
    | none, none =>
      if s.sq.auto && s.pub.engine.isNone then .limited .faultDegraded
      else if s.sq.auto && (s.sq.refusalUp || s.sq.refusalDown) then .limited .band
      else .kept

end Sys2Proof.Machine
end

