-- ==== Sys2Proof/Machine/Leases.lean ====
section
/-! DEFINITION. The Lease and Condition Unit: the lease list, condition terms, and the conditions of BRAKE_AXLE and
TRANSPORT (chapter 2). -/

namespace Sys2Proof.Machine

/-! The lease list (R29, R30). -/

/-- An entry stands before another: less time remaining, or as much and a lower slot (R29). -/
def Lease.before (now : Time) (a b : Lease) : Bool :=
  remaining now a.deadline < remaining now b.deadline ||
    (remaining now a.deadline = remaining now b.deadline && a.slot < b.slot)

/-- An entry takes its place in the list (R29). -/
def insertLease (now : Time) (e : Lease) : List Lease → List Lease
  | [] => [e]
  | x :: xs => if e.before now x then e :: x :: xs else x :: insertLease now e xs

/-- The list without the entry of a slot. -/
def removeLease (k : Nat) (l : List Lease) : List Lease := l.filter (·.slot ≠ k)

/-- The lease of an order starts or restarts with an interval; an interval of 0 leaves it unleased (R30). -/
def State.restartLease (s : State) (k : Nat) (interval : Word) : State :=
  let l := removeLease k s.lcu.leases
  let l := if interval = 0 then l else insertLease s.now ⟨k, s.now + interval.setWidth 32⟩ l
  { s with lcu := { s.lcu with leases := l } }

/-- The LCU drops what it holds of an order: its lease entry and its reports (R30, R38). -/
def State.lcuForget (s : State) (k : Nat) : State :=
  { s with
    lcu := { s.lcu with leases := removeLease k s.lcu.leases, reports := s.lcu.reports.filter (·.1 ≠ k) } }

/-! Condition terms (R33 to R37). -/

/-- The present value of a quantity, none while it is unavailable (R33, R37). -/
def State.quantity (s : State) : Quantity → Option Nat
  | .groundSpeed => s.pub.ground
  | .wheelSlip => s.pub.slip
  | .engineSpeed => s.pub.engine
  | .hitchPosition => s.pub.position
  | .gearNumber => some s.sq.gearNumber
  | .serviceBrake => s.pub.service

/-- The relation of a term holds for a value (R35). -/
def Term.holds (t : Term) (v : Nat) : Bool :=
  if t.above then t.threshold.toNat < v else v < t.threshold.toNat

/-- A value lies past the release level of a term (R35). -/
def Term.past (t : Term) (v : Nat) : Bool :=
  if t.above then v + t.hysteresis.toNat < t.threshold.toNat else t.threshold.toNat + t.hysteresis.toNat < v

/-- The state a term enters when its relation holds from FALSE, or at a hand-over (R34, R35). -/
def Term.arm (t : Term) (now : Time) : TermEval :=
  if t.dwell = 0 then .isTrue else .arming (now + t.dwell.setWidth 32)

/-- A term handed over, evaluated afresh (R34). -/
def Term.afresh (t : Term) (now : Time) (v : Option Nat) : Term :=
  match v with
  | some x => { t with eval := some (if t.holds x then t.arm now else .isFalse) }
  | none => { t with eval := some .isFalse }

/-- A term takes a new value of its quantity, or its loss (R35, R37). -/
def Term.take (t : Term) (now : Time) (v : Option Nat) : Term :=
  match t.eval, v with
  | some .isFalse, some x => if t.holds x then { t with eval := some (t.arm now) } else t
  | some (.arming _), some x => if t.holds x then t else { t with eval := some .isFalse }
  | some .isTrue, some x => if t.past x then { t with eval := some .isFalse } else t
  | some (.arming _), none => { t with eval := some .isFalse }
  | some .isFalse, none | some .isTrue, none | none, _ => t

/-- The value of a term's quantity, if the term names one. -/
def State.termValue (s : State) (t : Term) : Option Nat := t.quantityName.bind s.quantity

/-- The LCU works out the condition of an order with terms and reports a change (R38). -/
def State.lcuReport (s : State) (k : Nat) (o : Order) : State :=
  let c := o.termsTrue
  if c = o.lcuCond then s.setOrder k o
  else
    let s := s.setOrder k { o with lcuCond := c }
    { s with lcu := { s.lcu with reports := s.lcu.reports ++ [(k, c)] } }

/-- A term that is set is handed to the LCU (R9, R34). -/
def State.handTerm (s : State) (t : Term) : Term := if t.set then t.afresh s.now (s.termValue t) else t

/-- A term takes the present value if it names a quantity that the sweep is about. -/
def State.sweepTerm (s : State) (about : Quantity → Bool) (t : Term) : Term :=
  match t.quantityName with
  | some q => if t.set && about q then t.take s.now (s.quantity q) else t
  | none => t

/-- The new values reach the terms of the order in a slot (R35, R37). -/
def State.sweepSlot (about : Quantity → Bool) (s : State) (k : Nat) : State :=
  match s.order k with
  | some o =>
    if o.termCount = 0 ∨ o.state = .lapsed then s
    else s.lcuReport k { o with term1 := s.sweepTerm about o.term1, term2 := s.sweepTerm about o.term2 }
  | none => s

/-- The new values reach every term, slot by slot. -/
def State.sweep (s : State) (about : Quantity → Bool) : State := (List.range 48).foldl (State.sweepSlot about) s

/-! The fixed conditions (R40, R41). -/

def brakeThreshold (items : List (List Word)) : Nat := itemNat items 19 0
def transportSpeed (items : List (List Word)) : Nat := itemNat items 19 1
def transportHeight (items : List (List Word)) : Nat := itemNat items 19 2

/-- The BRAKE_AXLE condition turns: it is reported as a claim on AXLE. -/
def State.setBrakeAxle (s : State) (truth : Bool) : State :=
  { s with
    lcu := { s.lcu with brakeAxle := truth, brakeRelease := none, reports := s.lcu.reports ++ [(1, truth)] } }

/-- BRAKE_AXLE on a publication (R40). -/
def State.brakeAxlePublish (s : State) : State :=
  let at_ (level : Nat) (p : Option Nat) : Bool := p.any (level ≤ ·)
  let below (level : Nat) (p : Option Nat) : Bool := p.any (· < level)
  let high := brakeThreshold s.items
  let low := high - 300
  if s.lcu.brakeAxle then
    let t := s.lcu.brakeRelease.follow (below low s.pub.brakeL && below low s.pub.brakeR) s.now
    { s with lcu := { s.lcu with brakeRelease := t } }
  else if at_ high s.pub.brakeL && at_ high s.pub.brakeR && at_ 30 s.pub.ground then s.setBrakeAxle true
  else s

/-- TRANSPORT on a publication (R41). -/
def State.transportPublish (s : State) : State :=
  let turn (truth : Bool) : State :=
    { s with lcu := { s.lcu with transport := truth, reports := s.lcu.reports ++ [(2, truth)] } }
  if s.lcu.transport then (if s.pub.ground.any (· + 20 < transportSpeed s.items) then turn false else s)
  else if s.pub.ground.any (transportSpeed s.items ≤ ·) && s.pub.position.any (transportHeight s.items ≤ ·) then turn true
  else s

/-- The LCU takes a publication (R35, R37, R40, R41). -/
def State.lcuPublish (s : State) : State :=
  ((s.sweep fun q => q ≠ .gearNumber).brakeAxlePublish).transportPublish

/-- GEAR_NUMBER has a new value. -/
def State.lcuGear (s : State) : State := s.sweep fun q => q = .gearNumber

end Sys2Proof.Machine
end

