-- ==== Sys2Proof/Machine/Orders.lean ====
section
/-! DEFINITION. Claims on the order table: resolution, hand-over, placement, freeing, lapse, condition reports (R3, R10 to
R12, R16, R19, R27). -/

namespace Sys2Proof.Machine

/-- The governing order goes to the job unit of its channel, which carries it out at once; in CONFIG no unit takes one
(R11, R103, R114, R133, R146). -/
def State.handOver (s : State) (ch : Channel) : State :=
  if !s.running then s
  else
    match ch with
    | .gear => s.sqTake
    | .axle => s.acuTake
    | .hitch => s.hrTake
    | .tbrake => s.tbuTake

/-- The state R10 gives an order; `first` says that no eligible order stands before it. -/
def Order.stateBy (o : Order) (first : Bool) : OrderState :=
  if o.state = .lapsed then .lapsed else if o.cond then (if first then .governing else .outranked) else .dormant

/-- One order on the walk of a resolution: its new state; NONE for its keeping where it leaves GOVERNING; its slot into the
changed-order set, unless its state is the one a placement's answer reports (R11, R16). -/
def State.resolveSlot (quiet : Option Nat) (s : State) (k : Nat) (o : Order) (st : OrderState) : State :=
  if o.state = st then s
  else
    let keeping := if o.state = .governing then Keeping.none else o.keeping
    let s := s.setOrder k { o with state := st, keeping := keeping }
    if quiet = some k then s else s.noteChange k o

/-- The walk of a precedence list from the front (R11). -/
def State.resolveWalk (quiet : Option Nat) : List Nat → Bool → State → State
  | [], _, s => s
  | k :: ks, first, s =>
    match s.order k with
    | some o => State.resolveWalk quiet ks (first && !o.eligible) (s.resolveSlot quiet k o (o.stateBy first))
    | none => State.resolveWalk quiet ks first s

/-- A channel is resolved (R11). `amended` is the slot of an order whose setpoint fields the claim wrote. -/
def State.resolve (s : State) (ch : Channel) (quiet amended : Option Nat) : State :=
  let old := s.governing ch
  let s := s.resolveWalk quiet (s.list ch) true
  let new := s.governing ch
  if new ≠ old ∨ (new.isSome ∧ new = amended) then s.handOver ch else s

/-- A slot goes in at the front of its class segment: after every entry of a lower class (R12). -/
def insertClass (cls : Nat → Nat) (k : Nat) : List Nat → List Nat
  | [] => [k]
  | x :: xs => if cls x < cls k then x :: insertClass cls k xs else k :: x :: xs

/-- The class of the order in a slot. -/
def State.clsOf (s : State) (k : Nat) : Nat := ((s.order k).map (·.cls)).getD 0

/-- The order in a slot goes to the front of its class segment. -/
def State.moveFront (s : State) (ch : Channel) (k : Nat) : State :=
  s.setList ch (insertClass s.clsOf k ((s.list ch).filter (· ≠ k)))

/-- The lowest FREE slot of the pool (R19). -/
def State.freeSlot (s : State) : Option Nat := ((List.range 40).map (· + 8)).find? fun k => (s.order k).isNone

/-- The port that an order counts for; internal orders count for none (R4). -/
def Owner.countPort : Owner → Option Port
  | .cab => some .cab
  | .implement => some .implement
  | .internal => none

/-- The order in a slot is freed (R3). -/
def State.freeOrder (s : State) (k : Nat) (o : Order) : State :=
  let s := s.setList o.channel ((s.list o.channel).filter (· ≠ k))
  let s := (s.lcuForget k).leaveSet o.owner.port k
  let s := match o.owner.countPort with | some p => s.setLive p (s.live p - 1) | none => s
  s.setSlot k ⟨s.incarnation k + 1, none⟩

/-- The order in a slot is freed if it is one of a port's (R178, R185). -/
def State.freeIf (who : Owner → Bool) (s : State) (k : Nat) : State :=
  match s.order k with
  | some o => if who o.owner then s.freeOrder k o else s
  | none => s

/-- Every order of some owners is freed, slot by slot. -/
def State.freeAll (s : State) (who : Owner → Bool) : State := (List.range 48).foldl (State.freeIf who) s

/-- A channel holds an order of some owners. -/
def State.holdsOf (s : State) (who : Owner → Bool) (ch : Channel) : Bool :=
  (s.list ch).any fun k => match s.order k with | some o => who o.owner | none => false

/-- Channels are resolved one after the other, as a claim on several of them does; the spec gives no order (log 36). -/
def State.resolveAll (s : State) (chs : List Channel) : State := chs.foldl (fun s ch => s.resolve ch none none) s

/-- The orders of some owners are freed and every channel that loses one is resolved (R178, step 3), in the order GEAR, AXLE,
HITCH, TBRAKE (log 36). -/
def State.freeAndResolve (s : State) (who : Owner → Bool) : State :=
  let chs := Channel.all.filter (s.holdsOf who)
  (s.freeAll who).resolveAll chs

/-- A lapse (R27). -/
def State.lapse (s : State) (k : Nat) : State :=
  match s.order k with
  | some o =>
    let o' := { o with
      state := .lapsed, keeping := .none, term1 := { o.term1 with eval := none },
      term2 := { o.term2 with eval := none } }
    (((s.setOrder k o').noteChange k o).resolve o.channel none none)
  | none => s

/-- The OTU takes the report of an order's condition (R11, R38). -/
def State.takeCondition (s : State) (k : Nat) (truth : Bool) : State :=
  match s.order k with
  | some o => (s.setOrder k { o with cond := truth }).resolve o.channel none none
  | none => s

end Sys2Proof.Machine
end

