-- ==== Sys2Proof/Machine/Measure.lean ====
section
/-! DEFINITION. The Measurement Unit: speed channels, converter channels, the derived quantities and the four detections
(chapter 3). -/

namespace Sys2Proof.Machine

/-! Times of edges, in µs of the timebase (R45). -/

/-- One turn of the timebase, in µs. -/
def turnUs : Nat := 4294967296 * 1000

/-- The stamp of a microsecond of the present millisecond. -/
def stampAt (now : Time) (us : Nat) : Nat := now.toNat * 1000 + us

/-- Microseconds from a stamp to a later one, round the turn of the timebase; a stamp more than half a turn ahead lies in
the past and gives 0 (log 30). -/
def sinceUs (later earlier : Nat) : Nat :=
  let d := (later + turnUs - earlier) % turnUs
  if d < turnUs / 2 then d else 0

def stallUs (items : List (List Word)) : Nat := itemNat items 14 0 * 1000

def supplyMin (items : List (List Word)) : Nat := itemNat items 14 1

/-! Speed channels (R46 to R48). -/

/-- The filtered interval moves one quarter of the way toward a new interval, kept as a fraction (R46, log 9). -/
def quarter (num den interval : Nat) : Nat × Nat := (3 * num + interval * den, 4 * den)

/-- A selected edge at a stamp (R46). -/
def SpeedTiming.edge (t : SpeedTiming) (stall stamp : Nat) : SpeedTiming :=
  match t with
  | .still none => .still (some stamp)
  | .still (some r) => if sinceUs stamp r < stall then .valid stamp (sinceUs stamp r) 1 else .still (some stamp)
  | .valid last num den =>
    let q := quarter num den (sinceUs stamp last)
    .valid stamp q.1 q.2

/-- A speed from an interval `num / den` µs: `k` over the interval times a scaling, rounded down and clamped to a top
(R47). Without an interval the reading is free (log 10). -/
def speedFrom (code k scale top num den : Nat) : Nat :=
  min top (if num = 0 then Config.speedAtZeroInterval code else k * den / (num * scale))

/-- The scaling of a channel as counted in selected edges (R45). -/
def speedScale (items : List (List Word)) (ch : SpeedCh) : Nat := itemNat items 13 ch.code * edgeFactor items ch

/-- The speed of a channel (R47): rpm for ENGINE, 0.1 km/h for the others, whose scalings are in 0.1 per metre. -/
def SpeedTiming.speed (t : SpeedTiming) (items : List (List Word)) (ch : SpeedCh) : Nat :=
  match t with
  | .still _ => 0
  | .valid _ num den =>
    match ch with
    | .engine => speedFrom ch.code 60000000 (speedScale items ch) 4000 num den
    | .output | .front | .radar => speedFrom ch.code 360000000 (speedScale items ch) 600 num den

/-- The channel reads LOST: with its lost mark, and until the next publication after the mark is cleared (R49). -/
def SpeedRec.readsLost (r : SpeedRec) : Bool := r.lost || r.resuming

/-- The speed of a channel: unavailable in LOST (R49, R52). -/
def State.chanSpeed (s : State) (ch : SpeedCh) : Option Nat :=
  let r := s.mu.speed.get ch
  if r.readsLost then none else some (r.timing.speed s.items ch)

def SpeedTiming.isValid : SpeedTiming → Bool
  | .valid .. => true
  | .still _ => false

/-- What a speed channel reads (R46, R49). -/
def SpeedRec.reads (r : SpeedRec) : ChanState :=
  if r.readsLost then .lost else if r.timing.isValid then .valid else .still

/-- A channel counts as moving (R49): VALID, without a lost mark, above 2.0 km/h. -/
def State.moving (s : State) (ch : SpeedCh) : Bool :=
  let r := s.mu.speed.get ch
  r.timing.isValid && !r.lost && 20 < r.timing.speed s.items ch

/-- A channel is silent while moving (R49). -/
def State.silent (s : State) (ch : SpeedCh) : Bool :=
  !(s.mu.speed.get ch).timing.isValid &&
    match ch with
    | .engine => s.moving .output && s.sq.engaged.isSome
    | .output => s.moving .front || s.moving .radar
    | .front => s.moving .output || s.moving .radar
    | .radar => s.moving .output || s.moving .front

/-- The lost timers follow the silent-while-moving test (R49). -/
def State.followLost (s : State) : State :=
  { s with
    mu := { s.mu with
      speed := .tabulate fun ch =>
        let r := s.mu.speed.get ch
        { r with lostTimer := r.lostTimer.follow (s.silent ch) s.now } } }

def State.setTiming (s : State) (ch : SpeedCh) (t : SpeedTiming) : State :=
  { s with mu := { s.mu with speed := s.mu.speed.set ch { s.mu.speed.get ch with timing := t } } }

/-! Converter channels (R50, R51). -/

/-- The range of a converter channel (R50). -/
def convRange : ConvCh → Int × Int
  | .hitchPos | .inch => (0, 1000)
  | .draftL | .draftR => (-1000, 1000)
  | .brakeL | .brakeR | .tsupply => (0, 16000)
  | .supply => (0, 6000)

/-- A raw sample in engineering units (R50). -/
def convScale (items : List (List Word)) (ch : ConvCh) (raw : BitVec 12) : Int :=
  let v := (((raw.toNat : Int) - itemNat items 15 ch.code) * (itemValue items 16 ch.code).toInt).tdiv 4096
  max (convRange ch).1 (min (convRange ch).2 v)

/-- A raw sample lies in the plausibility window of its channel (R51). -/
def convInside (items : List (List Word)) (ch : ConvCh) (raw : BitVec 12) : Bool :=
  within (itemNat items 17 ch.code) (itemNat items 18 ch.code) raw.toNat

/-- A sample of a channel (R51). `advisory` is the action of SENSOR_RANGE at the sample; `latched` its latch. A sample
inside the window that leaves the channel OUT_OF_RANGE does not renew the value held (the model's choice, log 64). -/
def ConvRec.sample (r : ConvRec) (items : List (List Word)) (ch : ConvCh) (now : Time) (advisory latched : Bool)
    (raw : BitVec 12) : ConvRec :=
  let inside := convInside items ch raw
  let good : Option Int := some (convScale items ch raw)
  match r.window, inside with
  | .inWindow, true | .outPending _, true => ⟨raw, true, .inWindow, good, false⟩
  | .inWindow, false => ⟨raw, false, .outPending now, r.last, false⟩
  | .outPending t, false => ⟨raw, false, .outPending t, r.last, false⟩
  | .outOfRange, true =>
    if advisory || !latched then ⟨raw, true, .inWindow, good, false⟩ else ⟨raw, true, .outOfRange, r.last, false⟩
  | .outOfRange, false => ⟨raw, false, .outOfRange, r.last, false⟩

/-- The value of a channel (R51). -/
def ConvRec.value (r : ConvRec) : Option Int :=
  match r.window with
  | .outOfRange => none
  | .inWindow | .outPending _ => if r.resuming then none else r.last

/-- A value that is never negative. -/
def ConvRec.natValue (r : ConvRec) : Option Nat := r.value.map Int.toNat

/-! Derived quantities (R53, R54, R56). -/

/-- The ground speed source is RADAR (R53). A latch of SPEED_MISMATCH and its action are taken in publications. -/
def State.radarSource (s : State) (wheel : Option Nat) : Bool :=
  let r := s.mu.speed.get .radar
  !r.readsLost && !s.mu.byWheel && (r.timing.isValid || wheel.all (· < 10))

/-- Wheel slip in % (R54). -/
def slipPercent (wheel ground : Nat) : Nat :=
  if wheel < 10 then 0 else min 100 ((wheel - ground) * 100 / wheel)

/-- The pedal band of a pedal position (R56). -/
def pedalBand : Option Nat → Band
  | none => .released
  | some p => if p < 50 then .released else if p < 900 then .modulating else .pressed

/-- The sum or the smaller of two values that are both available. -/
def both {α : Type} (f : α → α → α) : Option α → Option α → Option α
  | some a, some b => some (f a b)
  | _, _ => none

/-- The full set of quantities from the channels as they stand (R44, R52 to R56), for a publication and for the view. -/
def State.publication (s : State) : Pub :=
  let wheel := s.chanSpeed .output
  let radar := s.chanSpeed .radar
  let fromRadar := s.radarSource wheel
  let ground := if fromRadar then radar else wheel
  let c (ch : ConvCh) := (s.mu.conv.get ch)
  let brakeL := (c .brakeL).natValue
  let brakeR := (c .brakeR).natValue
  let pedal := (c .inch).natValue
  { chans := .tabulate fun ch => (s.mu.speed.get ch).reads, windows := .tabulate fun ch => (c ch).window,
    raws := .tabulate fun ch => (c ch).raw,
    engine := s.chanSpeed .engine, wheel := wheel, front := s.chanSpeed .front, radar := radar,
    source := if fromRadar then .radar else .wheel, ground := ground,
    slip := if fromRadar then both slipPercent wheel ground else none,
    position := (c .hitchPos).natValue, draftL := (c .draftL).value, draftR := (c .draftR).value,
    draft := both (· + ·) (c .draftL).value (c .draftR).value,
    brakeL := brakeL, brakeR := brakeR, service := both min brakeL brakeR,
    pedal := pedal, band := pedalBand pedal, line := (c .tsupply).natValue, supply := (c .supply).natValue }

/-! Detections (R51, R55, R57). -/

/-- Radar and wheels disagree (R55): both above 2.0 km/h, by more than 30 % of the larger. -/
def State.disagree (s : State) : Bool :=
  let r := s.mu.speed.get .radar
  match s.pub.radar, s.pub.wheel with
  | some a, some w =>
    r.timing.isValid && !r.lost && 20 < a && 20 < w && 30 * max a w < 100 * (max a w - min a w)
  | _, _ => false

/-- The mismatch timer follows the test (R55). -/
def State.followMismatch (s : State) : State :=
  { s with mu := { s.mu with mismatch := s.mu.mismatch.follow s.disagree s.now } }

/-- The supply pressure of the publication is available and below supply_min (R57). -/
def State.supplyIsLow (s : State) : Bool := s.pub.supply.any (· < supplyMin s.items)

/-- The supply test of a publication, and its timer (R57): a write of supply_min waits for the next publication. -/
def State.followSupply (s : State) : State :=
  let low := s.supplyIsLow
  { s with mu := { s.mu with supplyLow := low, supply := s.mu.supply.follow low s.now } }

/-- The eight samples of a millisecond (R50). -/
def State.sampleAll (s : State) (raw : ByConv (BitVec 12)) : State :=
  let advisory : Bool := s.action .sensorRange = .advisory
  let latched := s.latched .sensorRange
  { s with
    mu := { s.mu with
      conv := .tabulate fun ch => (s.mu.conv.get ch).sample s.items ch s.now advisory latched (raw.get ch) } }

/-- The TBU's samples of the TRAILER_PRESENT and BREAKAWAY inputs in a millisecond (R138, R143). -/
def State.samplePins (s : State) : State :=
  { s with
    tbu := { s.tbu with
      debounce := s.tbu.debounce.follow (s.inputs.trailerPresent ≠ s.tbu.presence) s.now,
      breakTimer := s.tbu.breakTimer.follow s.inputs.breakaway s.now } }

/-- The next millisecond of the timebase (R28), whose publication is still to come. The pin samples of the millisecond that
ends are those of the levels it leaves (log 46). -/
def State.tick (s : State) : State :=
  let s := s.samplePins
  { s with lcu := { s.lcu with now := s.now + 1 }, mu := { s.mu with published := false } }

/-- The millisecond of a publication: the present one while its publication is to come, else the next (R44, log 3). -/
def State.pubTime (s : State) : State := if s.mu.published then s.tick else s

/-- What a publication takes into the MU beside the samples: cleared lost marks, and SPEED_MISMATCH with its action (R49,
R53). -/
def State.openPub (s : State) : State :=
  { s with
    mu := { s.mu with
      speed := .tabulate fun ch => { s.mu.speed.get ch with resuming := false },
      byWheel := s.latched .speedMismatch && s.action .speedMismatch = .degrade,
      published := true, begun := true } }

/-- The MU's part of a publication: samples, quantities, timers (R44, R49, R50, R55, R57). -/
def State.muPublish (s : State) (raw : ByConv (BitVec 12)) : State :=
  let s := (s.sampleAll raw).openPub
  let s := { s with mu := { s.mu with pub := s.publication } }
  s.followLost.followMismatch.followSupply

end Sys2Proof.Machine
end

