-- ==== Sys2Proof/Machine/Output.lean ====
section
/-! DEFINITION. The Output Stage: channel states, period boundary, open condition, commanded setpoints (chapter 9). -/

namespace Sys2Proof.Machine

/-- The state of a channel (R151). -/
def State.outState (s : State) (ch : OutCh) : OutState :=
  let r := s.os.get ch
  if r.tripped then .tripped
  else if !s.enable then .gated
  else if !s.running || r.inForce = 0 then .off
  else .driving

/-- The open condition of a channel (R154). -/
def State.openCondition (s : State) (ch : OutCh) : Bool :=
  s.outState ch = .driving && 100 ≤ (s.os.get ch).inForce && (s.os.get ch).measured < 20

/-- The clutch on a channel (R74, R149). -/
def clutchOf : OutCh → Option Clutch
  | .oc0 => some .cf | .oc1 => some .cr | .oc2 => some .ca | .oc3 => some .cb | .oc4 => some .cc
  | .oc5 => some .c1 | .oc6 => some .c2 | .oc7 => some .c3 | .oc8 => some .c4
  | .oc9 | .oc10 | .oc11 | .oc12 => none

/-- The current the commanding unit of a channel commands (R149). -/
def State.commanded (s : State) (ch : OutCh) : Nat :=
  match clutchOf ch with
  | some c => (s.sq.clutch.get c).current
  | none =>
    match ch with
    | .oc9 => s.acuCurrent
    | .oc10 => s.hrRaise
    | .oc11 => s.hrLower
    | _ => s.tbuCurrent

/-- In RUN each unit hands its setpoints into the pending slots; above 2000 mA counts as 2000 mA (R149, R150, R156). -/
def State.handSetpoints (s : State) : State :=
  if s.running then
    { s with os := .tabulate fun ch => { s.os.get ch with pending := min 2000 (s.commanded ch) } }
  else s

/-- A channel that is not DRIVING has no open-load timer and is not regulating (R151, R153 to R155). -/
def State.osGuard (s : State) : State :=
  { s with
    os := .tabulate fun ch =>
      let r := s.os.get ch
      if s.outState ch = .driving then r else { r with openTimer := none, regulating := false } }

/-- One channel at the end of a period: its mean current is measured and the open-load timer follows the open condition of
the period that ends (R152, R154). -/
def State.endPeriod (s : State) (mean : ByOut Word) : State :=
  let m : State := { s with os := .tabulate fun ch => { s.os.get ch with measured := (mean.get ch).toNat } }
  { m with
    os := .tabulate fun ch =>
      let r := m.os.get ch
      { r with openTimer := r.openTimer.follow (m.openCondition ch) m.now } }

/-- One channel loads its pending setpoint (R150). -/
def State.loadSetpoints (s : State) : State :=
  { s with os := .tabulate fun ch => { s.os.get ch with inForce := (s.os.get ch).pending } }

/-- The dither phase of each channel for the period that begins: positive for the first driven period, then of the other
sign each time (R151, R152). -/
def State.turnDither (s : State) : State :=
  { s with
    os := .tabulate fun ch =>
      let r := s.os.get ch
      if s.outState ch = .driving then
        { r with ditherPositive := !(r.regulating && r.ditherPositive), regulating := true }
      else r }

/-- The target of a channel's regulation (R152): the setpoint in force plus or minus the dither, within 0 to 2000 mA. -/
def State.target (s : State) (ch : OutCh) : Nat :=
  let r := s.os.get ch
  let a := ditherOf s.items ch
  min 2000 (if r.ditherPositive then r.inForce + a else r.inForce - a)

/-- The current an output channel is regulated to. None flows in any state but DRIVING, and a channel that has entered
DRIVING starts regulating at the next period boundary (R151, R153, R155); until then its switch stays open (log 47). -/
def State.outputCurrent (s : State) (ch : OutCh) : Nat :=
  if s.outState ch = .driving && (s.os.get ch).regulating then s.target ch else 0

/-- STOP sets every setpoint to 0 and discards every open-load timer; trip latches stay (R156). -/
def State.osStop (s : State) : State :=
  { s with
    os := .tabulate fun ch => { s.os.get ch with inForce := 0, pending := 0, openTimer := none, regulating := false } }

end Sys2Proof.Machine
end

