-- ==== Sys2Proof/Machine/Settle.lean ====
section
/-! DEFINITION. What follows from any change at the end of the event that made it: timers that run while a test holds, the
GEAR cause, commanded currents, setpoints and keepings (log 17, log 25); and the ACTIVE tests (R159). -/

namespace Sys2Proof.Machine

/-- The AUTO timers, the band refusals and the GEAR_SLIP timer follow their tests (R93, R100). A GEAR_SLIP check that stops ends
the slip it watched: one that is there when the check runs again is timed and reported afresh (log 40). -/
def State.sqGuard (s : State) : State :=
  let runs := s.autoRuns
  let drive : Bool := s.seqState = .drive
  { s with
    sq := { s.sq with
      up := s.sq.up.follow (runs && s.wantsUp) s.now,
      down := s.sq.down.follow (runs && s.wantsDown) s.now,
      refusalUp := s.sq.refusalUp && drive && (s.pub.engine.isNone || s.wantsUp),
      refusalDown := s.sq.refusalDown && drive && (s.pub.engine.isNone || s.wantsDown),
      slip := s.sq.slip.follow s.gearSlips s.now } }

/-- A change of the gear record sets GEAR at both ports, and a new gear number reaches the condition terms (R75, R35). -/
def State.gearReport (s : State) (old : Sq) : State :=
  let s1 := if s.sq.record = old.record then s else s.setCauseBoth .gear
  if s.sq.gearNumber = old.gearNumber then s1 else s1.lcuGear

/-- The AXLE_MISMATCH and tracking timers follow their tests (R115, R144). A check that stops ends the disagreement it watched:
one that goes on when the check runs again is timed and reported afresh (log 40). -/
def State.unitGuards (s : State) : State :=
  { s with
    acu := { s.acu with mismatch := s.acu.mismatch.follow s.acuMismatch s.now },
    tbu := { s.tbu with tracking := s.tbu.tracking.follow s.tbuMisses s.now } }

/-- The currents the SQ commands are brought up to date (R74). -/
def State.clutchCurrents (s : State) : State :=
  { s with
    sq := { s.sq with clutch := .tabulate fun c => { s.sq.clutch.get c with current := s.clutchCurrent c } } }

/-- Each job unit writes the keeping of its channel's governing order where it has changed (R15). -/
def State.keepAll (s : State) : State :=
  if s.running then
    let s := s.writeKeeping .gear s.sqKeeping
    let s := s.writeKeeping .axle s.acuKeeping
    let s := s.writeKeeping .hitch s.hrKeeping
    s.writeKeeping .tbrake s.tbuKeeping
  else s

/-- The end of an event that began in a state whose sequencer was `old`. -/
def State.settle (s : State) (old : Sq) : State :=
  (((((((s.osGuard.sqGuard).gearReport old).followLost).followMismatch).unitGuards).clutchCurrents).handSetpoints).keepAll

/-! Events, and the times they wait for. -/

/-- An event: where its condition holds it has its effect, and what follows from it comes about (R15, log 25). -/
def State.event (s : State) (cond : Bool) (f : State → State) : State := if cond then (f s).settle s.sq else s

/-- The turn of the timebase to the next millisecond, ahead of that millisecond's publication (log 3). -/
def State.turned (s : State) : State := s.tick.settle s.sq

/-- The state in which the end of a time is taken: as it stands where the time has come; else, where the publication of the
present millisecond has been taken and the time comes with the next one, that millisecond has come (log 3). -/
def State.reach (s : State) (due : State → Bool) : State :=
  if !due s && s.mu.published && due s.turned then s.turned else s

/-- An event that the end of a time brings. -/
def State.expire (s : State) (due : State → Bool) (f : State → State) : State :=
  let u := s.reach due
  u.event (due u) f

/-! ACTIVE (R159): each kind's test as its unit states it. -/

/-- SENSOR_RANGE is ACTIVE (R51). -/
def State.rangeActive (s : State) : Bool :=
  ConvCh.all.any fun ch =>
    let r := s.mu.conv.get ch
    r.window = .outOfRange && !r.inside

/-- A kind is ACTIVE. FLOW_STARVED, SYNC_TIMEOUT and OUT_SHORT never are to a request (R159). -/
def State.active (s : State) (k : FaultKind) : Bool :=
  match k with
  | .outOpen => OutCh.all.any s.openCondition
  | .outShort | .flowStarved | .syncTimeout => false
  | .sensorRange => s.rangeActive
  | .speedLost => SpeedCh.all.any s.silent
  | .speedMismatch => s.disagree
  | .clutchHot => Clutch.all.any fun c => (s.sq.clutch.get c).hot
  | .gearSlip => s.gearSlips
  | .axleMismatch => s.acuMismatch
  | .hitchStall => s.hr.stallActive.isSome
  | .tbrakeTracking => s.tbuMisses
  | .supplyLow => s.mu.supplyLow
  | .breakaway => s.inputs.breakaway
  | .enableLost => !s.enable

end Sys2Proof.Machine
end

