-- ==== Sys2Proof/Machine/Views.lean ====
section
/-! DEFINITION. The nine status views (R58, R71, R104, R118, R135, R148, R157, R179) in the value order of chapter 13.3. -/

namespace Sys2Proof.Machine

/-- An available value, or 0. -/
def natView (v : Option Nat) : Word := viewNat (v.getD 0)

def intView (v : Option Int) : Word := Word.ofInt (v.getD 0)

def boolBit (b : Bool) (i : Nat) : Nat := if b then 2 ^ i else 0

/-- A set of marks as a value: mark `i` in bit `i`. -/
def bitSet (bs : List Bool) : Word := Word.ofNat ((bs.zipIdx.map fun (b, i) => boolBit b i).sum)

/-- The handle of an order as taken, the empty handle before the first. -/
def takenHandle (t : Option Taken) : Word := ((t.map Taken.handle).getD Handle.empty).word

/-! MEASURE (R58). -/

def ChanState.code : ChanState → Nat
  | .valid => 0
  | .still => 1
  | .lost => 2

def Window.code : Window → Nat
  | .inWindow => 0
  | .outPending _ => 1
  | .outOfRange => 2

def Band.code : Band → Nat
  | .released => 0
  | .modulating => 1
  | .pressed => 2

def Source.code : Source → Nat
  | .radar => 0
  | .wheel => 1

/-- The converter value of a set of quantities. -/
def Pub.conv (p : Pub) : ConvCh → Option Int
  | .hitchPos => p.position.map Int.ofNat
  | .draftL => p.draftL
  | .draftR => p.draftR
  | .brakeL => p.brakeL.map Int.ofNat
  | .brakeR => p.brakeR.map Int.ofNat
  | .inch => p.pedal.map Int.ofNat
  | .tsupply => p.line.map Int.ofNat
  | .supply => p.supply.map Int.ofNat

/-- The quantities that are unavailable, in the order of the availability set. -/
def Pub.unavailable (p : Pub) : List Bool :=
  [p.engine.isNone, p.wheel.isNone, p.front.isNone, p.radar.isNone, p.ground.isNone, p.slip.isNone, p.position.isNone,
   p.draftL.isNone, p.draftR.isNone, p.draft.isNone, p.brakeL.isNone, p.brakeR.isNone, p.service.isNone, p.pedal.isNone,
   p.line.isNone, p.supply.isNone]

/-- The MU as it stands: channels, and the quantities they give at this moment (R58, log 16); before the first publication no
quantity has a value (R44). -/
def State.measured (s : State) : Pub :=
  let p := s.publication
  if s.mu.begun then p else { Pub.none with chans := p.chans, windows := p.windows, raws := p.raws }

/-- The MEASURE view (R58). -/
def State.measureView (s : State) : List Word :=
  let p := s.measured
  SpeedCh.all.map (fun ch => Word.ofNat (p.chans.get ch).code) ++
  [natView p.engine, natView p.wheel, natView p.front, natView p.radar, natView p.ground, Word.ofNat p.source.code,
   natView p.slip] ++
  ConvCh.all.map (fun ch => Word.ofNat (p.windows.get ch).code) ++
  ConvCh.all.map (fun ch => intView (p.conv ch)) ++
  ConvCh.all.map (fun ch => (p.raws.get ch).setWidth 16) ++
  [intView p.draft, natView p.service, Word.ofNat p.band.code, bitSet p.unavailable] ++ timeWords s.now

/-! FLOW (R71). -/

def ReqState.code : ReqState → Nat
  | .idle => 0
  | .waiting => 1
  | .granted => 2

/-- The lift entry's state, worked out from its amounts (R60). -/
def Flow.liftCode (f : Flow) : Nat := if f.liftAsked = 0 then 0 else if f.liftGranted < f.liftAsked then 1 else 2

/-- The classes on the wait list in list order (R62). -/
def Flow.waitList (f : Flow) : List Nat :=
  (if f.fill.state = .waiting then [0] else []) ++ (if f.axle.state = .waiting then [1] else []) ++
    (if f.liftCode = 1 then [2] else [])

/-- The time waited by an entry; 0 when not WAITING or under the hold (R71). -/
def FlowEntry.waited (e : FlowEntry) (now : Time) : Word :=
  match e.wait with
  | some t => viewNat (elapsed now t)
  | none => 0

def siteWord (c : Option Clutch) : Word :=
  match c with
  | some c => Word.ofNat c.code
  | none => noSite

def State.flowView (s : State) : List Word :=
  let f := s.flow
  let w := f.waitList
  [itemValue s.items 12 0, itemValue s.items 12 1, itemValue s.items 12 2, itemValue s.items 12 3,
   viewNat (f.available (flowBudget s.items)), Word.mark f.hold,
   Word.ofNat f.fill.state.code, viewNat f.fill.asked, viewNat f.fill.granted, siteWord f.fillSite, f.fill.waited s.now,
   Word.ofNat f.axle.state.code, viewNat f.axle.asked, viewNat f.axle.granted, f.axle.waited s.now,
   Word.ofNat f.liftCode, viewNat f.liftAsked, viewNat f.liftGranted, Word.ofNat w.length] ++
  (List.range 3).map fun i => match w[i]? with | some c => Word.ofNat c | none => 0xFFFF

/-! GEAR and CLUTCH (R104). -/

def SeqState.code : SeqState → Nat
  | .stopped => 0 | .neutral => 1 | .preselect => 2 | .engage => 3 | .drive => 4 | .powershift => 5 | .shuttle => 6
  | .inch => 7 | .disengage => 8 | .halt => 9

def dirCode : Option Dir → Nat
  | none => 0
  | some .forward => 1
  | some .reverse => 2

def rangeCode (r : Option Range) : Nat := match r with | none => 0 | some r => r.num + 1

def stepCode (t : Option StepNo) : Nat := match t with | none => 0 | some t => t.num + 1

def StepKind.code : StepKind → Nat
  | .single => 0 | .range => 1 | .shuttle => 2 | .free => 3 | .engage => 4 | .neutralize => 5

def phaseCode : Option Phase → Nat
  | none => 0
  | some .flowWait => 1
  | some .fill => 2
  | some .hold => 3
  | some .rampOn => 4
  | some .sync => 5
  | some .rampOff => 6

/-- The resulting direction and gear of a step as a gear site; free where there is no complete one (log 14). -/
def Conf.word (c : Conf) : Word :=
  match c.dir, c.gear with
  | some d, some g => gearSite d g
  | _, _ => Config.partialGearSite (dirCode c.dir) (rangeCode c.range) (stepCode c.step)

def GearStep.words (st : GearStep) : List Word :=
  [Word.ofNat st.kind.code, st.result.word, Word.mark st.phase.isSome, Word.ofNat (phaseCode st.phase)]

/-- The four steps of the queue, values of 0 past its end. -/
def Sq.queueWords (q : Sq) : List Word :=
  ((List.range 4).map fun i => match q.queue[i]? with | some st => st.words | none => [0, 0, 0, 0]).flatten

def State.gearView (s : State) : List Word :=
  let q := s.sq
  let f := q.flags
  [Word.ofNat s.seqState.code, Word.ofNat (dirCode q.engaged), Word.ofNat (rangeCode q.range),
   Word.ofNat (stepCode q.step), Word.ofNat q.gearNumber, Word.mark q.interlock, Word.ofNat q.autoTarget,
   Word.ofNat (dirCode q.takeUp), Word.ofNat s.pub.band.code,
   bitSet [f.draftFreeze, f.assistWindow, f.releaseDeferral], Word.ofNat q.queue.length] ++ q.queueWords ++
  [match q.started with | some st => viewNat (elapsed s.now st.phaseStart) | none => 0,
   q.up.ran s.now, q.down.ran s.now, takenHandle q.taken]

def ClutchState.code : ClutchState → Nat
  | .opened => 0 | .fill => 1 | .hold => 2 | .rampOn => 3 | .sync => 4 | .locked => 5 | .rampOff => 6

def State.clutchView (s : State) : List Word :=
  (Clutch.all.map fun c =>
    let r := s.sq.clutch.get c
    [Word.ofNat r.state.code, viewNat r.current, Word.ofInt r.fillOffset, Word.ofInt r.trend, viewNat r.heat,
     Word.mark r.hot]).flatten

/-! AXLE (R118). -/

def Coupling.code : Coupling → Nat
  | .engaged => 0 | .releaseWait => 1 | .releasing => 2 | .released => 3 | .engaging => 4

/-- The speed-only fallback of R108 is in force: that of the order last taken, with the last publication, in CONFIG too (log
57). -/
def State.acuSpeedOnly (s : State) : Bool := s.acu.auto && s.pub.slip.isNone && s.pub.ground.isSome

/-- The AXLE view; a speed that is unavailable reads 0 (log 39). -/
def State.axleView (s : State) : List Word :=
  let a := s.acu
  [Word.ofNat a.coupling.code, Word.mark s.acuWishReleased, Word.mark s.acuWantsReleased,
   bitSet [!s.enable, s.acuDegraded, a.openMark, a.shortMark], Word.mark a.latch, a.setTimer.ran s.now,
   a.clearTimer.ran s.now, Word.mark s.acuSpeedOnly, a.fill.ran s.now,
   a.settle.ran s.now, Word.mark s.sq.flags.releaseDeferral, natView s.pub.front,
   natView s.pub.wheel, a.mismatch.ran s.now, viewNat s.acuCurrent, takenHandle a.taken]

/-! HITCH (R135). -/

def HitchMode.code : HitchMode → Nat
  | .hold => 0 | .regulating => 1 | .liftWait => 2 | .transport => 3

def Motion.code : Motion → Nat
  | .idle => 0 | .raise => 1 | .lower => 2

/-- The effective setpoint of the view (R135). -/
def Hr.viewSetpoint (h : Hr) : Word :=
  match h.mode with
  | .hold => natView h.holdPos
  | .transport => natView h.transportPos
  | .regulating | .liftWait => Word.ofInt h.effective

def Hr.stallTimer (h : Hr) : Timer := h.stall.map StallRun.run

/-- The HITCH view. The draft fallback mark is that of the order last taken, in every mode, HOLD and CONFIG included (log
49), and in MIXED with mix 0 under a freeze begun without a draft (log 60). -/
def State.hitchView (s : State) : List Word :=
  let h := s.hr
  [Word.ofNat h.mode.code, Word.ofNat h.motion.code, h.viewSetpoint, Word.ofInt h.error, natView s.pub.position,
   intView s.pub.draft, intView h.frozen, Word.mark h.frozen.isSome, viewNat h.trim, h.excess.ran s.now,
   h.step.ran s.now, viewNat h.asked, viewNat h.granted, viewNat (min 2000 s.hrRaise), viewNat (min 2000 s.hrLower),
   viewNat h.ceiling, h.deviation.ran s.now, h.stallTimer.ran s.now,
   bitSet [h.stallMark, h.openMark, h.shortMark, h.draftMode && s.draftFallback, h.clamp], takenHandle h.taken]

/-! TRAILER (R148). -/

def TrailerState.code : TrailerState → Nat
  | .detached => 0 | .released => 1 | .braking => 2 | .assist => 3 | .emergency => 4

def State.trailerView (s : State) : List Word :=
  let t := s.tbu
  [Word.ofNat s.tbuState.code, Word.mark t.presence, Word.mark s.inputs.trailerPresent, t.debounce.ran s.now,
   Word.mark s.inputs.breakaway, t.breakTimer.ran s.now, natView s.pub.brakeL, natView s.pub.brakeR,
   viewNat s.tbuLaw, viewNat s.tbuDemand, Word.mark s.sq.flags.assistWindow, Word.mark (s.tbuState = .assist),
   natView s.pub.line, t.tracking.ran s.now, viewNat s.tbuCurrent, bitSet [t.openMark, t.shortMark],
   takenHandle t.taken]

/-! OUTPUT (R157). -/

def OutState.code : OutState → Nat
  | .off => 0 | .driving => 1 | .gated => 2 | .tripped => 3

def State.outputView (s : State) : List Word :=
  (OutCh.all.map fun ch =>
    let r := s.os.get ch
    [Word.ofNat (s.outState ch).code, viewNat r.inForce, viewNat r.pending, viewNat r.measured,
     r.openTimer.ran s.now, viewNat (ditherOf s.items ch)]).flatten ++ [Word.mark s.enable]

/-! PORTS (R179). -/

/-- The rights of a port in views: CAB's fixed right reads 2 (chapter 13.2). -/
def State.rightsView (s : State) : Port → List Word
  | .cab => [2, 2, 2, 2]
  | .implement => [itemValue s.items 25 0, itemValue s.items 25 1, itemValue s.items 25 2, itemValue s.items 25 3]

def State.portView (s : State) (p : Port) : List Word :=
  let r := s.port p
  [viewNat (s.live p), itemValue s.items 24 p.code, Word.ofNat r.changed.length, r.causes.setWidth 16,
   r.causeMask.setWidth 16, Word.mark r.asserted,
   match r.throttle with | some t => viewNat (remaining s.now t) | none => 0, itemValue s.items 26 p.code] ++
  s.rightsView p ++ [viewNat r.badFrames, viewNat r.busys]

def State.portsView (s : State) : List Word := s.portView .cab ++ s.portView .implement

/-- A view by its code (chapter 13.2). -/
def State.view (s : State) (code : Byte) : Option (List Word) :=
  match code.toNat with
  | 0 => some s.measureView
  | 1 => some s.flowView
  | 2 => some s.gearView
  | 3 => some s.clutchView
  | 4 => some s.axleView
  | 5 => some s.hitchView
  | 6 => some s.trailerView
  | 7 => some s.outputView
  | 8 => some s.portsView
  | _ => none

end Sys2Proof.Machine
end

