-- ==== Sys2Proof/Machine/Port.lean ====
section
/-! DEFINITION. Transactions, answers, and the port reset: what every request shares (R169 to R173, R178). -/

namespace Sys2Proof.Machine

/-! Answers. -/

/-- An answer to a request that names no order: empty handle, state DORMANT, generation 0 (R172). -/
def Answer.plain (code tag : Byte) (r : Result) (vals : Values) : Answer := ⟨code, tag, r, .dormant, .empty, 0, vals⟩

/-- An answer with a result, a code and a tag, and 0 in every other field: PENDING, BUSY and BAD_FRAME (R170, R171). -/
def Answer.bare (code tag : Byte) (r : Result) : Answer := ⟨code, tag, r, .dormant, ⟨0, 0⟩, 0, .zero⟩

/-- The STALE answer (R17). -/
def Answer.stale (code tag : Byte) (h : Handle) : Answer := ⟨code, tag, .stale, .dormant, h, 0, .zero⟩

/-- An answer about an order, with its state and generation as they stand (R17). -/
def State.answerOn (s : State) (code tag : Byte) (r : Result) (h : Handle) (vals : Values) : Answer :=
  match s.order h.slot.toNat with
  | some o => ⟨code, tag, r, o.state, h, o.gen, vals⟩
  | none => ⟨code, tag, r, .dormant, h, 0, vals⟩

/-- The bytes of an answer frame before its check (chapter 13.1). -/
def Answer.body (a : Answer) (result : Byte) : List Byte :=
  [a.code, a.tag, result, BitVec.ofNat 8 a.state.code, a.handle.slot, a.handle.inc, a.gen.hi, a.gen.lo] ++ a.vals.bytes

/-- An answer frame: 24 bytes and the check byte (R186). -/
def Answer.frame (a : Answer) : List Byte := closeFrame (a.body a.result.code)

/-- The byte clocked out at a position of a transaction, however long: the answer frame, and 0 after its 25th byte (R169,
R171). -/
def Answer.clocked (a : Answer) (n : Nat) : Byte := a.frame.getD n 0

/-! Transactions (R169, R170, R178). -/

/-- The fall of chip-select at a port with no transaction under way: what the transaction clocks out, and what becomes of
its request. -/
def PortRec.fall (r : PortRec) : PortRec :=
  if r.resetHeld then { r with dataOut := .noneAnswer, txn := some ⟨false, true⟩ }
  else
    match r.inFlight with
    | some a => { r with dataOut := .bare a.code a.tag .pending, txn := some ⟨true, false⟩ }
    | none => { r with dataOut := r.slot, txn := some ⟨false, false⟩ }

/-- A fall with a transaction already under way is none. -/
def PortRec.begin (r : PortRec) : PortRec := if r.txn.isSome then r else r.fall

/-- A count that stops at 65535 (R179). -/
def countUp (n : Nat) : Nat := min 65535 (n + 1)

/-- What the rise of chip-select does with the request of a transaction. -/
inductive Rise where
  | discard | refuse | take
deriving DecidableEq, Repr

def PortRec.rise (r : PortRec) : Rise :=
  match r.txn with
  | some t => if r.resetHeld || t.discard then .discard else if t.refused then .refuse else .take
  | none => if r.resetHeld then .discard else .take

/-- The BUSY refusal at the rise (R170). -/
def PortRec.refuse (r : PortRec) (code tag : Byte) : PortRec :=
  { r with txn := none, slot := .bare code tag .busy, inFlight := none, busys := countUp r.busys }

/-- A request at a port, from the rise of chip-select that ends its transaction (the fall is implied where none came
before, log 5) to the answer in flight (log 6). `run` is the request at its block; it gives no answer only for PORT_RESET. -/
def State.request (s : State) (p : Port) (code tag : Byte) (run : State → State × Option Answer) : State :=
  let r := (s.port p).begin
  match r.rise with
  | .discard => s.setPort p { r with txn := none }
  | .refuse => s.setPort p (r.refuse code tag)
  | .take =>
    let t := run (s.setPort p { r with txn := none })
    match t.2 with
    | some a => t.1.setPort p { t.1.port p with inFlight := some a }
    | none => t.1

/-- A request that changes nothing but its port: its answer read off the state. -/
def State.query (s : State) (p : Port) (code tag : Byte) (answer : State → Answer) : State :=
  s.request p code tag fun t => (t, some (answer t))

/-- A request of the CAB port alone: from IMPLEMENT it is answered DENIED and reaches no block (R173). -/
def State.cabRequest (s : State) (p : Port) (code tag : Byte) (run : State → State × Answer) : State :=
  s.request p code tag fun t =>
    match p with
    | .cab => let r := run t; (r.1, some r.2)
    | .implement => (t, some (.plain code tag .denied .zero))

/-- The completion of the request in flight: its answer goes into the slot, or is discarded when a transaction began first
(R169, R170). -/
def PortRec.answer (r : PortRec) : PortRec :=
  match r.inFlight with
  | some a =>
    if r.txn.any Txn.refused then { r with inFlight := none } else { r with slot := a, inFlight := none }
  | none => r

/-! Port reset (R178). -/

/-- The port's own part of a reset: everything but the freeing of its orders. The line deasserts as it stood before the
event. -/
def PortRec.cleared (r : PortRec) (now : Time) (throttle : Nat) : PortRec :=
  let d := if r.asserted then r.deassert now throttle else r
  { d with
    slot := .noneAnswer, inFlight := none, changed := [], causes := 0, causeMask := 0, badFrames := 0, busys := 0 }

/-- The reset of a port (R178). -/
def State.resetPort (s : State) (p : Port) : State :=
  let s1 := s.setPort p ((s.port p).cleared s.now (throttleMs s.items p))
  let s2 := { s1 with fu := { s1.fu with mask := s1.fu.mask.set p 0 } }
  ((s2.freeAndResolve fun o => o = (ownerOf p)).settle s.sq).attend p

end Sys2Proof.Machine
end

