-- ==== Sys2Proof/Machine/OrderRequests.lean ====
section
/-! DEFINITION. The requests on orders: PLACE, READ, AMEND, RENEW, RETIRE, FIND, LIST (chapter 1.7). -/

namespace Sys2Proof.Machine

/-! PLACE (R18, R19). -/

/-- The right of a port to place a class on a channel (R18, R173). -/
def State.mayPlace (s : State) (p : Port) (ch : Channel) (cls : Nat) : Bool :=
  match p, cls with
  | .cab, 1 | .cab, 2 | .cab, 3 => true
  | .implement, 2 | .implement, 3 => itemNat s.items 25 ch.code = 1
  | _, _ => false

/-- The order a PLACE writes (R9, R19). -/
def placed (p : Port) (ch : Channel) (cls terms : Nat) (lease : Word) (v : Values) : Order where
  channel := ch
  cls := cls
  owner := ownerOf p
  state := .dormant
  keeping := .none
  lease := lease
  termCount := terms
  setpoint := v
  term1 := .blank
  term2 := .blank
  gen := 1
  cond := terms = 0
  lcuCond := terms = 0

/-- The checks of R18 in their order; the slot to take when they pass. -/
def State.placeCheck (s : State) (p : Port) (ch : Channel) (cls terms : Nat) (lease : Word) (v : Values) :
    Except Result Nat :=
  if !s.running then .error .badState
  else if !s.mayPlace p ch cls then .error .denied
  else if !(leaseOk (ownerOf p) lease && terms ≤ 2 && setpointOk ch v) then .error .range
  else if quota s.items p ≤ s.live p then .error .quota
  else match s.freeSlot with
    | some k => .ok k
    | none => .error .tableFull

/-- The creation of an order in a slot (R19). -/
def State.placeAt (s : State) (p : Port) (k : Nat) (o : Order) : State :=
  let s1 := (s.setOrder k o).setLive p (s.live p + 1)
  let s2 := s1.moveFront o.channel k
  let s3 := if o.lease = 0 then s2 else s2.restartLease k o.lease
  s3.resolve o.channel (some k) none

/-- PLACE at its block. The eight values of the answer are read at the end of the event, so that field 4 shows the keeping that
the job unit wrote as it took the new order (log 35). -/
def State.runPlace (s : State) (p : Port) (tag channel cls terms : Byte) (lease : Word) (v : Values) : State × Answer :=
  match channelOf channel with
  | none => (s, .plain 1 tag .badRequest .zero)
  | some ch =>
    if 3 < cls.toNat then (s, .plain 1 tag .badRequest .zero)
    else
      match s.placeCheck p ch cls.toNat terms.toNat lease v with
      | .error r => (s, .plain 1 tag r .zero)
      | .ok k =>
        let t := (s.placeAt p k (placed p ch cls.toNat terms.toNat lease v)).settle s.sq
        let vals : Values := match t.order k with | some o => .ofList (t.fieldRun k o 0 8) | none => .zero
        (t, t.answerOn 1 tag .ok (t.handle k) vals)

/-- PLACE. -/
def execPlace (p : Port) (tag channel cls terms : Byte) (lease : Word) (v : Values) (s : State) :
    Host.Outcome State Fault Refusal :=
  .next (s.request p 1 tag fun t => let r := t.runPlace p tag channel cls terms lease v; (r.1, some r.2))

/-! READ (R26). -/

def State.readAnswer (s : State) (tag slot inc first count : Byte) : Answer :=
  let h : Handle := ⟨slot, inc⟩
  match s.lookup h with
  | none => .stale 2 tag h
  | some o =>
    let n := count.toNat
    if 1 ≤ n ∧ n ≤ 8 ∧ first.toNat + n ≤ 24 then
      s.answerOn 2 tag .ok h (.ofList (s.fieldRun slot.toNat o first.toNat n))
    else s.answerOn 2 tag .badField h .zero

/-- READ. -/
def execRead (p : Port) (tag slot inc first count : Byte) (s : State) : Host.Outcome State Fault Refusal :=
  .next (s.query p 2 tag fun t => t.readAnswer tag slot inc first count)

/-! AMEND (R20, R21). -/

/-- A field lies in the run of an AMEND. -/
def inRun (first n i : Nat) : Bool := first ≤ i && i < first + n

/-- The checks of R20 from the owner on, in their order; the amended record when they pass. -/
def Order.amendCheck (o : Order) (p : Port) (first n : Nat) (gen : Word) (v : Values) : Except Result Order :=
  if o.owner ≠ (ownerOf p) then .error .denied
  else if o.state = .lapsed then .error .lapsed
  else if gen ≠ o.gen then .error .conflict
  else if 8 < n || !((List.range n).all fun i => o.writable (first + i)) then .error .badField
  else
    let o' := o.writeFields first (v.toList.take n)
    if o'.inRange then .ok o' else .error .range

/-- The terms a run writes a field of are handed to the LCU once set (R9, R21). -/
def State.handTerms (s : State) (o : Order) (first n : Nat) : Order :=
  let touched (base : Nat) : Bool := (List.range 4).any fun i => inRun first n (base + i)
  { o with
    term1 := if touched 16 then s.handTerm o.term1 else o.term1,
    term2 := if touched 20 then s.handTerm o.term2 else o.term2 }

/-- The effect of an AMEND (R21) on the order in slot `k`. -/
def State.amendAt (s : State) (k : Nat) (o : Order) (first n : Nat) (front : Bool) : State :=
  let o1 := { o with gen := if n = 0 then o.gen else nextGen o.gen }
  let o2 := s.handTerms o1 first n
  let s1 := if o.termCount = 0 then s.setOrder k o2 else s.lcuReport k o2
  let s2 := if inRun first n 5 then s1.restartLease k o.lease else s1
  let s3 := if front then s2.moveFront o.channel k else s2
  let setpoint := (List.range 8).any fun i => inRun first n (8 + i)
  s3.resolve o.channel none (if setpoint then some k else none)

def State.runAmend (s : State) (p : Port) (tag slot inc first : Byte) (front : Bool) (count : BitVec 7) (gen : Word)
    (v : Values) : State × Answer :=
  let h : Handle := ⟨slot, inc⟩
  match s.lookup h with
  | none => (s, .stale 3 tag h)
  | some o =>
    match o.amendCheck p first.toNat count.toNat gen v with
    | .error r => (s, s.answerOn 3 tag r h .zero)
    | .ok o' =>
      let t := (s.amendAt slot.toNat o' first.toNat count.toNat front).settle s.sq
      (t, t.answerOn 3 tag .ok h .zero)

/-- AMEND. -/
def execAmend (p : Port) (tag slot inc first : Byte) (front : Bool) (count : BitVec 7) (gen : Word) (v : Values)
    (s : State) : Host.Outcome State Fault Refusal :=
  .next (s.request p 3 tag fun t =>
    let r := t.runAmend p tag slot inc first front count gen v
    (r.1, some r.2))

/-! RENEW (R22). -/

def State.runRenew (s : State) (p : Port) (tag slot inc : Byte) : State × Answer :=
  let h : Handle := ⟨slot, inc⟩
  match s.lookup h with
  | none => (s, .stale 4 tag h)
  | some o =>
    if o.owner ≠ (ownerOf p) then (s, s.answerOn 4 tag .denied h .zero)
    else if o.state = .lapsed then (s, s.answerOn 4 tag .lapsed h .zero)
    else
      let t := if o.lease = 0 then s else s.restartLease slot.toNat o.lease
      (t, t.answerOn 4 tag .ok h { Values.zero with v1 := Word.ofNat (t.leaseRemaining slot.toNat) })

/-- RENEW. -/
def execRenew (p : Port) (tag slot inc : Byte) (s : State) : Host.Outcome State Fault Refusal :=
  .next (s.request p 4 tag fun t => let r := t.runRenew p tag slot inc; (r.1, some r.2))

/-! RETIRE (R23). -/

def State.runRetire (s : State) (p : Port) (tag slot inc : Byte) (gen : Word) : State × Answer :=
  let h : Handle := ⟨slot, inc⟩
  match s.lookup h with
  | none => (s, .stale 5 tag h)
  | some o =>
    if o.owner ≠ (ownerOf p) then (s, s.answerOn 5 tag .denied h .zero)
    else if gen ≠ 0 ∧ gen ≠ o.gen then (s, s.answerOn 5 tag .conflict h .zero)
    else
      let t := ((s.freeOrder slot.toNat o).resolve o.channel none none).settle s.sq
      (t, ⟨5, tag, .ok, o.state, h, o.gen, .zero⟩)

/-- RETIRE. -/
def execRetire (p : Port) (tag slot inc : Byte) (gen : Word) (s : State) : Host.Outcome State Fault Refusal :=
  .next (s.request p 5 tag fun t => let r := t.runRetire p tag slot inc gen; (r.1, some r.2))

/-! FIND and LIST (R24, R25). -/

def State.findAnswer (s : State) (tag channel : Byte) : Answer :=
  match channelOf channel with
  | none => .plain 6 tag .badRequest .zero
  | some ch =>
    match s.governing ch with
    | none => .plain 6 tag .ok .zero
    | some k =>
      let vals : Values :=
        match s.order k with
        | some o =>
          .ofList [Word.ofNat o.owner.code, Word.ofNat o.cls, o.keeping.code, Word.ofNat (s.list ch).length]
        | none => .zero
      s.answerOn 6 tag .ok (s.handle k) vals

/-- FIND. -/
def execFind (p : Port) (tag channel : Byte) (s : State) : Host.Outcome State Fault Refusal :=
  .next (s.query p 6 tag fun t => t.findAnswer tag channel)

def State.listAnswer (s : State) (tag channel position : Byte) : Answer :=
  match channelOf channel with
  | none => .plain 7 tag .badRequest .zero
  | some ch =>
    if 41 < position.toNat then .plain 7 tag .range .zero
    else
      let l := s.list ch
      let entry (i : Nat) : Word :=
        match l[position.toNat + i]? with | some k => (s.handle k).word | none => Handle.empty.word
      { Answer.plain 7 tag .ok (.ofList ((List.range 8).map entry)) with gen := Word.ofNat l.length }

/-- LIST. -/
def execList (p : Port) (tag channel position : Byte) (s : State) : Host.Outcome State Fault Refusal :=
  .next (s.query p 7 tag fun t => t.listAnswer tag channel position)

end Sys2Proof.Machine
end

