-- ==== Sys2Proof/Machine/PortRequests.lean ====
section
/-! DEFINITION. The requests on ports and views, and the port events (chapter 11). -/

namespace Sys2Proof.Machine

/-- NOP (R172). -/
def execNop (p : Port) (tag : Byte) (s : State) : Host.Outcome State Fault Refusal :=
  .next (s.query p 0 tag fun _ => .plain 0 tag .ok .zero)

/-! COLLECT, CAUSES, masks (R174 to R176). -/

/-- The answer of COLLECT: up to eight slots, the lowest first, and the number that remains. -/
def collectAnswer (tag : Byte) (l : List Nat) : Answer :=
  let code (i : Nat) : Word := match (l.take 8)[i]? with | some k => Word.ofNat k | none => 0xFFFF
  { Answer.plain 8 tag .ok (.ofList ((List.range 8).map code)) with gen := Word.ofNat (l.drop 8).length }

def State.runCollect (s : State) (p : Port) (tag : Byte) : State × Answer :=
  let r := s.port p
  (s.setPort p { r with changed := r.changed.drop 8 }, collectAnswer tag r.changed)

/-- COLLECT. -/
def execCollect (p : Port) (tag : Byte) (s : State) : Host.Outcome State Fault Refusal :=
  .next (s.request p 8 tag fun t => let r := t.runCollect p tag; (r.1, some r.2))

def State.runCauses (s : State) (p : Port) (tag : Byte) : State × Answer :=
  let r := s.port p
  ((s.setPort p { r with causes := 0 }).attend p,
   .plain 9 tag .ok
    (.ofList [r.causes.setWidth 16, r.causeMask.setWidth 16, Word.ofNat r.changed.length]))

/-- CAUSES. -/
def execCauses (p : Port) (tag : Byte) (s : State) : Host.Outcome State Fault Refusal :=
  .next (s.request p 9 tag fun t => let r := t.runCauses p tag; (r.1, some r.2))

/-- A write of one of a port's two masks: the marks set in the value are set or cleared (R176). The attention line takes a
write of the cause mask (R177). -/
def State.runMask (s : State) (p : Port) (code tag mask : Byte) (f : {n : Nat} → BitVec n → BitVec n → BitVec n)
    (value : Word) : State × Answer :=
  match mask.toNat with
  | 0 =>
    let r := s.port p
    let m := f r.causeMask (value.setWidth 4)
    ((s.setPort p { r with causeMask := m }).attend p, .plain code tag .ok { Values.zero with v1 := m.setWidth 16 })
  | 1 =>
    let m := f (s.fu.mask.get p) (value.setWidth 15)
    ({ s with fu := { s.fu with mask := s.fu.mask.set p m } },
     .plain code tag .ok { Values.zero with v1 := m.setWidth 16 })
  | _ => (s, .plain code tag .badRequest .zero)

/-- MASK_SET. -/
def execMaskSet (p : Port) (tag mask : Byte) (value : Word) (s : State) : Host.Outcome State Fault Refusal :=
  .next (s.request p 10 tag fun t => let r := t.runMask p 10 tag mask (fun a b => a ||| b) value; (r.1, some r.2))

/-- MASK_CLEAR. -/
def execMaskClear (p : Port) (tag mask : Byte) (value : Word) (s : State) : Host.Outcome State Fault Refusal :=
  .next (s.request p 11 tag fun t => let r := t.runMask p 11 tag mask (fun a b => a &&& ~~~ b) value; (r.1, some r.2))

/-! STATUS (R172). -/

def State.statusAnswer (s : State) (tag view first : Byte) : Answer :=
  match s.view view with
  | none => .plain 12 tag .badRequest .zero
  | some l => if l.length ≤ first.toNat then .plain 12 tag .range .zero else .plain 12 tag .ok (window l first.toNat)

/-- STATUS. -/
def execStatus (p : Port) (tag view first : Byte) (s : State) : Host.Outcome State Fault Refusal :=
  .next (s.query p 12 tag fun t => t.statusAnswer tag view first)

/-! PORT_RESET, BAD_REQUEST, BAD_FRAME, BUSY. -/

/-- PORT_RESET (R178): no answer but the NONE answer the reset leaves in the slot. It is complete at the rise of chip-select, so
no transaction finds it in flight (log 52). -/
def execPortReset (p : Port) (tag : Byte) (s : State) : Host.Outcome State Fault Refusal :=
  .next (s.request p 21 tag fun t => (t.resetPort p, none))

/-- A good frame whose code names no request (R172). -/
def execBadRequest (p : Port) (tag code : Byte) (s : State) : Host.Outcome State Fault Refusal :=
  .next (s.query p code tag fun _ => .plain code tag .badRequest .zero)

/-- A frame that fails the check (R171): code and tag as received, 0 for a byte not received. The answer is
counted here (log 21), also where R170 discards it before it reaches the slot (log 63). -/
def execBadFrame (p : Port) (received : List Byte) (_cut : Bool) (s : State) : Host.Outcome State Fault Refusal :=
  let code := received.getD 0 0
  let tag := received.getD 1 0
  .next (s.request p code tag fun t =>
    let r := t.port p
    (t.setPort p { r with badFrames := countUp r.badFrames }, some (.bare code tag .badFrame)))

/-- A port event: a change of one port's record and nothing else. -/
def State.onPort (s : State) (p : Port) (f : PortRec → PortRec) : State := s.setPort p (f (s.port p))

/-- BUSY: the refusal of a request whose transaction began while another was in flight (R170). -/
def execBusy (p : Port) (tag code : Byte) (s : State) : Host.Outcome State Fault Refusal :=
  .next (s.onPort p fun r => if r.begin.rise = .refuse then r.begin.refuse code tag else r)

/-- TRANSACTION_BEGIN (R169, R170, R178). -/
def execTransactionBegin (p : Port) (s : State) : Host.Outcome State Fault Refusal :=
  .next (s.onPort p PortRec.begin)

/-- ANSWER_WRITTEN (R169, R170). -/
def execAnswerWritten (p : Port) (s : State) : Host.Outcome State Fault Refusal :=
  .next (s.onPort p PortRec.answer)

/-- HELD_RESET_DISCARD: the rise that ends a transaction discarded by the reset input (R178). -/
def execHeldResetDiscard (p : Port) (s : State) : Host.Outcome State Fault Refusal :=
  .next (s.onPort p fun r => if r.begin.rise = .discard then { r.begin with txn := none } else r)

/-- PORT_RESET_INPUT: the fall resets the port; a transaction under way clocks out NONE and its request is discarded. The
rise changes nothing by itself (R178). -/
def execPortResetInput (p : Port) (level : Bool) (s : State) : Host.Outcome State Fault Refusal :=
  if level then .next (s.onPort p fun r => { r with resetHeld := false })
  else if (s.port p).resetHeld then .next s
  else
    .next ((s.onPort p fun r =>
      { r with
        resetHeld := true, dataOut := .noneAnswer, txn := r.txn.map fun t => { t with discard := true } }).resetPort p)

/-- The throttle timer of a port has run out (R177). -/
def State.throttleDue (s : State) (p : Port) : Bool := (s.port p).throttle.any fun t => remaining s.now t = 0

/-- THROTTLE_TIMER_EXPIRY: the timer is idle again, and the line asserts if an unmasked cause is set (R177). -/
def execThrottleTimerExpiry (p : Port) (s : State) : Host.Outcome State Fault Refusal :=
  let u := s.reach fun s => s.throttleDue p
  .next (if u.throttleDue p then (u.onPort p fun r => { r with throttle := none }).attend p else u)

end Sys2Proof.Machine
end

