-- ==== Sys2Proof/Machine/ConfigRequests.lean ====
section
/-! DEFINITION. The requests on faults, configuration, adaptation and the device state, and power-on reset (chapters 10,
12, R95). -/

namespace Sys2Proof.Machine

/-! FAULT_READ and CLEAR_FAULT (R165, R168). -/

/-- ACTIVE, LATCHED, site and action of a kind (R165, R168). -/
def State.entryWords (s : State) (k : FaultKind) : List Word :=
  let e := s.fu.entry.get k
  [Word.mark (s.active k), Word.mark e.latched, e.site.getD noSite, Word.ofNat (s.action k).code]

def State.maskMark (s : State) (p : Port) (k : FaultKind) : Word := Word.mark ((s.fu.mask.get p).getLsbD k.code)

/-- The summary of FAULT_READ (R168, chapter 13.3). -/
def State.faultSummary (s : State) : List Word :=
  let record : List Word :=
    match s.fu.record with
    | some r => [Word.ofNat r.kind.code, r.site] ++ timeWords r.time ++ [r.handle.word]
    | none => [0xFFFF, 0, 0, 0, 0]
  [bitSet (FaultKind.all.map s.latched), bitSet (FaultKind.all.map s.active),
   bitSet [s.fu.safeNeutral, s.fu.breakaway]] ++ record

def State.faultAnswer (s : State) (p : Port) (tag kind : Byte) : Answer :=
  if kind = 255 then .plain 13 tag .ok (.ofList s.faultSummary)
  else
    match kindOf kind with
    | some k =>
      .plain 13 tag .ok
        (.ofList (s.entryWords k ++ [s.maskMark p k, s.maskMark p.other k, Word.mark (s.fu.clutchMark k)]))
    | none => .plain 13 tag .badRequest .zero

/-- FAULT_READ. -/
def execFaultRead (p : Port) (tag kind : Byte) (s : State) : Host.Outcome State Fault Refusal :=
  .next (s.query p 13 tag fun t => t.faultAnswer p tag kind)

def State.runClear (s : State) (tag kind : Byte) : State × Answer :=
  match kindOf kind with
  | none => (s, .plain 14 tag .badRequest .zero)
  | some k =>
    if !s.latched k then (s, .plain 14 tag .ok (.ofList (s.entryWords k)))
    else if s.active k then (s, .plain 14 tag .stillActive (.ofList (s.entryWords k)))
    else
      let t := (s.unlatch k).settle s.sq
      (t, .plain 14 tag .ok (.ofList (t.entryWords k)))

/-- CLEAR_FAULT. -/
def execClearFault (p : Port) (tag kind : Byte) (s : State) : Host.Outcome State Fault Refusal :=
  .next (s.cabRequest p 14 tag fun t => t.runClear tag kind)

/-! CONFIG_WRITE and CONFIG_READ (R181, R182). -/

/-- A written scaling or edge selection sends its channel to STILL (R45). -/
def State.stillWritten (s : State) (first n : Nat) : State :=
  SpeedCh.all.foldl
    (fun s ch => if inRun first n ch.code || inRun first n (4 + ch.code) then s.setTiming ch (.still none) else s) s

/-- The setpoint fields of DEFAULT_TBRAKE follow the default trailer law (R14). -/
def State.followLaw (s : State) : State :=
  match s.order 7 with
  | some o =>
    let v := defaultTrailerLaw s.items
    if o.setpoint = v then s else s.setOrder 7 { o with setpoint := v, gen := nextGen o.gen }
  | none => s

/-- What the block of a written item does in the same event (R14, R45, R69, R96, R167). A write of item 20 sets and clears HOT at
once (log 56). -/
def State.itemWritten (s : State) (item first n : Nat) : State :=
  match item with
  | 13 => s.stillWritten first n
  | 20 => s.hotTests
  | 23 => s.followLaw
  | 27 => s.followHold.fuConditions
  | _ => s

/-- The checks of R181 on a run of values, in their order; the store as it would stand when they pass. -/
def State.configCheck (s : State) (item first n : Nat) (vals : List Word) : Except Result (List (List Word)) :=
  if s.running then .error .badState
  else if 28 < item then .error .badRequest
  else if !(within 1 8 n && first + n ≤ itemLength item) then .error .badField
  else
    let items := writeItem s.items item first vals
    if (vals.zipIdx.all fun (w, i) => valueOk item (first + i) w) && crossOk items item then .ok items
    else .error .range

def State.runConfigWrite (s : State) (tag item first count : Byte) (v : Values) : State × Answer :=
  let i := item.toNat
  let f := first.toNat
  let n := count.toNat
  match s.configCheck i f n (v.toList.take n) with
  | .error r => (s, .plain 15 tag r .zero)
  | .ok items =>
    let t := (({ s with cs := { s.cs with items := items } }).itemWritten i f n).settle s.sq
    (t, .plain 15 tag .ok (Sys2Proof.Machine.window (items.getD i []) f))

/-- CONFIG_WRITE. -/
def execConfigWrite (p : Port) (tag item first count : Byte) (v : Values) (s : State) :
    Host.Outcome State Fault Refusal :=
  .next (s.cabRequest p 15 tag fun t => t.runConfigWrite tag item first count v)

def State.configAnswer (s : State) (tag item first : Byte) : Answer :=
  let i := item.toNat
  if 28 < i then .plain 16 tag .badRequest .zero
  else if itemLength i ≤ first.toNat then .plain 16 tag .range .zero
  else
    { Answer.plain 16 tag .ok
        (.ofList (Config.deviceCode s.running :: ((s.items.getD i []).drop first.toNat).take 7)) with
      gen := Word.ofNat (itemLength i) }

/-- CONFIG_READ. -/
def execConfigRead (p : Port) (tag item first : Byte) (s : State) : Host.Outcome State Fault Refusal :=
  .next (s.query p 16 tag fun t => t.configAnswer tag item first)

/-! ADAPT_READ and ADAPT_WRITE (R95). -/

/-- The clutches of a run. -/
def clutchRun (first n : Nat) : List Clutch := (Clutch.all.drop first).take n

def adaptRunOk (first n : Nat) : Bool := within 1 8 n && first + n ≤ 9

def State.offsets (s : State) (first n : Nat) : List Word :=
  (clutchRun first n).map fun c => Word.ofInt (s.sq.clutch.get c).fillOffset

def State.runAdaptRead (s : State) (tag first count : Byte) : State × Answer :=
  if adaptRunOk first.toNat count.toNat then
    (s, .plain 17 tag .ok (.ofList (s.offsets first.toNat count.toNat)))
  else (s, .plain 17 tag .badField .zero)

/-- ADAPT_READ. -/
def execAdaptRead (p : Port) (tag first count : Byte) (s : State) : Host.Outcome State Fault Refusal :=
  .next (s.cabRequest p 17 tag fun t => t.runAdaptRead tag first count)

/-- A fill_offset that may be written: −64 to +64, a multiple of 4. -/
def offsetOk (w : Word) : Bool := -64 ≤ w.toInt && w.toInt ≤ 64 && w.toInt % 4 = 0

/-- Writes the fill_offsets of a run of clutches; their adapt_trends become 0. -/
def writeOffsets (t : ByClutch ClutchRec) : List (Clutch × Word) → ByClutch ClutchRec
  | [] => t
  | (c, w) :: rest => writeOffsets (t.set c { t.get c with fillOffset := w.toInt, trend := 0 }) rest

def State.runAdaptWrite (s : State) (tag first count : Byte) (v : Values) : State × Answer :=
  let f := first.toNat
  let n := count.toNat
  let vals := v.toList.take n
  if s.running then (s, .plain 18 tag .badState .zero)
  else if !adaptRunOk f n then (s, .plain 18 tag .badField .zero)
  else if !vals.all offsetOk then (s, .plain 18 tag .range .zero)
  else
    ({ s with sq := { s.sq with clutch := writeOffsets s.sq.clutch ((clutchRun f n).zip vals) } },
     .plain 18 tag .ok .zero)

/-- ADAPT_WRITE. -/
def execAdaptWrite (p : Port) (tag first count : Byte) (v : Values) (s : State) : Host.Outcome State Fault Refusal :=
  .next (s.cabRequest p 18 tag fun t => t.runAdaptWrite tag first count v)

/-! START (R183, R184). -/

/-- The lowest index at which a check of a ratio against the one below it fails. -/
def ratioFail (ok : (below : Option Nat) → Nat → Bool) : Nat → Option Nat → List Nat → Option Nat
  | _, _, [] => none
  | i, below, r :: rs => if ok below r then ratioFail ok (i + 1) (some r) rs else some i

/-- Above 0 and smaller than the ratio below (R183). -/
def ratioFalls (below : Option Nat) (r : Nat) : Bool := 0 < r && below.all (r < ·)

/-- At least two thirds of the ratio below (R183). -/
def ratioNear (below : Option Nat) (r : Nat) : Bool := below.all (2 * · ≤ 3 * r)

/-- The fill_units of a clutch. -/
def unitsOf (items : List (List Word)) (c : Clutch) : Nat := (clutchItem items c).fillUnits

/-- The largest RANGE fill sum (R183). -/
def rangeSum (items : List (List Word)) : Nat :=
  listMax ([Clutch.ca, .cb, .cc].map (unitsOf items)) + listMax ([Clutch.c1, .c2, .c3, .c4].map (unitsOf items))

/-- The checks of R183 in their order: the first failing item and index. Of two directions that both fail the two-thirds check
the forward one is reported (log 45). -/
def startCheck (items : List (List Word)) : Option (Nat × Nat) :=
  let ratios (item : Nat) : List Nat := (items.getD item []).map BitVec.toNat
  let check (ok : Option Nat → Nat → Bool) (item : Nat) : Option (Nat × Nat) :=
    (ratioFail ok 0 none (ratios item)).map fun i => (item, i)
  check ratioFalls 0 <|> check ratioFalls 1 <|> check ratioNear 0 <|> check ratioNear 1 <|>
    (if quota items .cab + quota items .implement < 40 then some (24, 0) else none) <|>
    (if flowCapacity items ≤ flowReserve items + rangeSum items then some (12, 0) else none)

/-- The HR takes its order afresh at START (R133). -/
def State.hrStart (s : State) : State := ({ s with hr := { s.hr with taken := none } }).hrTake

/-- ENABLE_LOST, where ENABLE is low (R153). -/
def State.enableLost (s : State) : State := if s.enable then s else s.detect .enableLost enableSite

/-- START takes effect (R184). -/
def State.starting (s : State) : State :=
  let s1 := ({ s with cs := { s.cs with device := .run } }).sqStart
  ((((s1.acuTake).hrStart).tbuTake).enableLost).settle s.sq

def State.runStart (s : State) (tag : Byte) : State × Answer :=
  if s.running then (s, .plain 19 tag .badState .zero)
  else
    match startCheck s.items with
    | some (item, i) =>
      (s, .plain 19 tag .configInvalid (.ofList [Word.ofNat item, Word.ofNat i]))
    | none => (s.starting, .plain 19 tag .ok .zero)

/-- START. -/
def execStart (p : Port) (tag : Byte) (s : State) : Host.Outcome State Fault Refusal :=
  .next (s.cabRequest p 19 tag fun t => t.runStart tag)

/-! STOP (R185). -/

/-- STOP may be taken (R185). The ground speed is that of the last publication (log 53). -/
def State.mayStop (s : State) : Bool :=
  s.running && s.pub.ground.any (· < 5) && (s.seqState = .neutral || s.seqState = .halt)

/-- NONE into the keeping of an internal order (R15, R185). -/
def State.stopKeeping (s : State) (k : Nat) : State :=
  match s.order k with
  | some o => if o.keeping = .none then s else (s.setOrder k { o with keeping := .none }).noteChange k o
  | none => s

/-- The blocks enter their CONFIG behaviour (R70, R103, R114, R133, R146, R156). -/
def State.stopUnits (s : State) : State :=
  ({ s with
      flow := { Flow.reset with hold := s.flow.hold }, sq := s.sq.stop, acu := s.acu.stop, hr := s.hr.stop,
      tbu := { s.tbu with tracking := none } }).osStop

/-- STOP takes effect (R185). -/
def State.stopping (s : State) : State :=
  let s1 := { s with cs := { s.cs with device := .config } }
  let s2 := (s1.freeAll fun o => o ≠ .internal).resolveAll Channel.all
  let s3 := (List.range 8).foldl State.stopKeeping s2
  s3.stopUnits.settle s.sq

def State.runStop (s : State) (tag : Byte) : State × Answer :=
  if s.mayStop then (s.stopping, .plain 20 tag .ok .zero) else (s, .plain 20 tag .badState .zero)

/-- STOP. -/
def execStop (p : Port) (tag : Byte) (s : State) : Host.Outcome State Fault Refusal :=
  .next (s.cabRequest p 20 tag fun t => t.runStop tag)

/-! Power-on reset (R180). -/

/-- The pins keep their levels: a transaction under way goes on, and the request it ends is taken like any other, unless the
reset input has discarded the transaction (log 29). -/
def keptTxn (r : PortRec) : Option Txn := r.txn.map fun t => { t with refused := false }

/-- POWER_ON_RESET. -/
def execPowerOnReset (s : State) : Host.Outcome State Fault Refusal :=
  .next
    { State.powerOn s.inputs (.tabulate fun p => keptTxn (s.port p)) (.tabulate fun p => (s.port p).resetHeld) with
      pending := s.pending }

end Sys2Proof.Machine
end

