-- ==== Sys2Proof/Machine/Events.lean ====
section
/-! DEFINITION. The events of the part: pins, publications, timers, reports, phases, periods. An event whose condition has
not come about changes nothing (log 4). -/

namespace Sys2Proof.Machine

/-! Pins (R98, R114, R132, R138, R143, R153). -/

/-- What a fall of ENABLE does: the units follow, the SQ halts, a fall in RUN is ENABLE_LOST. The ACU comes before the HR and the
HR before the SQ, so a waiting AXLE request is gone before the SQ's release brings a grant pass (log 17). -/
def State.enableFalls (s : State) : State :=
  let s := { s with inputs := { s.inputs with enable := false } }
  if s.running then ((s.osGuard.acuEnableFall).hrRefresh.halt).detect .enableLost enableSite else s.osGuard.fuConditions

/-- ENABLE_FALL. -/
def execEnableFall (s : State) : Host.Outcome State Fault Refusal := .next (s.event s.enable State.enableFalls)

/-- What a rise of ENABLE does. The ACU's AXLE request comes before the SQ's FILL request of the event (log 17). -/
def State.enableRises (s : State) : State :=
  let s := { s with inputs := { s.inputs with enable := true } }
  (if s.running then (s.acuFollow.hrRefresh).replan else s).fuConditions

/-- ENABLE_RISE. -/
def execEnableRise (s : State) : Host.Outcome State Fault Refusal := .next (s.event (!s.enable) State.enableRises)

/-- TRAILER_PRESENT_CHANGE (R138). -/
def execTrailerPresentChange (level : Bool) (s : State) : Host.Outcome State Fault Refusal :=
  .next (s.event true fun s =>
    { s with
      inputs := { s.inputs with trailerPresent := level },
      tbu := { s.tbu with debounce := s.tbu.debounce.follow (level ≠ s.tbu.presence) s.now } })

/-- DEBOUNCE_TIMER_EXPIRY (R138). -/
def execDebounceTimerExpiry (s : State) : Host.Outcome State Fault Refusal :=
  .next (s.expire (fun s => s.tbu.debounce.due s.now 100) fun s =>
    ({ s with tbu := { s.tbu with presence := s.inputs.trailerPresent, debounce := none } }).setCauseBoth .trailer)

/-- BREAKAWAY_INPUT_CHANGE (R143). -/
def execBreakawayInputChange (level : Bool) (s : State) : Host.Outcome State Fault Refusal :=
  .next (s.event true fun s =>
    { s with
      inputs := { s.inputs with breakaway := level },
      tbu := { s.tbu with breakTimer := s.tbu.breakTimer.follow level s.now } })

/-- BREAKAWAY_TIMER_EXPIRY (R143). -/
def execBreakawayTimerExpiry (s : State) : Host.Outcome State Fault Refusal :=
  .next (s.expire (fun s => s.tbu.breakTimer.due s.now 20) fun s =>
    ({ s with tbu := { s.tbu with breakTimer := s.tbu.breakTimer.runOut } }).detect .breakaway trailerSite)

/-! Measurement (R28, R44 to R57). -/

/-- MU_PUBLICATION: the publication of a millisecond, its samples and quantities, and what each consumer does with them (log
3, log 17). -/
def execMuPublication (raw : ByConv (BitVec 12)) (s : State) : Host.Outcome State Fault Refusal :=
  .next (s.event true fun s =>
    ((((s.pubTime.muPublish raw).lcuPublish).sqPublish s.pub.band).acuPublish s.pub.slip.isSome).hrPublish
      (s.hr.motion = .lower))

/-- SELECTED_EDGE (R46). -/
def execSelectedEdge (ch : SpeedCh) (us : Nat) (s : State) : Host.Outcome State Fault Refusal :=
  .next (s.event true fun s =>
    s.setTiming ch ((s.mu.speed.get ch).timing.edge (stallUs s.items) (stampAt s.now us)))

/-- A VALID channel is due to stall (R48). -/
def State.stallDue (s : State) (ch : SpeedCh) : Bool :=
  match (s.mu.speed.get ch).timing with
  | .valid last _ _ => stallUs s.items ≤ sinceUs (stampAt s.now 0) last
  | .still _ => false

/-- A recorded edge is due to be discarded (R48). -/
def State.recordedDue (s : State) (ch : SpeedCh) : Bool :=
  match (s.mu.speed.get ch).timing with
  | .still (some r) => stallUs s.items ≤ sinceUs (stampAt s.now 0) r
  | .still none | .valid .. => false

/-- SPEED_CHANNEL_STALL (R48). -/
def execSpeedChannelStall (ch : SpeedCh) (s : State) : Host.Outcome State Fault Refusal :=
  .next (s.expire (fun s => s.stallDue ch) fun s => s.setTiming ch (.still none))

/-- RECORDED_EDGE_EXPIRY (R48). -/
def execRecordedEdgeExpiry (ch : SpeedCh) (s : State) : Host.Outcome State Fault Refusal :=
  .next (s.expire (fun s => s.recordedDue ch) fun s => s.setTiming ch (.still none))

/-- LOST_TIMER_EXPIRY (R49). -/
def execLostTimerExpiry (ch : SpeedCh) (s : State) : Host.Outcome State Fault Refusal :=
  .next (s.expire (fun s => (s.mu.speed.get ch).lostTimer.due s.now 1000) fun s =>
    let r := s.mu.speed.get ch
    ({ s with mu := { s.mu with speed := s.mu.speed.set ch { r with lostTimer := r.lostTimer.runOut } } }).detect .speedLost
      (Word.ofNat ch.code))

/-- A converter channel has been 100 ms in OUT_PENDING (R51). -/
def State.windowDue (s : State) (ch : ConvCh) : Bool :=
  match (s.mu.conv.get ch).window with
  | .outPending t => 100 ≤ elapsed s.now t
  | .inWindow | .outOfRange => false

/-- WINDOW_TIMER_EXPIRY (R51). -/
def execWindowTimerExpiry (ch : ConvCh) (s : State) : Host.Outcome State Fault Refusal :=
  .next (s.expire (fun s => s.windowDue ch) fun s =>
    ({ s with mu := { s.mu with conv := s.mu.conv.set ch { s.mu.conv.get ch with window := .outOfRange } } }).detect
      .sensorRange (Word.ofNat ch.code))

/-- MISMATCH_TIMER_EXPIRY (R55). -/
def execMismatchTimerExpiry (s : State) : Host.Outcome State Fault Refusal :=
  .next (s.expire (fun s => s.mu.mismatch.due s.now 2000) fun s =>
    ({ s with mu := { s.mu with mismatch := s.mu.mismatch.runOut } }).detect .speedMismatch
      (Word.ofNat SpeedCh.radar.code))

/-- SUPPLY_TIMER_EXPIRY (R57). -/
def execSupplyTimerExpiry (s : State) : Host.Outcome State Fault Refusal :=
  .next (s.expire (fun s => s.mu.supply.due s.now 200) fun s =>
    ({ s with mu := { s.mu with supply := s.mu.supply.runOut } }).detect .supplyLow (Word.ofNat ConvCh.supply.code))

/-! Leases and conditions (R27, R31, R36, R38, R40, R162). -/

/-- The slot of the lease list's head, if its deadline is reached (R31). -/
def State.expiredLease (s : State) : Option Nat :=
  match s.lcu.leases with
  | l :: _ => if remaining s.now l.deadline = 0 then some l.slot else none
  | [] => none

/-- The lease at the head of the list expires, and its order lapses (R27, R31). -/
def State.leaseEnds (s : State) : State :=
  match s.expiredLease with
  | some k => (s.lcuForget k).lapse k
  | none => s

/-- LEASE_EXPIRY. -/
def execLeaseExpiry (s : State) : Host.Outcome State Fault Refusal :=
  .next (s.expire (fun s => s.expiredLease.isSome) State.leaseEnds)

/-- A term's dwell end is reached (R36). -/
def State.dwellDue (s : State) (k : Nat) (n : TermNo) : Bool :=
  match s.order k with
  | some o => match (o.term n).eval with
    | some (.arming d) => remaining s.now d = 0
    | some .isFalse | some .isTrue | none => false
  | none => false

/-- The term becomes TRUE. -/
def State.dwellEnds (s : State) (k : Nat) (n : TermNo) : State :=
  match s.order k with
  | some o => s.lcuReport k (o.setTerm n { o.term n with eval := some .isTrue })
  | none => s

/-- DWELL_END. -/
def execDwellEnd (slot : Nat) (n : TermNo) (s : State) : Host.Outcome State Fault Refusal :=
  .next (s.expire (fun s => s.dwellDue slot n) fun s => s.dwellEnds slot n)

/-- BRAKE_AXLE_RELEASE_TIMER_EXPIRY (R40). -/
def execBrakeAxleReleaseTimerExpiry (s : State) : Host.Outcome State Fault Refusal :=
  .next (s.expire (fun s => s.lcu.brakeRelease.due s.now 1000) fun s => s.setBrakeAxle false)

/-- The oldest outstanding report on a name, with the list without it (log 24). -/
def takeReport {α : Type} [DecidableEq α] (name : α) : List (α × Bool) → Option (Bool × List (α × Bool))
  | [] => none
  | (n, b) :: rest =>
    if n = name then some (b, rest)
    else match takeReport name rest with
      | some (c, l) => some (c, (n, b) :: l)
      | none => none

/-- CONDITION_REPORT (R38). -/
def execConditionReport (slot : Nat) (s : State) : Host.Outcome State Fault Refusal :=
  match takeReport slot s.lcu.reports with
  | some (truth, l) =>
    .next (s.event true fun s => ({ s with lcu := { s.lcu with reports := l } }).takeCondition slot truth)
  | none => .next s

/-- The slot of an internal order whose condition the FU keeps (R42). -/
def faultOrderSlot : FaultOrder → Nat
  | .safeNeutral => 0
  | .breakaway => 3

/-- FAULT_CONDITION_REPORT (R162). -/
def execFaultConditionReport (which : FaultOrder) (s : State) : Host.Outcome State Fault Refusal :=
  match takeReport which s.fu.reports with
  | some (truth, l) =>
    .next (s.event true fun s => ({ s with fu := { s.fu with reports := l } }).takeCondition (faultOrderSlot which) truth)
  | none => .next s

/-! Flow (R68). -/

def State.entryOf (s : State) : WaitClass → FlowEntry
  | .fill => s.flow.fill
  | .axle => s.flow.axle

/-- A waiting request has reached the flow_wait_limit. -/
def State.starves (s : State) (c : WaitClass) : Bool :=
  let e := s.entryOf c
  e.state = .waiting && e.wait.any fun t => flowWaitLimit s.items ≤ elapsed s.now t

/-- The ACU returns to ENGAGED and tests a release again (R110). -/
def State.acuStarved (s : State) : State :=
  if s.acu.coupling = .releaseWait then (s.acuCoupling .engaged).acuFollow else s

/-- A starvation (R68): the entry is idle, the detection, a grant pass; the consumer, told that its request is gone, then
acts. -/
def State.starve (s : State) (c : WaitClass) : State :=
  match c with
  | .fill =>
    let site := siteWord s.flow.fillSite
    let s1 := { s with flow := { s.flow with fill := .idle, fillSite := none } }
    (s1.detect .flowStarved site).grantPass.sqStarved
  | .axle =>
    let s1 := { s with flow := { s.flow with axle := .idle } }
    (s1.detect .flowStarved faSite).grantPass.acuStarved

/-- FLOW_WAIT_EXPIRY. -/
def execFlowWaitExpiry (c : WaitClass) (s : State) : Host.Outcome State Fault Refusal :=
  .next (s.expire (fun s => s.starves c) fun s => s.starve c)

/-! Phases of the started step (R83 to R91). -/

/-- The started step, if it is in a timed phase that has run its length. -/
def State.phaseDue (s : State) (ph : Phase) : Option GearStep :=
  match s.sq.started with
  | some st => if st.phase = some ph ∧ st.phaseLength ≤ elapsed s.now st.phaseStart then some st else none
  | none => none

/-- An event that the end of a time of the started step brings. -/
def State.stepExpire (s : State) (step : State → Option GearStep) (f : State → GearStep → State) :
    Host.Outcome State Fault Refusal :=
  .next (s.expire (fun s => (step s).isSome) fun s => match step s with | some st => f s st | none => s)

/-- An event that the end of a time of a direction clutch outside a step brings. -/
def State.looseExpire (s : State) (due : State → Dir → Bool) (f : State → Dir → State) :
    Host.Outcome State Fault Refusal :=
  .next (s.expire (fun s => s.sq.loose.any (due s)) fun s => match s.sq.loose with | some d => f s d | none => s)

/-- FILL_END (R83). -/
def execFillEnd (s : State) : Host.Outcome State Fault Refusal := s.stepExpire (State.phaseDue · .fill) State.fillDone

/-- HOLD_END (R84, R87 to R89). -/
def execHoldEnd (s : State) : Host.Outcome State Fault Refusal := s.stepExpire (State.phaseDue · .hold) State.holdDone

/-- RAMP_ON_END (R84, R87 to R89). -/
def execRampOnEnd (s : State) : Host.Outcome State Fault Refusal := s.stepExpire (State.phaseDue · .rampOn) State.rampDone

/-- RAMP_OFF_END (R90). -/
def execRampOffEnd (s : State) : Host.Outcome State Fault Refusal :=
  s.stepExpire (State.phaseDue · .rampOff) fun s st => (s.zeroNeutral st).tryStart

/-- The started step in SYNC. -/
def Sq.syncStep (q : Sq) : Option GearStep :=
  match q.started with
  | some st => if st.phase = some .sync then some st else none
  | none => none

/-- LOCK_RAMP_END (R85, R91). -/
def execLockRampEnd (owner : SyncOwner) (s : State) : Host.Outcome State Fault Refusal :=
  match owner with
  | .step =>
    s.stepExpire (fun s => s.sq.syncStep.filter fun st => s.rampsDone st.on) fun s st => s.lockStep st true
  | .direction => s.looseExpire (fun s d => s.rampsDone [d.clutch]) State.lockLoose

/-- A SYNC timer has reached its limit before the lock ramp began (R86, R91). -/
def State.syncDue (s : State) (on : List Clutch) (start : Option Time) : Bool :=
  !s.sq.ramping on && start.any fun t => overOn s.items on ClutchItem.syncLimit ≤ elapsed s.now t

/-- The site of a SYNC_TIMEOUT: the on-coming clutch, the range clutch for a RANGE step (R86). -/
def siteOf (on : List Clutch) : Word := siteWord on.head?

/-- SYNC_LIMIT_EXPIRY (R86, R91). -/
def execSyncLimitExpiry (owner : SyncOwner) (s : State) : Host.Outcome State Fault Refusal :=
  match owner with
  | .step =>
    s.stepExpire (fun s => s.sq.syncStep.filter fun st => s.syncDue st.on st.syncStart) fun s st =>
      (s.lockStep st false).detect .syncTimeout (siteOf st.on)
  | .direction =>
    s.looseExpire (fun s d => s.syncDue [d.clutch] s.sq.looseSync) fun s d =>
      (s.lockLoose d).detect .syncTimeout (siteOf [d.clutch])

/-- DECELERATION_LIMIT_EXPIRY (R88). -/
def execDecelerationLimitExpiry (s : State) : Host.Outcome State Fault Refusal :=
  s.stepExpire
    (fun s => s.sq.syncStep.filter fun st =>
      st.decel && s.pub.wheel.isNone && overOn s.items st.on ClutchItem.syncLimit ≤ elapsed s.now st.phaseStart)
    State.endDecel

/-! AUTO, heat, gear slip (R93, R96, R100). -/

def State.upExpires (s : State) : State :=
  let s := { s with sq := { s.sq with up := s.sq.up.runOut } }
  if s.sq.autoTarget < takenField s.sq.taken 4 then s.retarget (s.sq.autoTarget + 1)
  else { s with sq := { s.sq with refusalUp := true } }

def State.downExpires (s : State) : State :=
  let s := { s with sq := { s.sq with down := s.sq.down.runOut } }
  if takenField s.sq.taken 3 < s.sq.autoTarget then s.retarget (s.sq.autoTarget - 1)
  else { s with sq := { s.sq with refusalDown := true } }

/-- UP_TIMER_EXPIRY. -/
def execUpTimerExpiry (s : State) : Host.Outcome State Fault Refusal :=
  .next (s.expire (fun s => s.sq.up.due s.now 1000) State.upExpires)

/-- DOWN_TIMER_EXPIRY. -/
def execDownTimerExpiry (s : State) : Host.Outcome State Fault Refusal :=
  .next (s.expire (fun s => s.sq.down.due s.now 500) State.downExpires)

/-- The heat of every clutch falls by cool_rate, stopping at 0 (R96). -/
def State.cool (s : State) : State :=
  { s with
    sq := { s.sq with
      clutch := .tabulate fun c =>
        let r := s.sq.clutch.get c
        { r with heat := r.heat - itemNat s.items 20 4 } } }

/-- COOLING_STEP. -/
def execCoolingStep (s : State) : Host.Outcome State Fault Refusal :=
  .next (s.event true fun s => (s.cool.hotTests).tryStart)

/-- GEAR_SLIP_TIMER_EXPIRY. -/
def execGearSlipTimerExpiry (s : State) : Host.Outcome State Fault Refusal :=
  .next (s.expire (fun s => s.sq.slip.due s.now 500) fun s =>
    ({ s with sq := { s.sq with slip := s.sq.slip.runOut } }).detect .gearSlip s.sq.gearSite)

/-! Front axle (R107, R110, R112, R115). -/

/-- SET_TIMER_EXPIRY. -/
def execSetTimerExpiry (s : State) : Host.Outcome State Fault Refusal :=
  .next (s.expire (fun s => s.acu.setTimer.due s.now 300) fun s =>
    ({ s with acu := { s.acu with latch := true, setTimer := none } }).acuFollow)

/-- CLEAR_TIMER_EXPIRY. -/
def execClearTimerExpiry (s : State) : Host.Outcome State Fault Refusal :=
  .next (s.expire (fun s => s.acu.clearTimer.due s.now 2000) fun s =>
    ({ s with acu := { s.acu with latch := false, clearTimer := none } }).acuFollow)

/-- AXLE_FILL_END. -/
def execAxleFillEnd (s : State) : Host.Outcome State Fault Refusal :=
  .next (s.expire (fun s => s.acu.coupling = .releasing && s.acu.fill.due s.now (axleFillTime s.items)) fun s =>
    ({ s with acu := { s.acu with coupling := .released, fill := none } }).releaseAxle)

/-- SETTLE_END. -/
def execSettleEnd (s : State) : Host.Outcome State Fault Refusal :=
  .next (s.expire (fun s => s.acu.coupling = .engaging && s.acu.settle.due s.now (settleTime s.items)) fun s =>
    ({ s with acu := { s.acu with coupling := .engaged, settle := none } }).acuFollow)

/-- AXLE_MISMATCH_TIMER_EXPIRY. -/
def execAxleMismatchTimerExpiry (s : State) : Host.Outcome State Fault Refusal :=
  .next (s.expire (fun s => s.acu.mismatch.due s.now 1000) fun s =>
    ({ s with acu := { s.acu with mismatch := s.acu.mismatch.runOut } }).detect .axleMismatch faSite)

/-! Hitch and trailer (R127, R129, R131, R144). -/

/-- EXCESS_TIMER_EXPIRY. -/
def execExcessTimerExpiry (s : State) : Host.Outcome State Fault Refusal :=
  .next (s.expire (fun s => s.hr.excess.due s.now 500) fun s =>
    { s with hr := { s.hr with excess := s.hr.excess.runOut }.trimRise s.now })

/-- STEP_TIMER_EXPIRY. -/
def execStepTimerExpiry (s : State) : Host.Outcome State Fault Refusal :=
  .next (s.expire (fun s => s.hr.step.due s.now 100) fun s =>
    { s with hr := if s.hr.exceeds then s.hr.trimRise s.now else s.hr.trimFall s.now })

/-- DEVIATION_TIMER_EXPIRY. -/
def execDeviationTimerExpiry (s : State) : Host.Outcome State Fault Refusal :=
  .next (s.expire (fun s => s.hr.mode = .transport && s.hr.motion = .idle && s.hr.deviation.due s.now 200) fun s =>
    ({ s with hr := { s.hr with deviation := s.hr.deviation.runOut } }).hrCorrect)

/-- The stall timer once its expiry is taken, and HITCH_STALL with the position at the detection (R131). -/
def Hr.stallOut (h : Hr) (position : Nat) : Hr :=
  { h with
    stall := h.stall.map fun r => { r with run := { r.run with out := true } }, stallActive := some position }

/-- STALL_TIMER_EXPIRY. -/
def execStallTimerExpiry (s : State) : Host.Outcome State Fault Refusal :=
  .next (s.expire (fun s => s.hr.stallTimer.due s.now 2000) fun s =>
    ({ s with hr := s.hr.stallOut (s.pub.position.getD 0) }).detect .hitchStall hitchRaiseSite)

/-- TRACKING_TIMER_EXPIRY. -/
def execTrackingTimerExpiry (s : State) : Host.Outcome State Fault Refusal :=
  .next (s.expire (fun s => s.tbu.tracking.due s.now 300) fun s =>
    ({ s with tbu := { s.tbu with tracking := s.tbu.tracking.runOut } }).detect .tbrakeTracking trailerSite)

/-! Output stage (R150 to R155). -/

/-- PERIOD_BOUNDARY: the period that ends is measured and tested, the pending setpoints are loaded, the dither turns. -/
def execPeriodBoundary (mean : ByOut Word) (s : State) : Host.Outcome State Fault Refusal :=
  .next (s.event true fun s => ((s.endPeriod mean).loadSetpoints.osGuard).turnDither)

/-- OPEN_LOAD_TIMER_EXPIRY. -/
def execOpenLoadTimerExpiry (ch : OutCh) (s : State) : Host.Outcome State Fault Refusal :=
  .next (s.expire (fun s => (s.os.get ch).openTimer.due s.now 50) fun s =>
    let r := s.os.get ch
    ({ s with os := s.os.set ch { r with openTimer := r.openTimer.runOut } }).detect .outOpen (Word.ofNat ch.code))

/-- SHORT_CIRCUIT_TRIP: a sample above 2400 mA in DRIVING trips the channel. -/
def execShortCircuitTrip (ch : OutCh) (sample : Word) (s : State) : Host.Outcome State Fault Refusal :=
  .next (s.event (s.outState ch = .driving && 2400 < sample.toNat) fun s =>
    let r := s.os.get ch
    ({ s with os := s.os.set ch { r with tripped := true } }).detect .outShort (Word.ofNat ch.code))

end Sys2Proof.Machine
end

