-- ==== Sys2Proof/Machine/Dispatch.lean ====
section
/-! DEFINITION. The meaning of each command: one arm per constructor of Instr. -/

namespace Sys2Proof.Machine

def exec (i : Instr) (s : State) : Host.Outcome State Fault Refusal :=
  match i with
  | .nop p tag => Sys2Proof.Machine.execNop p tag s
  | .place p tag channel cls termCount lease vals => Sys2Proof.Machine.execPlace p tag channel cls termCount lease vals s
  | .read p tag slot inc first count => Sys2Proof.Machine.execRead p tag slot inc first count s
  | .amend p tag slot inc first front count gen vals => Sys2Proof.Machine.execAmend p tag slot inc first front count gen vals s
  | .renew p tag slot inc => Sys2Proof.Machine.execRenew p tag slot inc s
  | .retire p tag slot inc gen => Sys2Proof.Machine.execRetire p tag slot inc gen s
  | .find p tag channel => Sys2Proof.Machine.execFind p tag channel s
  | .list p tag channel position => Sys2Proof.Machine.execList p tag channel position s
  | .collect p tag => Sys2Proof.Machine.execCollect p tag s
  | .causes p tag => Sys2Proof.Machine.execCauses p tag s
  | .maskSet p tag mask value => Sys2Proof.Machine.execMaskSet p tag mask value s
  | .maskClear p tag mask value => Sys2Proof.Machine.execMaskClear p tag mask value s
  | .status p tag view first => Sys2Proof.Machine.execStatus p tag view first s
  | .faultRead p tag kind => Sys2Proof.Machine.execFaultRead p tag kind s
  | .clearFault p tag kind => Sys2Proof.Machine.execClearFault p tag kind s
  | .configWrite p tag item first count vals => Sys2Proof.Machine.execConfigWrite p tag item first count vals s
  | .configRead p tag item first => Sys2Proof.Machine.execConfigRead p tag item first s
  | .adaptRead p tag first count => Sys2Proof.Machine.execAdaptRead p tag first count s
  | .adaptWrite p tag first count vals => Sys2Proof.Machine.execAdaptWrite p tag first count vals s
  | .start p tag => Sys2Proof.Machine.execStart p tag s
  | .stop p tag => Sys2Proof.Machine.execStop p tag s
  | .portReset p tag => Sys2Proof.Machine.execPortReset p tag s
  | .badRequest p tag code => Sys2Proof.Machine.execBadRequest p tag code s
  | .badFrame p received cut => Sys2Proof.Machine.execBadFrame p received cut s
  | .busy p tag code => Sys2Proof.Machine.execBusy p tag code s
  | .transactionBegin p => Sys2Proof.Machine.execTransactionBegin p s
  | .answerWritten p => Sys2Proof.Machine.execAnswerWritten p s
  | .portResetInput p level => Sys2Proof.Machine.execPortResetInput p level s
  | .powerOnReset => Sys2Proof.Machine.execPowerOnReset s
  | .enableFall => Sys2Proof.Machine.execEnableFall s
  | .enableRise => Sys2Proof.Machine.execEnableRise s
  | .trailerPresentChange level => Sys2Proof.Machine.execTrailerPresentChange level s
  | .debounceTimerExpiry => Sys2Proof.Machine.execDebounceTimerExpiry s
  | .breakawayInputChange level => Sys2Proof.Machine.execBreakawayInputChange level s
  | .breakawayTimerExpiry => Sys2Proof.Machine.execBreakawayTimerExpiry s
  | .muPublication raw => Sys2Proof.Machine.execMuPublication raw s
  | .selectedEdge ch us => Sys2Proof.Machine.execSelectedEdge ch us s
  | .speedChannelStall ch => Sys2Proof.Machine.execSpeedChannelStall ch s
  | .recordedEdgeExpiry ch => Sys2Proof.Machine.execRecordedEdgeExpiry ch s
  | .lostTimerExpiry ch => Sys2Proof.Machine.execLostTimerExpiry ch s
  | .windowTimerExpiry ch => Sys2Proof.Machine.execWindowTimerExpiry ch s
  | .mismatchTimerExpiry => Sys2Proof.Machine.execMismatchTimerExpiry s
  | .supplyTimerExpiry => Sys2Proof.Machine.execSupplyTimerExpiry s
  | .leaseExpiry => Sys2Proof.Machine.execLeaseExpiry s
  | .dwellEnd slot term => Sys2Proof.Machine.execDwellEnd slot term s
  | .brakeAxleReleaseTimerExpiry => Sys2Proof.Machine.execBrakeAxleReleaseTimerExpiry s
  | .conditionReport slot => Sys2Proof.Machine.execConditionReport slot s
  | .faultConditionReport which => Sys2Proof.Machine.execFaultConditionReport which s
  | .flowWaitExpiry cls => Sys2Proof.Machine.execFlowWaitExpiry cls s
  | .fillEnd => Sys2Proof.Machine.execFillEnd s
  | .holdEnd => Sys2Proof.Machine.execHoldEnd s
  | .rampOnEnd => Sys2Proof.Machine.execRampOnEnd s
  | .lockRampEnd owner => Sys2Proof.Machine.execLockRampEnd owner s
  | .syncLimitExpiry owner => Sys2Proof.Machine.execSyncLimitExpiry owner s
  | .decelerationLimitExpiry => Sys2Proof.Machine.execDecelerationLimitExpiry s
  | .rampOffEnd => Sys2Proof.Machine.execRampOffEnd s
  | .upTimerExpiry => Sys2Proof.Machine.execUpTimerExpiry s
  | .downTimerExpiry => Sys2Proof.Machine.execDownTimerExpiry s
  | .coolingStep => Sys2Proof.Machine.execCoolingStep s
  | .gearSlipTimerExpiry => Sys2Proof.Machine.execGearSlipTimerExpiry s
  | .setTimerExpiry => Sys2Proof.Machine.execSetTimerExpiry s
  | .clearTimerExpiry => Sys2Proof.Machine.execClearTimerExpiry s
  | .axleFillEnd => Sys2Proof.Machine.execAxleFillEnd s
  | .settleEnd => Sys2Proof.Machine.execSettleEnd s
  | .axleMismatchTimerExpiry => Sys2Proof.Machine.execAxleMismatchTimerExpiry s
  | .excessTimerExpiry => Sys2Proof.Machine.execExcessTimerExpiry s
  | .stepTimerExpiry => Sys2Proof.Machine.execStepTimerExpiry s
  | .deviationTimerExpiry => Sys2Proof.Machine.execDeviationTimerExpiry s
  | .stallTimerExpiry => Sys2Proof.Machine.execStallTimerExpiry s
  | .trackingTimerExpiry => Sys2Proof.Machine.execTrackingTimerExpiry s
  | .periodBoundary mean => Sys2Proof.Machine.execPeriodBoundary mean s
  | .openLoadTimerExpiry ch => Sys2Proof.Machine.execOpenLoadTimerExpiry ch s
  | .shortCircuitTrip ch sample => Sys2Proof.Machine.execShortCircuitTrip ch sample s
  | .throttleTimerExpiry p => Sys2Proof.Machine.execThrottleTimerExpiry p s
  | .heldResetDiscard p => Sys2Proof.Machine.execHeldResetDiscard p s

end Sys2Proof.Machine
end

