-- ==== Sys2Proof/Safety.lean ====
section
/-! DEFINITION. What counts as a good state: when a port takes a request, and the invariants that claims about runs use. -/

namespace Sys2Proof.Machine

/-! Ports (R169, R170, R178). -/

/-- The port takes the request that the next rise of chip-select ends: its reset input is not held, no request was in flight
when the transaction began, and the reset input has not fallen since. A fall that no command gave is implied (log 5). -/
def PortRec.takes (r : PortRec) : Prop :=
  r.resetHeld = false ∧
    match r.txn with
    | none => r.inFlight = none
    | some t => t.refused = false ∧ t.discard = false

/-- The state at the rise of chip-select: the transaction is over and its request not yet handed to its block. -/
def State.risen (s : State) (p : Port) : State := s.setPort p { (s.port p).begin with txn := none }

/-- The state with an answer in flight at a port. -/
def State.answering (s : State) (p : Port) (a : Answer) : State := s.setPort p { s.port p with inFlight := some a }

/-! The attention line (R175 to R177). -/

/-- The line is asserted only over an unmasked cause; over one it is deasserted only while the throttle timer runs. -/
def PortRec.Attends (r : PortRec) : Prop :=
  let unmasked : Prop := r.causes &&& ~~~ r.causeMask ≠ 0
  (r.asserted = true → unmasked) ∧ (unmasked → r.asserted = false → r.throttle ≠ none)

/-- The attention line of each port follows its unmasked causes. -/
def State.LinesAttend (s : State) : Prop := ∀ p, (s.port p).Attends

/-! The flow budget (R61). -/

/-- The flow grants and the trailer reserve fit the capacity; the reserve and the capacity lie in their ranges so far as the
sum needs it; and in CONFIG nothing is asked or granted, and the Hitch Regulator is in HOLD. -/
structure State.FlowSafe (s : State) : Prop where
  fits : s.flow.fill.granted + s.flow.axle.granted + s.flow.liftGranted + flowReserve s.items ≤ flowCapacity s.items
  reserve : flowReserve s.items ≤ 8
  capacity : 8 ≤ flowCapacity s.items
  config : s.running = false →
    s.flow.fill.granted = 0 ∧ s.flow.axle.granted = 0 ∧ s.flow.liftGranted = 0 ∧ s.flow.liftAsked = 0 ∧
      s.flow.fill.state = .idle ∧ s.flow.axle.state = .idle ∧ s.hr.mode = .hold

/-! The internal orders (R1, R2). -/

/-- A slot holds an internal order under incarnation 0. -/
def Slot.internal (sl : Slot) : Prop := sl.inc = 0 ∧ ∃ o, sl.order = some o ∧ o.owner = .internal

/-- The table has 48 slots, and slots 0 to 7 hold internal orders under incarnation 0. -/
structure State.InternalLive (s : State) : Prop where
  size : s.otu.slots.length = 48
  live : ∀ k < 8, ∃ sl, s.otu.slots[k]? = some sl ∧ sl.internal

/-! The hitch valves (R120). -/

/-- The two hitch valves never carry current at the same time: neither as commanded nor as loaded. -/
structure State.ValvesApart (s : State) : Prop where
  pending : (s.os.get .oc10).pending = 0 ∨ (s.os.get .oc11).pending = 0
  inForce : (s.os.get .oc10).inForce = 0 ∨ (s.os.get .oc11).inForce = 0

/-! The coupling and its flow (R105). -/

/-- The coupling is RELEASING exactly while the Flow Arbiter holds its grant, and RELEASE_WAIT exactly while its request
waits. -/
structure State.CouplingForm (s : State) : Prop where
  releasing : s.acu.coupling = .releasing ↔ s.flow.axle.state = .granted
  waiting : s.acu.coupling = .releaseWait ↔ s.flow.axle.state = .waiting

/-! The step queue (R79). -/

/-- The queue holds at most four steps, and none but the head is started. -/
structure State.QueueForm (s : State) : Prop where
  short : s.sq.queue.length ≤ 4
  head : ∀ st ∈ s.sq.queue.tail, st.phase = none

/-! The gearbox (R72, R74, R78, R83). -/

/-- The clutch groups: direction, range and step. -/
inductive ClutchGroup where
  | direction | range | step
deriving DecidableEq, Repr

def groupOf : Clutch → ClutchGroup
  | .cf | .cr => .direction
  | .ca | .cb | .cc => .range
  | .c1 | .c2 | .c3 | .c4 => .step

/-- The clutches that carry a configuration of the gearbox: at most one of each group. -/
def Conf.clutches (b : Conf) : List Clutch :=
  (b.dir.map Dir.clutch).toList ++ (b.range.map Range.clutch).toList ++ (b.step.map StepNo.clutch).toList

/-- A step leads from a configuration to its resulting one: the clutches of the result alone come on, those of the base alone
go off. -/
def GearStep.leadsFrom (st : GearStep) (b : Conf) : Prop :=
  ∀ c, (c ∈ st.on ↔ c ∈ st.result.clutches ∧ c ∉ b.clutches) ∧ (c ∈ st.off ↔ c ∈ b.clutches ∧ c ∉ st.result.clutches)

/-- Steps that lead on from a configuration, each from the result of the one before. -/
def chained : Conf → List GearStep → Prop
  | _, [] => True
  | b, st :: rest => st.leadsFrom b ∧ chained st.result rest

/-- The clutches that are not OPEN, by the phase of the started step. Without one, and in its flow wait, they are those of the
box as it stands; the step's own come on top in FILL and HOLD; from its ramps on they are those of its result, and the
off-going ones as long as they fall. -/
def State.clutchesFit (s : State) : Prop :=
  let q := s.sq
  match q.queue with
  | [] => ∀ c, q.state c ≠ .opened → c ∈ q.box.clutches
  | st :: rest =>
    match st.phase with
    | none | some .flowWait => chained q.box (st :: rest) ∧ ∀ c, q.state c ≠ .opened → c ∈ q.box.clutches
    | some .fill =>
      chained q.box (st :: rest) ∧ (∀ c ∈ st.on, q.state c = .fill) ∧
        ∀ c, q.state c ≠ .opened → c ∈ q.box.clutches ∨ c ∈ st.on
    | some .hold =>
      chained q.box (st :: rest) ∧ (∀ c ∈ st.on, q.state c = .hold) ∧
        ∀ c, q.state c ≠ .opened → c ∈ q.box.clutches ∨ c ∈ st.on
    | some ph =>
      (∃ b, st.leadsFrom b) ∧ chained st.result rest ∧
        ∀ c, q.state c ≠ .opened →
          c ∈ st.result.clutches ∧ (c ∈ st.on ∨ c ∈ q.box.clutches) ∨
            c ∈ st.off ∧ q.state c = .rampOff ∧ ph ≠ .sync ∧ st.kind ≠ .free

/-- The gearbox, its queue and its fill request hold together. Only the head is started; a step has on-coming clutches unless
it is a NEUTRALIZE, which alone ramps off, and a FREE step has one. The head waits for flow exactly while the fill request
waits and fills exactly while it is granted, and a clutch is in FILL only as an on-coming clutch of it. In HALT and CONFIG the
queue is empty and every clutch OPEN. The GEAR orders, the one as taken and the auto target are in range, as their plans need.
-/
structure State.GearboxForm (s : State) : Prop where
  size : s.otu.slots.length = 48
  orders : ∀ k ∈ s.list .gear, ∃ o, s.order k = some o ∧ o.channel = .gear ∧ setpointOk .gear o.setpoint = true
  taken : ∀ t, s.sq.taken = some t → setpointOk .gear t.setpoint = true
  target : s.running = true → takenField s.sq.taken 0 = 2 → 1 ≤ s.sq.autoTarget ∧ s.sq.autoTarget ≤ 12
  head : ∀ st ∈ s.sq.queue.tail, st.phase = none
  neutral : ∀ st ∈ s.sq.queue, st.kind = .neutralize → st.on = [] ∧ (st.phase = none ∨ st.phase = some .rampOff)
  others : ∀ st ∈ s.sq.queue, st.kind ≠ .neutralize → st.on ≠ [] ∧ st.phase ≠ some .rampOff
  free : ∀ st ∈ s.sq.queue, st.kind = .free → ∃ c, st.on = [c]
  still : s.running = false ∨ s.enable = false → s.sq.queue = [] ∧ ∀ c, s.sq.state c = .opened
  waits : s.flow.fill.state = .waiting ↔ ∃ st, s.sq.queue.head? = some st ∧ st.phase = some .flowWait
  fills : s.flow.fill.state = .granted ↔ ∃ st, s.sq.queue.head? = some st ∧ st.phase = some .fill
  filling : ∀ c, s.sq.state c = .fill → ∃ st, s.sq.queue.head? = some st ∧ st.phase = some .fill ∧ c ∈ st.on
  fit : s.clutchesFit

/-- Of each clutch group at most one clutch is LOCKED and at most two are other than OPEN (R74). -/
def State.GroupsShare (s : State) : Prop :=
  (∀ c d, groupOf c = groupOf d → s.sq.state c = .locked → s.sq.state d = .locked → c = d) ∧
  ∀ c d e, groupOf c = groupOf d → groupOf d = groupOf e → s.sq.state c ≠ .opened → s.sq.state d ≠ .opened →
    s.sq.state e ≠ .opened → c = d ∨ c = e ∨ d = e

/-! The precedence lists (R3, R10, R12, R15). -/

/-- The precedence list of each channel holds each live order of the channel exactly once, classes ascending; each order on
it has the state that R10 gives it, so that at most one is GOVERNING; and only a GOVERNING order has a keeping. -/
structure State.ListForm (s : State) : Prop where
  size : s.otu.slots.length = 48
  once : ∀ ch, (s.list ch).Nodup
  holds : ∀ ch k, k ∈ s.list ch ↔ ∃ o, s.order k = some o ∧ o.channel = ch
  ascending : ∀ ch, (s.list ch).Pairwise fun j k => s.clsOf j ≤ s.clsOf k
  states : ∀ ch k o, k ∈ s.list ch → s.order k = some o →
    o.state = o.stateBy (((s.list ch).takeWhile (· ≠ k)).all fun j => !(s.order j).any Order.eligible)
  keeping : ∀ k o, s.order k = some o → o.state ≠ .governing → o.keeping = .none

/-! The live-order counts (R4). -/

/-- The slots that hold a live order of a port. -/
def State.liveOrders (s : State) (p : Port) : List Nat :=
  (List.range 48).filter fun k => (s.order k).any fun o => o.owner = ownerOf p

/-- Each port's count is the number of its live orders and lies within its quota; in CONFIG only internal orders are live. -/
structure State.CountForm (s : State) : Prop where
  size : s.otu.slots.length = 48
  counts : ∀ p, s.live p = (s.liveOrders p).length
  quota : ∀ p, s.live p ≤ quota s.items p
  config : s.running = false → ∀ k o, s.order k = some o → o.owner = .internal

/-! The class-3 defaults (R13, R43). -/

/-- The slot of a channel's class-3 default. -/
def defaultSlot (ch : Channel) : Nat := 4 + ch.code

/-- The class-3 default of each channel is live, internal, without terms, true and not LAPSED; no lease and no report of the
LCU is about it. -/
structure State.DefaultsStand (s : State) : Prop where
  stands : ∀ ch, ∃ o, s.order (defaultSlot ch) = some o ∧ o.channel = ch ∧ o.owner = .internal ∧ o.termCount = 0 ∧
    o.cond = true ∧ o.state ≠ .lapsed
  unleased : ∀ e ∈ s.lcu.leases, ∀ ch, e.slot ≠ defaultSlot ch
  unreported : ∀ r ∈ s.lcu.reports, ∀ ch, r.1 ≠ defaultSlot ch

/-! The changed-order sets (R16, R174). -/

/-- Slot numbers in strictly ascending order, so each at most once. -/
def ascending : List Nat → Prop
  | [] => True
  | x :: xs => (∀ y ∈ xs, x < y) ∧ ascending xs

/-- Each changed-order set holds each slot at most once, the lowest first. -/
def State.SetsAscend (s : State) : Prop := ∀ p, ascending (s.port p).changed

/-! The lease list (R5, R29). -/

/-- The table has 48 slots; the lease list holds one entry for each leased order that is live and not LAPSED, and no other;
internal orders are unleased; and in CONFIG only internal orders are live. -/
structure State.LeaseForm (s : State) : Prop where
  size : s.otu.slots.length = 48
  backed : ∀ e ∈ s.lcu.leases, ∃ o, s.order e.slot = some o ∧ o.lease ≠ 0 ∧ o.state ≠ .lapsed
  once : (s.lcu.leases.map Lease.slot).Nodup
  entered : ∀ k o, s.order k = some o → o.lease ≠ 0 → o.state ≠ .lapsed → k ∈ s.lcu.leases.map Lease.slot
  unleased : ∀ k o, s.order k = some o → o.owner = .internal → o.lease = 0
  config : s.running = false → ∀ k o, s.order k = some o → o.owner = .internal

/-- The lease list stands in the order of time remaining, shortest first, and of slots where deadlines are equal (R29). -/
def State.LeasesOrdered (s : State) : Prop :=
  s.lcu.leases.Pairwise fun a b =>
    remaining s.now a.deadline < remaining s.now b.deadline ∨
      remaining s.now a.deadline = remaining s.now b.deadline ∧ a.slot < b.slot

/-! The configuration store (R180, R181). -/

/-- The store has its layout, and every value lies in its range, the ranges that refer to another value included. -/
structure State.StoreForm (s : State) : Prop where
  lengths : s.items.map List.length = itemLengths
  values : ∀ i x, x < itemLength i → valueOk i x (itemValue s.items i x) = true
  cross : ∀ i, crossOk s.items i = true

/-! The commanded currents (R74, R149, R150). -/

/-- Each clutch record holds the current of its state, and in RUN each channel's pending setpoint is the current its unit
commands, above 2000 mA as 2000 mA. -/
structure State.SetpointsHanded (s : State) : Prop where
  clutches : ∀ c, (s.sq.clutch.get c).current = s.clutchCurrent c
  pending : s.running = true → ∀ ch, (s.os.get ch).pending = min 2000 (s.commanded ch)

/-! Hand-overs (R11). -/

/-- The order that the job unit of a channel last took. -/
def State.takenBy (s : State) : Channel → Option Taken
  | .gear => s.sq.taken
  | .axle => s.acu.taken
  | .hitch => s.hr.taken
  | .tbrake => s.tbu.taken

/-! Keepings (R15). -/

/-- The keeping that a channel's job unit assesses (R102, R117, R134, R147). -/
def State.keepingOf (s : State) : Channel → Keeping
  | .gear => s.sqKeeping
  | .axle => s.acuKeeping
  | .hitch => s.hrKeeping
  | .tbrake => s.tbuKeeping

/-- In RUN the governing order of each channel holds the keeping its job unit assesses. -/
def State.KeepingsWritten (s : State) : Prop :=
  s.running = true → ∀ ch k o, s.governing ch = some k → s.order k = some o → o.keeping = s.keepingOf ch

/-! The millisecond (R28, R44). -/

/-- The commands of the table that are the end of a time: they may be the first event of a millisecond (log 3). -/
def endsTime : Instr → Bool
  | .debounceTimerExpiry | .breakawayTimerExpiry | .speedChannelStall _ | .recordedEdgeExpiry _ | .lostTimerExpiry _
  | .windowTimerExpiry _ | .mismatchTimerExpiry | .supplyTimerExpiry | .leaseExpiry | .dwellEnd _ _
  | .brakeAxleReleaseTimerExpiry | .flowWaitExpiry _ | .fillEnd | .holdEnd | .rampOnEnd | .rampOffEnd | .lockRampEnd _
  | .syncLimitExpiry _ | .decelerationLimitExpiry | .upTimerExpiry | .downTimerExpiry | .gearSlipTimerExpiry
  | .setTimerExpiry | .clearTimerExpiry | .axleFillEnd | .settleEnd | .axleMismatchTimerExpiry | .excessTimerExpiry
  | .stepTimerExpiry | .deviationTimerExpiry | .stallTimerExpiry | .trackingTimerExpiry | .openLoadTimerExpiry _
  | .throttleTimerExpiry _ => true
  | _ => false

/-! Detections. -/

/-- The fault table holds a detection: the kind is latched at the site. -/
def State.latchedAt (s : State) (k : FaultKind) (site : Word) : Prop := s.fu.entry.get k = ⟨true, some site⟩

/-- The kind and the site that a command detects, where it is due: each row of the table whose rule ends in a detection
(R51, R49, R55, R57, R68, R86, R91, R100, R115, R131, R143, R144, R153, R154, R155). The detections of CLUTCH_HOT (R96), which
depend on the heat that the command itself brings, and of ENABLE_LOST at START are not among them. -/
def State.detects (s : State) (c : Instr) : Option (FaultKind × Word) :=
  match c with
  | .enableFall => if s.enable && s.running then some (.enableLost, enableSite) else none
  | .breakawayTimerExpiry => if s.tbu.breakTimer.due s.now 20 then some (.breakaway, trailerSite) else none
  | .lostTimerExpiry ch =>
    if (s.mu.speed.get ch).lostTimer.due s.now 1000 then some (.speedLost, Word.ofNat ch.code) else none
  | .windowTimerExpiry ch => if s.windowDue ch then some (.sensorRange, Word.ofNat ch.code) else none
  | .mismatchTimerExpiry => if s.mu.mismatch.due s.now 2000 then some (.speedMismatch, 3) else none
  | .supplyTimerExpiry => if s.mu.supply.due s.now 200 then some (.supplyLow, 7) else none
  | .flowWaitExpiry .fill => if s.starves .fill then some (.flowStarved, siteWord s.flow.fillSite) else none
  | .flowWaitExpiry .axle => if s.starves .axle then some (.flowStarved, faSite) else none
  | .syncLimitExpiry .step =>
    match s.sq.syncStep with
    | some st => if s.syncDue st.on st.syncStart then some (.syncTimeout, siteOf st.on) else none
    | none => none
  | .syncLimitExpiry .direction =>
    match s.sq.loose with
    | some d => if s.syncDue [d.clutch] s.sq.looseSync then some (.syncTimeout, siteOf [d.clutch]) else none
    | none => none
  | .gearSlipTimerExpiry => if s.sq.slip.due s.now 500 then some (.gearSlip, s.sq.gearSite) else none
  | .axleMismatchTimerExpiry => if s.acu.mismatch.due s.now 1000 then some (.axleMismatch, faSite) else none
  | .stallTimerExpiry => if s.hr.stallTimer.due s.now 2000 then some (.hitchStall, hitchRaiseSite) else none
  | .trackingTimerExpiry => if s.tbu.tracking.due s.now 300 then some (.tbrakeTracking, trailerSite) else none
  | .openLoadTimerExpiry ch =>
    if (s.os.get ch).openTimer.due s.now 50 then some (.outOpen, Word.ofNat ch.code) else none
  | .shortCircuitTrip ch sample =>
    if s.outState ch = .driving && 2400 < sample.toNat then some (.outShort, Word.ofNat ch.code) else none
  | _ => none

/-! The tests of the units, as their rules word them: each with a timer that runs while the test holds, and with the ACTIVE
mark of its kind (R159). -/

/-- A road speed channel counts as a moving one (R49): VALID, without a lost mark, above 2.0 km/h by R47 (an interval of 0 has
a free reading, log 10). -/
def State.CountsMoving (s : State) (ch : SpeedCh) : Prop :=
  let r := s.mu.speed.get ch
  let edges := itemNat s.items 13 ch.code * (if itemNat s.items 13 (4 + ch.code) = 2 then 2 else 1)
  r.lost = false ∧ ∃ last num den, r.timing = .valid last num den ∧
    20 < (if num = 0 then Config.speedAtZeroInterval ch.code else 360000000 * den / (num * edges))

/-- A channel is silent while moving (R49): it is STILL while another road speed channel counts as moving; ENGINE, while
OUTPUT does with a direction clutch LOCKED. -/
def State.SilentWhileMoving (s : State) (ch : SpeedCh) : Prop :=
  (∃ e, (s.mu.speed.get ch).timing = .still e) ∧
    if ch = .engine then s.CountsMoving .output ∧ (s.sq.state .cf = .locked ∨ s.sq.state .cr = .locked)
    else ∃ c, c ≠ ch ∧ c ≠ .engine ∧ s.CountsMoving c

/-- The radar and the wheels disagree (R55). -/
def State.SpeedsDisagree (s : State) : Prop :=
  let r := s.mu.speed.get .radar
  (∃ last num den, r.timing = .valid last num den) ∧ r.lost = false ∧
    ∃ a w, s.pub.radar = some a ∧ s.pub.wheel = some w ∧ 20 < a ∧ 20 < w ∧ 30 * max a w < 100 * (max a w - min a w)

/-- The supply pressure is available and below supply_min (R57). -/
def State.SupplyBelow (s : State) : Prop := ∃ p, s.pub.supply = some p ∧ p < itemNat s.items 14 1

/-- The driven gear slips in DRIVE (R72, R100): by more than 8 % of its expected engine speed, from 1.0 km/h on. -/
def State.DrivenGearSlips (s : State) : Prop :=
  s.seqState = .drive ∧
    ∃ d r n e w, s.sq.engaged = some d ∧ s.sq.range = some r ∧ s.sq.step = some n ∧ s.pub.engine = some e ∧
      s.pub.wheel = some w ∧ 10 ≤ w ∧
      let expected := w * itemNat s.items (match d with | .forward => 0 | .reverse => 1) (4 * r.num + n.num)
      8 * expected < 100 * (((100 * e : Nat) : Int) - expected).natAbs

/-- The check of the axle runs and the axles disagree (R115). -/
def State.AxlesDisagree (s : State) : Prop :=
  s.running = true ∧ s.acu.coupling = .engaged ∧
    ∃ f w, s.pub.front = some f ∧ s.pub.wheel = some w ∧ 20 < max f w ∧ max f w < 10 * (max f w - min f w)

/-- The tracking check runs and the line misses its demand (R144). -/
def State.LineMisses (s : State) : Prop :=
  s.running = true ∧ s.enable = true ∧ (s.tbuState = .braking ∨ s.tbuState = .assist) ∧ s.tbu.openMark = false ∧
    s.tbu.shortMark = false ∧ ∃ p, s.pub.line = some p ∧ 500 < ((p : Int) - s.tbuDemand).natAbs

/-- A channel drives 100 mA or more and its last mean current is below 20 mA (R154). -/
def State.LoadOpen (s : State) (ch : OutCh) : Prop :=
  s.outState ch = .driving ∧ 100 ≤ (s.os.get ch).inForce ∧ (s.os.get ch).measured < 20

/-- The timers of AUTO may run (R93): AUTO, DRIVE, the queue empty, and an engine speed `e`. -/
def State.AutoRuns (s : State) (e : Nat) : Prop :=
  takenField s.sq.taken 0 = 2 ∧ s.seqState = .drive ∧ s.sq.queue = [] ∧ s.pub.engine = some e

/-- A timer that runs exactly while a test holds: it starts as the test begins to hold, goes on while it holds, and is
discarded as it ends. -/
def Follows (test : Prop) (now : Time) (was is : Timer) : Prop :=
  (test → is = some (was.getD ⟨now, false⟩)) ∧ (¬ test → is = none)

/-! What an event leaves alone, as a relation of the state before and after. -/

/-- What a change of changed-order set, causes and attention line leaves alone at a port; causes are only added, ORDERS with a
slot that enters an empty set, and the line follows them. -/
structure PortOnly (r r' : PortRec) : Prop where
  slot : r'.slot = r.slot
  dataOut : r'.dataOut = r.dataOut
  inFlight : r'.inFlight = r.inFlight
  txn : r'.txn = r.txn
  resetHeld : r'.resetHeld = r.resetHeld
  causeMask : r'.causeMask = r.causeMask
  badFrames : r'.badFrames = r.badFrames
  busys : r'.busys = r.busys
  causes : ∀ i, r.causes.getLsbD i = true → r'.causes.getLsbD i = true
  orders : r.changed = [] → r'.changed ≠ [] → r'.causes.getLsbD 0 = true
  attends : r.Attends → r'.Attends

/-- Work of the job units and the Flow Arbiter: only the flow, the gearbox, the axle and the hitch change. -/
structure JobOnly (s t : State) : Prop where
  pending : t.pending = s.pending
  inputs : t.inputs = s.inputs
  cs : t.cs = s.cs
  otu : t.otu = s.otu
  lcu : t.lcu = s.lcu
  mu : t.mu = s.mu
  tbu : t.tbu = s.tbu
  os : t.os = s.os
  fu : t.fu = s.fu
  rp : t.rp = s.rp

/-- What causes change: only ports, and there only causes, changed-order set and attention line. -/
structure CausesOnly (s t : State) : Prop where
  pending : t.pending = s.pending
  inputs : t.inputs = s.inputs
  cs : t.cs = s.cs
  otu : t.otu = s.otu
  lcu : t.lcu = s.lcu
  mu : t.mu = s.mu
  flow : t.flow = s.flow
  sq : t.sq = s.sq
  acu : t.acu = s.acu
  hr : t.hr = s.hr
  tbu : t.tbu = s.tbu
  os : t.os = s.os
  fu : t.fu = s.fu
  ports : ∀ p, PortOnly (s.port p) (t.port p)

/-- What detections and the job units' work leave alone; ports keep all but causes, changed-order set and attention line. -/
structure DetectOnly (s t : State) : Prop where
  pending : t.pending = s.pending
  inputs : t.inputs = s.inputs
  cs : t.cs = s.cs
  otu : t.otu = s.otu
  lcu : t.lcu = s.lcu
  ports : ∀ p, PortOnly (s.port p) (t.port p)

/-! Orders. -/

/-- An order without what keepings and the LCU change. -/
def Order.still (o : Order) : Order :=
  { o with
    keeping := .none, lcuCond := false, term1 := { o.term1 with eval := none }, term2 := { o.term2 with eval := none } }

/-- What a placement and its amendments wrote: an order without state, keeping, condition and evaluations. -/
def Order.body (o : Order) : Order := { o.still with state := .dormant, cond := false }

/-- The same orders in the same slots and lists, but for state, keeping, condition and evaluations. -/
structure SameOrders (s t : State) : Prop where
  size : t.otu.slots.length = s.otu.slots.length
  inc : ∀ k, t.incarnation k = s.incarnation k
  body : ∀ k, (t.order k).map Order.body = (s.order k).map Order.body
  lists : t.otu.lists = s.otu.lists
  live : t.otu.live = s.otu.live

/-- What claims on the order table leave alone. -/
structure ClaimOnly (s t : State) : Prop where
  pending : t.pending = s.pending
  inputs : t.inputs = s.inputs
  cs : t.cs = s.cs
  mu : t.mu = s.mu
  os : t.os = s.os
  fu : t.fu = s.fu
  now : t.lcu.now = s.lcu.now
  size : t.otu.slots.length = s.otu.slots.length
  ports : ∀ p, PortOnly (s.port p) (t.port p)

/-- The orders are the same but for keepings and what the LCU keeps. -/
structure SameStates (s t : State) : Prop where
  size : t.otu.slots.length = s.otu.slots.length
  inc : ∀ k, t.incarnation k = s.incarnation k
  still : ∀ k, (t.order k).map Order.still = (s.order k).map Order.still
  lists : t.otu.lists = s.otu.lists
  live : t.otu.live = s.otu.live

/-- What the end of an event leaves alone: everything but timers that follow tests, commanded currents, pending setpoints,
keepings, terms of GEAR_NUMBER, causes and changed-order sets; reports of the LCU are only added, behind those that wait. -/
structure SettleOnly (s t : State) : Prop where
  pending : t.pending = s.pending
  inputs : t.inputs = s.inputs
  cs : t.cs = s.cs
  flow : t.flow = s.flow
  hr : t.hr = s.hr
  fu : t.fu = s.fu
  now : t.lcu.now = s.lcu.now
  leases : t.lcu.leases = s.lcu.leases
  fixed : t.lcu.brakeAxle = s.lcu.brakeAxle ∧ t.lcu.brakeRelease = s.lcu.brakeRelease ∧ t.lcu.transport = s.lcu.transport
  mu : t.mu = { s.mu with speed := t.mu.speed, mismatch := t.mu.mismatch }
  speed : ∀ ch, t.mu.speed.get ch = { s.mu.speed.get ch with lostTimer := (t.mu.speed.get ch).lostTimer }
  acu : t.acu = { s.acu with mismatch := t.acu.mismatch }
  tbu : t.tbu = { s.tbu with tracking := t.tbu.tracking }
  sq : t.sq =
    { s.sq with
      clutch := t.sq.clutch, up := t.sq.up, down := t.sq.down, refusalUp := t.sq.refusalUp,
      refusalDown := t.sq.refusalDown, slip := t.sq.slip }
  clutch : ∀ c, t.sq.clutch.get c = { s.sq.clutch.get c with current := (t.sq.clutch.get c).current }
  os : ∀ ch, t.os.get ch =
    { s.os.get ch with
      pending := (t.os.get ch).pending, openTimer := (t.os.get ch).openTimer, regulating := (t.os.get ch).regulating }
  states : SameStates s t
  ports : ∀ p, PortOnly (s.port p) (t.port p)
  reports : ∃ l, t.lcu.reports = s.lcu.reports ++ l

/-- What every event other than one of power, pins, configuration or time leaves alone. -/
structure EventOnly (s t : State) : Prop where
  pending : t.pending = s.pending
  inputs : t.inputs = s.inputs
  cs : t.cs = s.cs
  now : t.lcu.now = s.lcu.now
  ports : ∀ p, PortOnly (s.port p) (t.port p)

/-! Completion. -/

/-- The conditions of SAFE_NEUTRAL and BREAKAWAY are those of the fault table, and a change of either is reported behind the
reports that wait (R162, log 24). -/
def State.conditionsFollow (s t : State) : Prop :=
  t.fu.safeNeutral = t.safeCondition ∧ t.fu.breakaway = t.latched .breakaway ∧
    t.fu.reports = s.fu.reports ++
      (if t.fu.safeNeutral = s.fu.safeNeutral then [] else [(.safeNeutral, t.fu.safeNeutral)]) ++
      (if t.fu.breakaway = s.fu.breakaway then [] else [(.breakaway, t.fu.breakaway)])

/-- The command completes: it leads to a next state, of which `post` holds. -/
def CompletesWith (c : Instr) (s : State) (post : State → Prop) : Prop := ∃ t, exec c s = .next t ∧ post t

end Sys2Proof.Machine
end

