-- ==== Sys2Proof/WellFormed.lean ====
section
/-! DEFINITION. Which commands can come from outside as they are written. -/

namespace Sys2Proof

/-- A command is well formed: a slot is one of the 48 (R1); an edge's microsecond lies in its millisecond (R45); a
BAD_FRAME's bytes fail the check of R171; a BAD_REQUEST's code names no request (R172). Every other operand admits every
value of its type. -/
def Instr.wellFormed : Instr → Bool
  | .selectedEdge _ us => us < 1000
  | .dwellEnd slot _ => slot < 48
  | .conditionReport slot => slot < 48
  | .badFrame _ received cut => frameBad received cut
  | .badRequest _ _ code => !codeNamesRequest code
  | .nop .. | .place .. | .read .. | .amend .. | .renew .. | .retire .. | .find .. | .list .. | .collect .. | .causes ..
  | .maskSet .. | .maskClear .. | .status .. | .faultRead .. | .clearFault .. | .configWrite .. | .configRead ..
  | .adaptRead .. | .adaptWrite .. | .start .. | .stop .. | .portReset .. | .busy .. | .transactionBegin _
  | .answerWritten _ | .portResetInput .. | .powerOnReset | .enableFall | .enableRise | .trailerPresentChange _
  | .debounceTimerExpiry | .breakawayInputChange _ | .breakawayTimerExpiry | .muPublication _ | .speedChannelStall _
  | .recordedEdgeExpiry _ | .lostTimerExpiry _ | .windowTimerExpiry _ | .mismatchTimerExpiry | .supplyTimerExpiry
  | .leaseExpiry | .brakeAxleReleaseTimerExpiry | .faultConditionReport _ | .flowWaitExpiry _ | .fillEnd | .holdEnd
  | .rampOnEnd | .lockRampEnd _ | .syncLimitExpiry _ | .decelerationLimitExpiry | .rampOffEnd | .upTimerExpiry
  | .downTimerExpiry | .coolingStep | .gearSlipTimerExpiry | .setTimerExpiry | .clearTimerExpiry | .axleFillEnd
  | .settleEnd | .axleMismatchTimerExpiry | .excessTimerExpiry | .stepTimerExpiry | .deviationTimerExpiry
  | .stallTimerExpiry | .trackingTimerExpiry | .periodBoundary _ | .openLoadTimerExpiry _ | .shortCircuitTrip ..
  | .throttleTimerExpiry _ | .heldResetDiscard _ => true

end Sys2Proof
end

