-- ==== Sys2Proof/Certificates/Slice0/Obligations.lean ====
section
/-! DEFINITION. The statements for the provers. Requests are stated from the rise of chip-select at a port that takes them
(`PortRec.takes`, log 5 and 6) to the answer in flight; events from a state in which they are due. -/

open Sys2Proof Sys2Proof.Machine

/-! The queue, and every command. -/

/-- A step runs the command at the front of the queue on the queue's rest; on an empty queue the part idles (the model's
choice, log 2). -/
def Obligations.StepRunsTheFrontCommand : Prop :=
  (∀ (c : Instr) (rest : List Instr) (s : State),
    step { s with pending := c :: rest } = exec c { s with pending := rest }) ∧
  ∀ s : State, s.pending = [] → step s = .next s

/-- Every command leads to a next state from every state, and leaves the rest of the queue alone. That an event which is not due
leads on, changing nothing, is the model's choice (log 4), and so is that POWER_ON_RESET keeps the queue (log 29). -/
def Obligations.EveryCommandCompletes : Prop :=
  ∀ (c : Instr) (s : State), CompletesWith c s fun t => t.pending = s.pending

/-- The timebase turns once a millisecond, by one modulo 2^32, from 0 at power-on reset (R28, R44). It turns with the
publication that opens the millisecond, or with the end of a time that comes due in the millisecond and is taken ahead of its
publication, which is then taken in the turned state; no other command moves it. That the turn stands in these commands is the
model's choice (log 3). -/
def Obligations.TimebaseCountsMilliseconds : Prop :=
  ∀ (c : Instr) (s t : State), exec c s = .next t →
    match c with
    | .muPublication _ => t.now = (if s.mu.published then s.now + 1 else s.now) ∧ t.mu.published = true
    | .powerOnReset => t.now = 0 ∧ t.mu.published = true
    | c =>
      t.now = s.now ∧ t.mu.published = s.mu.published ∨
        endsTime c = true ∧ s.mu.published = true ∧ t.now = s.now + 1 ∧ t.mu.published = false ∧
          exec c s.turned = .next t

/-! Reset. -/

/-- What power-on reset leaves, with the pins as they are (that the inputs keep their levels is the model's choice, log 29); and
the governing orders it resolves from the level of ENABLE: SAFE_NEUTRAL governs GEAR exactly while ENABLE is low, and every
other channel is governed by its class-3 default. -/
def Obligations.PowerOnResetLeaves : Prop :=
  (∀ s : State, CompletesWith .powerOnReset s fun t =>
     t.cs = ⟨.config, defaultItems⟩ ∧ t.now = 0 ∧ t.lcu.leases = [] ∧ t.inputs = s.inputs ∧
     (∀ k < 48, t.incarnation k = 0) ∧ (∀ k < 48, 8 ≤ k → t.order k = none) ∧
     (∀ k < 8, ∃ o, t.order k = some o ∧ o.owner = .internal ∧ o.gen = 1 ∧ o.lease = 0 ∧ o.termCount = 0 ∧
       o.keeping = .none) ∧
     t.otu.lists = ⟨[0, 4], [1, 5], [2, 6], [3, 7]⟩ ∧ t.otu.live = ⟨0, 0⟩ ∧
     (∀ ch, (t.mu.speed.get ch).timing = .still none) ∧ (∀ ch, (t.mu.conv.get ch).window = .inWindow) ∧ t.pub = .none ∧
     (∀ c, t.sq.state c = .opened) ∧ t.sq.queue = [] ∧ t.sq.interlock = true ∧ t.sq.autoTarget = 0 ∧
     t.acu.coupling = .engaged ∧ t.acu.latch = false ∧ t.hr.mode = .hold ∧ t.hr.motion = .idle ∧ t.tbu.presence = false ∧
     (∀ ch, (t.os.get ch).inForce = 0 ∧ (t.os.get ch).pending = 0 ∧ (t.os.get ch).tripped = false) ∧
     (∀ k, t.fu.entry.get k = ⟨false, none⟩) ∧ t.fu.record = none ∧
     ∀ p, (t.port p).slot = .noneAnswer ∧ (t.port p).inFlight = none ∧ (t.port p).changed = [] ∧ (t.port p).causes = 0 ∧
       (t.port p).causeMask = 0 ∧ t.fu.mask.get p = 0 ∧ (t.port p).asserted = false ∧ (t.port p).throttle = none ∧
       (t.port p).badFrames = 0 ∧ (t.port p).busys = 0) ∧
  (∀ s : State, CompletesWith .powerOnReset s fun t =>
     t.governing .gear = some (if s.inputs.enable then 4 else 0) ∧ t.governing .axle = some 5 ∧
     t.governing .hitch = some 6 ∧ t.governing .tbrake = some 7 ∧ t.fu.safeNeutral = !s.inputs.enable)

/-- Every invariant stated below holds right after reset. -/
def Obligations.InvariantsHoldAtReset : Prop :=
  State.reset.FlowSafe ∧ State.reset.InternalLive ∧ State.reset.ValvesApart ∧ State.reset.QueueForm ∧
  State.reset.SetsAscend ∧ State.reset.LeaseForm ∧ State.reset.StoreForm ∧ State.reset.SetpointsHanded ∧
  State.reset.ListForm ∧ State.reset.DefaultsStand ∧ State.reset.LeasesOrdered ∧ State.reset.KeepingsWritten ∧
  State.reset.CouplingForm ∧ State.reset.GearboxForm ∧ State.reset.LinesAttend ∧ State.reset.CountForm

/-! Invariants that every step keeps. -/

/-- The flow grants and the trailer reserve never exceed the flow capacity; and the coupling is RELEASING exactly while the
axle holds its grant, and in RELEASE_WAIT exactly while its request waits. -/
def Obligations.FlowSafeKept : Prop :=
  (∀ s t : State, s.FlowSafe → step s = .next t → t.FlowSafe) ∧
  ∀ s t : State, s.CouplingForm → step s = .next t → t.CouplingForm

/-- The internal slots stay live, internal and in incarnation 0. -/
def Obligations.InternalLiveKept : Prop := ∀ s t : State, s.InternalLive → step s = .next t → t.InternalLive

/-- The two hitch valves never carry current at the same time. -/
def Obligations.ValvesApartKept : Prop := ∀ s t : State, s.ValvesApart → step s = .next t → t.ValvesApart

/-- The step queue holds at most four steps, and only its head is started. The gearbox fits its queue and its fill request: the
head waits for flow exactly while the request waits and is in FILL exactly while it is granted, a clutch is in FILL only as an
on-coming clutch of that head, and in HALT and CONFIG the queue is empty and every clutch OPEN. In such a gearbox at most one
clutch of each group is LOCKED and at most two are other than OPEN. -/
def Obligations.QueueFormKept : Prop :=
  (∀ s t : State, s.QueueForm → step s = .next t → t.QueueForm) ∧
  (∀ s t : State, s.GearboxForm → step s = .next t → t.GearboxForm) ∧
  ∀ s : State, s.GearboxForm → s.GroupsShare

/-- Each changed-order set holds each slot at most once, in ascending order. An attention line is asserted only over an
unmasked cause, and over one it is deasserted only while its throttle timer runs. Whatever the command, a slot that enters an
empty changed-order set sets ORDERS at the port, and a change of engaged direction, locked range or locked step sets GEAR at
both ports (power-on reset clears them). -/
def Obligations.SetsAscendKept : Prop :=
  (∀ s t : State, s.SetsAscend → step s = .next t → t.SetsAscend) ∧
  (∀ s t : State, s.LinesAttend → step s = .next t → t.LinesAttend) ∧
  ∀ (c : Instr) (s t : State), exec c s = .next t → ∀ p,
    ((s.port p).changed = [] → (t.port p).changed ≠ [] → (t.port p).causes.getLsbD 0 = true) ∧
    (c ≠ .powerOnReset → t.sq.engaged ≠ s.sq.engaged ∨ t.sq.range ≠ s.sq.range ∨ t.sq.step ≠ s.sq.step →
      (t.port p).causes.getLsbD 2 = true)

/-- The lease list holds one entry for each leased order that is live and not LAPSED, and none in CONFIG. -/
def Obligations.LeaseFormKept : Prop := ∀ s t : State, s.LeaseForm → step s = .next t → t.LeaseForm

/-- The store keeps its layout, and every value its range. The range and the default of every value of every item, item by
item; the gains and the fault actions by their own rows; and the three checks between values. -/
def Obligations.StoreFormKept : Prop :=
  (∀ s t : State, s.StoreForm → step s = .next t → t.StoreForm) ∧
  (let same (n : Nat) (row : Nat × Nat × Nat) : List (Nat × Nat × Nat) := List.replicate n row
   let clutch : List (Nat × Nat × Nat) :=
     [(0, 2000, 1100), (20, 400, 120), (1, 16, 4), (0, 2000, 350), (20, 300, 80), (50, 800, 300), (0, 2000, 700),
      (0, 2000, 1400), (20, 200, 60), (200, 5000, 1500)]
   let rows : List (List (Nat × Nat × Nat)) :=
     [same 12 (0, 20000, 0), same 12 (0, 20000, 0)] ++ List.replicate 9 clutch ++
     [[(1, 16, 5), (0, 2000, 1200), (20, 400, 150), (0, 2000, 600), (50, 1000, 200)],
      [(8, 63, 24), (1, 8, 3), (50, 500, 200), (1, 60, 12)],
      [(1, 250, 60), (10, 5000, 400), (10, 5000, 300), (10, 5000, 1300)] ++ same 4 (0, 2, 0),
      [(50, 1000, 250), (500, 4000, 1500)],
      [(0, 4095, 0), (0, 4095, 2048), (0, 4095, 2048)] ++ same 5 (0, 4095, 0),
      [],
      same 8 (0, 4095, 100),
      same 8 (0, 4095, 3995),
      [(500, 10000, 2000), (50, 400, 200), (0, 1000, 800)],
      [(20, 500, 80), (20, 500, 100), (1000, 65535, 40000), (0, 65535, 20000), (1, 1000, 200)],
      [(1, 100, 8), (0, 1000, 300), (10, 150, 60), (0, 1000, 250), (1, 20, 4), (100, 2000, 1200)],
      [(50, 300, 100), (200, 2000, 1600), (2000, 16000, 15000)],
      [(50, 150, 100), (0, 1, 0), (0, 4000, 0), (2000, 15000, 12000)],
      same 2 (4, 40, 24),
      [(0, 1, 1), (0, 1, 1), (0, 1, 1), (0, 1, 0)],
      same 2 (0, 250, 20),
      [],
      same 9 (0, 200, 60) ++ [(0, 200, 0), (0, 200, 40), (0, 200, 40), (0, 200, 0)]]
   let gains : List Int := [1000, 2000, 2000, 16000, 16000, 1000, 16000, 6000]
   let actions : List (List Nat × Nat) :=
     [([0, 1, 2], 2), ([1, 2], 2), ([0, 1], 1), ([0, 1, 2], 1), ([0, 1], 1), ([0], 0), ([0, 2], 0), ([0], 0), ([0, 2], 2),
      ([0, 1], 1), ([0, 1], 1), ([0], 0), ([0, 1], 1), ([3], 3), ([0], 0)]
   (∀ i, itemLength i = if i = 16 then 8 else if i = 27 then 15 else (rows.getD i []).length) ∧
   (∀ i x low high default, (rows.getD i [])[x]? = some (low, high, default) →
     itemNat defaultItems i x = default ∧ ∀ w : Word, valueOk i x w = true ↔ low ≤ w.toNat ∧ w.toNat ≤ high) ∧
   (∀ x default, gains[x]? = some default →
     (itemValue defaultItems 16 x).toInt = default ∧ ∀ w : Word, valueOk 16 x w = true ↔ -32767 ≤ w.toInt) ∧
   ∀ x allowed default, actions[x]? = some (allowed, default) →
     itemNat defaultItems 27 x = default ∧ ∀ w : Word, valueOk 27 x w = true ↔ w.toNat ∈ allowed) ∧
  ∀ (items : List (List Word)) (i : Nat),
    crossOk items i = true ↔
      (i = 17 ∨ i = 18 → ∀ ch < 8, itemNat items 17 ch < itemNat items 18 ch) ∧
      (i = 20 → itemNat items 20 3 < itemNat items 20 2) ∧
      (i = 21 → itemNat items 21 3 ≤ itemNat items 21 5)

/-- The clutch records hold the currents of their states, and in RUN the pending setpoints are the commanded currents. -/
def Obligations.SetpointsHandedKept : Prop :=
  ∀ s t : State, s.SetpointsHanded → step s = .next t → t.SetpointsHanded

/-- The precedence list of each channel holds each live order of the channel exactly once, classes ascending; every order on it
has the state of R10, so that at most one is GOVERNING; and only a GOVERNING order has a keeping. The class-3 default of each
channel stays eligible, so each channel has exactly one GOVERNING order. Each port's live-order count is the number of its
live orders and never exceeds its quota. -/
def Obligations.ListFormKept : Prop :=
  (∀ s t : State, s.ListForm → step s = .next t → t.ListForm) ∧
  (∀ s t : State, s.CountForm → step s = .next t → t.CountForm) ∧
  (∀ s t : State, s.DefaultsStand → step s = .next t → t.DefaultsStand) ∧
  ∀ s : State, s.ListForm → s.DefaultsStand → ∀ ch, ∃ k o,
    s.governing ch = some k ∧ s.order k = some o ∧ o.channel = ch ∧ o.state = .governing ∧
      ∀ j o', s.order j = some o' → o'.channel = ch → o'.state = .governing → j = k

/-- The lease list stays in the order of time remaining, shortest first, and of slots where deadlines are equal, as long as no
deadline has come when the timebase turns. (A lease whose deadline has come is the next event of its millisecond, which the
queue of commands is to bring, log 4.) -/
def Obligations.LeasesOrderedKept : Prop :=
  ∀ s t : State, s.LeasesOrdered → step s = .next t →
    t.now = s.now ∨ (∀ e ∈ s.lcu.leases, 0 < remaining s.now e.deadline) ∨ t.lcu.leases = [] → t.LeasesOrdered

/-- In RUN the governing order of each channel holds the keeping that its job unit assesses; and the assessments by their rows,
the first that applies. (The gearbox in a state in RUN; that the keepings are written at the end of each event is log 25, the
draft rows of the hitch are log 32; a held-back raise counts as such until the next publication, log 20 and log 43; whether the
upper limit clamp applies is settled at publications and hand-overs, log 55. That the precedence
lists have their form, which every step keeps, rules out a slot on two lists.) -/
def Obligations.KeepingsAreWritten : Prop :=
  (∀ s t : State, s.ListForm → s.KeepingsWritten → step s = .next t → t.KeepingsWritten) ∧
  (∀ s : State, s.running = true →
     let q := s.sq
     (s.enable = false → s.keepingOf .gear = .waiting .faultDegraded) ∧
     (s.enable = true →
       (∀ st, q.started = some st →
         s.keepingOf .gear = (if st.phase = some .flowWait then .waiting .flowWait else .limited .shifting)) ∧
       (∀ st, q.waitingHead = some st →
         s.keepingOf .gear =
           (if st.kind = .engage ∧ q.interlock = true then .limited .restartInterlock
            else if ∃ c ∈ st.on, (q.clutch.get c).hot = true then .limited .hotClutch
            else if st.kind ≠ .neutralize ∧ s.pub.band = .modulating ∧ s.seqState = .inch then .waiting .inchWait
            else .kept)) ∧
       (q.queue = [] →
         s.keepingOf .gear =
           (if q.auto = true ∧ s.pub.engine = none then .limited .faultDegraded
            else if q.auto = true ∧ (q.refusalUp = true ∨ q.refusalDown = true) then .limited .band
            else .kept)))) ∧
  (∀ s : State,
     let c := s.acu.coupling
     s.keepingOf .axle =
       (if s.acuWishReleased = true ∧ s.enable = false then .waiting .faultDegraded
        else if s.acuWishReleased = true ∧ s.acuDegraded = true then .limited .faultDegraded
        else if s.acuWishReleased = true ∧ s.sq.flags.releaseDeferral = true ∧ (c = .engaged ∨ c = .engaging) then
          .waiting .shiftWait
        else if s.acuWishReleased = true ∧ c ≠ .released then .waiting .flowWait
        else if s.acu.auto = true ∧ (s.pub.slip = none ∨ s.pub.ground = none) then .limited .sensorDegraded
        else .kept)) ∧
  (∀ s : State,
     let h := s.hr
     let mode := takenField h.taken 0
     let draft : Prop := mode = 1 ∨ mode = 2
     let moves : Prop := mode ≠ 4 ∨ h.transport = true
     s.keepingOf .hitch =
       (if moves ∧ s.enable = false then .waiting .faultDegraded
        else if moves ∧ h.stallMark = true then .limited .stalled
        else if moves ∧ (h.openMark = true ∨ h.shortMark = true) then .limited .faultDegraded
        else if moves ∧ s.pub.position = none then .waiting .sensorDegraded
        else if h.blocked = true then .waiting .faultDegraded
        else if h.mode = .liftWait then .waiting .flowWait
        else if h.motion = .raise ∧ 0 < h.granted ∧ h.granted < h.asked then .limited .flowWait
        else if h.clamp = true then .limited .upperLimit
        else if draft ∧ s.pub.draft = none then .limited .sensorDegraded
        else if s.sq.flags.draftFreeze = true ∧ (mode = 1 ∨ mode = 2 ∧ 0 < h.mix) then .limited .draftFrozen
        else if 0 < h.trim ∧ mode ≤ 2 then .limited .slipTrim
        else .kept)) ∧
  ∀ s : State, s.keepingOf .tbrake =
    (if s.tbuState = .emergency then .kept
     else if s.tbuState = .detached then .waiting .detached
     else if s.enable = false ∨ s.tbu.openMark = true ∨ s.tbu.shortMark = true ∨
         (s.pub.brakeL = none ∧ s.pub.brakeR = none) then .limited .faultDegraded
     else .kept)

/-- While ENABLE is low or the device is in CONFIG, every output channel carries zero current, whatever it is commanded. -/
def Obligations.NoCurrentUnlessEnabledInRun : Prop :=
  ∀ (s : State) (ch : OutCh), s.enable = false ∨ s.running = false → s.outputCurrent ch = 0

/-! Frames. -/

/-- For every command that a frame carries, reading its frame gives the command with every operand; a frame cut short part
way through a byte is BAD_FRAME whatever its bytes. -/
def Obligations.FrameRoundTrip : Prop :=
  (∀ (c : Instr) (f : List Byte), c.wellFormed = true → requestFrame c = some f →
    (∀ p r, c ≠ .badFrame p r true) → frameCommand c.port f false = c) ∧
  ∀ (p : Port) (r : List Byte), frameCommand p r true = .badFrame p r true

/-- The CRC-8 of R186 on its check string, and three frames written out byte by byte; and every answer frame has 25 bytes and
closes with the CRC-8 of its first 24; a transaction clocks it out, and 0 after it. -/
def Obligations.FrameBytes : Prop :=
  (crc8 [0x31, 0x32, 0x33, 0x34, 0x35, 0x36, 0x37, 0x38, 0x39] = 0x20 ∧
   frameCommand .cab
     [4, 41, 10, 3, 0, 0, 0, 0, 0, 0, 0, 0, 0, 0, 0, 0, 0, 0, 0, 0, 0, 0, 0, 0, 0xF5] false = .renew .cab 41 10 3 ∧
   frameCommand .implement
     [1, 7, 2, 2, 1, 0, 0x01, 0xF4, 0, 2, 0x01, 0xA4, 0, 0, 0, 0, 0, 0, 0, 0, 0, 0, 0, 0, 0xC6] false =
     .place .implement 7 2 2 1 500 ⟨2, 420, 0, 0, 0, 0, 0, 0⟩ ∧
   frameCommand .cab
     [3, 9, 11, 2, 16, 0x84, 0, 1, 0, 0, 0, 80, 0, 20, 0, 100, 0, 0, 0, 0, 0, 0, 0, 0, 0x23] false =
     .amend .cab 9 11 2 16 true 4 1 ⟨0, 80, 20, 100, 0, 0, 0, 0⟩) ∧
  (∀ a : Answer, a.frame.length = 25 ∧ a.frame.take 24 = a.body a.result.code ∧
     a.frame.getD 24 0 = crc8 (a.frame.take 24) ∧ (∀ n < 25, a.clocked n = a.frame.getD n 0) ∧
     ∀ n, 25 ≤ n → a.clocked n = 0)

/-! Transactions and port events. -/

/-- The fall of chip-select: what the transaction clocks out and what becomes of its request; a fall with a transaction under
way is none (the model's choice, log 5). The answer in flight goes into the answer slot, unless a transaction began first:
then it is discarded. Requests that reach no block: a bad frame is counted and answered BAD_FRAME with the code and the tag
received; a request whose transaction began while another was in flight is answered BUSY in the slot and counted; a
transaction that the reset input discards ends with no effect but its end. That the counts rise in these commands, ahead of
the BAD_FRAME answer's writing, is the model's reading (log 21), and a BAD_FRAME answer that is discarded counts too (log 63).
-/
def Obligations.TransactionsCarryAnswers : Prop :=
  ((∀ (p : Port) (s : State),
      let r := s.port p
      (∀ x, r.txn = some x → exec (.transactionBegin p) s = .next (s.setPort p r)) ∧
      (r.txn = none → r.resetHeld = true →
        exec (.transactionBegin p) s =
          .next (s.setPort p { r with dataOut := .noneAnswer, txn := some ⟨false, true⟩ })) ∧
      (∀ a, r.txn = none → r.resetHeld = false → r.inFlight = some a →
        exec (.transactionBegin p) s =
          .next (s.setPort p
            { r with dataOut := ⟨a.code, a.tag, .pending, .dormant, ⟨0, 0⟩, 0, .zero⟩, txn := some ⟨true, false⟩ })) ∧
      (r.txn = none → r.resetHeld = false → r.inFlight = none →
        exec (.transactionBegin p) s = .next (s.setPort p { r with dataOut := r.slot, txn := some ⟨false, false⟩ }))) ∧
   (∀ (p : Port) (s : State) (a : Answer), (s.port p).inFlight = some a →
      let r := s.port p
      ((∀ x, r.txn = some x → x.refused = false) →
        exec (.answerWritten p) s = .next (s.setPort p { r with slot := a, inFlight := none })) ∧
      (∀ x, r.txn = some x → x.refused = true →
        exec (.answerWritten p) s = .next (s.setPort p { r with inFlight := none })))) ∧
  ((∀ (p : Port) (received : List Byte) (cut : Bool) (s : State), (s.port p).takes →
      exec (.badFrame p received cut) s =
        .next (s.setPort p
          { (s.port p).begin with
            txn := none,
            badFrames := min 65535 ((s.port p).badFrames + 1),
            inFlight := some ⟨received.getD 0 0, received.getD 1 0, .badFrame, .dormant, ⟨0, 0⟩, 0, .zero⟩ })) ∧
   (∀ (p : Port) (tag code : Byte) (s : State), (s.port p).resetHeld = false → (s.port p).txn = some ⟨true, false⟩ →
      exec (.busy p tag code) s =
        .next (s.setPort p
          { s.port p with
            txn := none, slot := ⟨code, tag, .busy, .dormant, ⟨0, 0⟩, 0, .zero⟩, inFlight := none,
            busys := min 65535 ((s.port p).busys + 1) })) ∧
   (∀ (p : Port) (s : State) (x : Txn), (s.port p).txn = some x → (s.port p).resetHeld = true ∨ x.discard = true →
      exec (.heldResetDiscard p) s = .next (s.setPort p { s.port p with txn := none })))

/-! Requests that change nothing but their port. -/

/-- NOP is answered OK; a code that names no request is answered BAD_REQUEST; the requests of the CAB port alone are answered
DENIED from IMPLEMENT. None reaches a block. -/
def Obligations.PortAnswersByItself : Prop :=
  (∀ (p : Port) (tag code : Byte) (s : State), (s.port p).takes →
     exec (.nop p tag) s =
       .next ((s.risen p).answering p ⟨0, tag, .ok, .dormant, .empty, 0, .zero⟩) ∧
     exec (.badRequest p tag code) s =
       .next ((s.risen p).answering p ⟨code, tag, .badRequest, .dormant, .empty, 0, .zero⟩)) ∧
  (∀ (tag a b c : Byte) (v : Values) (s : State), (s.port .implement).takes →
     let denied (code : Byte) : Host.Outcome State Fault Refusal :=
       .next ((s.risen .implement).answering .implement ⟨code, tag, .denied, .dormant, .empty, 0, .zero⟩)
     exec (.clearFault .implement tag a) s = denied 14 ∧ exec (.configWrite .implement tag a b c v) s = denied 15 ∧
     exec (.adaptRead .implement tag a b) s = denied 17 ∧ exec (.adaptWrite .implement tag a b v) s = denied 18 ∧
     exec (.start .implement tag) s = denied 19 ∧ exec (.stop .implement tag) s = denied 20)

/-- READ: its two checks in order, and the run of fields it answers; the 24 fields of an order record in their order and codes.
FIND reports the governing order of a channel. LIST reports a run of handles of a precedence list; a position above 41 is
answered RANGE. None changes anything. A code that names no channel is answered BAD_REQUEST (R17). (That a handle with a slot
above 47 is STALE, whatever its incarnation, is the model's reading, log 8.) -/
def Obligations.OrderQueriesReport : Prop :=
  (∀ (s : State) (k : Nat) (o : Order),
     let reason (r : Reason) : Nat :=
       match r with
       | .shifting => 1 | .flowWait => 2 | .inchWait => 3 | .hotClutch => 4 | .restartInterlock => 5 | .band => 6
       | .shiftWait => 7 | .slipTrim => 8 | .upperLimit => 9 | .draftFrozen => 10 | .sensorDegraded => 11 | .stalled => 12
       | .detached => 13 | .faultDegraded => 14
     (List.range 24).map (s.fieldOf k o) =
       [Word.ofNat (match o.channel with | .gear => 0 | .axle => 1 | .hitch => 2 | .tbrake => 3), Word.ofNat o.cls,
        Word.ofNat (match o.owner with | .cab => 0 | .implement => 1 | .internal => 2),
        Word.ofNat (match o.state with | .dormant => 0 | .outranked => 1 | .governing => 2 | .lapsed => 3),
        Word.ofNat (match o.keeping with
          | .none => 0 | .kept => 0x100 | .limited r => 0x200 + reason r | .waiting r => 0x300 + reason r),
        o.lease,
        (match s.lcu.leases.find? fun e => e.slot = k with
          | some e => Word.ofNat (remaining s.now e.deadline)
          | none => 0),
        Word.ofNat o.termCount] ++
       o.setpoint.toList ++ [o.term1.quantity, o.term1.threshold, o.term1.hysteresis, o.term1.dwell] ++
       [o.term2.quantity, o.term2.threshold, o.term2.hysteresis, o.term2.dwell]) ∧
  (∀ (p : Port) (tag slot inc first count : Byte) (s : State), (s.port p).takes →
     let good : Prop := 1 ≤ count.toNat ∧ count.toNat ≤ 8 ∧ first.toNat + count.toNat ≤ 24
     (s.lookup ⟨slot, inc⟩ = none →
       exec (.read p tag slot inc first count) s =
         .next ((s.risen p).answering p ⟨2, tag, .stale, .dormant, ⟨slot, inc⟩, 0, .zero⟩)) ∧
     ∀ o, s.lookup ⟨slot, inc⟩ = some o →
       (¬ good → exec (.read p tag slot inc first count) s =
         .next ((s.risen p).answering p ⟨2, tag, .badField, o.state, ⟨slot, inc⟩, o.gen, .zero⟩)) ∧
       (good → exec (.read p tag slot inc first count) s =
         .next ((s.risen p).answering p
           ⟨2, tag, .ok, o.state, ⟨slot, inc⟩, o.gen,
             .ofList ((List.range count.toNat).map fun i => s.fieldOf slot.toNat o (first.toNat + i))⟩))) ∧
  (∀ (p : Port) (tag channel : Byte) (ch : Channel) (k : Nat) (o : Order) (s : State), (s.port p).takes →
     channelOf channel = some ch → s.governing ch = some k → k < 256 → s.order k = some o →
     exec (.find p tag channel) s =
       .next ((s.risen p).answering p
         ⟨6, tag, .ok, .governing, s.handle k, o.gen,
           ⟨Word.ofNat o.owner.code, Word.ofNat o.cls, o.keeping.code, Word.ofNat (s.list ch).length, 0, 0, 0, 0⟩⟩)) ∧
  (∀ (p : Port) (tag channel position : Byte) (ch : Channel) (s : State), (s.port p).takes →
     channelOf channel = some ch →
     (41 < position.toNat → exec (.list p tag channel position) s =
       .next ((s.risen p).answering p ⟨7, tag, .range, .dormant, .empty, 0, .zero⟩)) ∧
     (position.toNat ≤ 41 → exec (.list p tag channel position) s =
       .next ((s.risen p).answering p
         ⟨7, tag, .ok, .dormant, .empty, Word.ofNat (s.list ch).length,
           .ofList ((List.range 8).map fun i =>
             match (s.list ch)[position.toNat + i]? with
             | some k => (s.handle k).word
             | none => Handle.empty.word)⟩))) ∧
  ∀ (p : Port) (tag channel position : Byte) (s : State), (s.port p).takes → 3 < channel.toNat →
    exec (.find p tag channel) s =
      .next ((s.risen p).answering p ⟨6, tag, .badRequest, .dormant, .empty, 0, .zero⟩) ∧
    exec (.list p tag channel position) s =
      .next ((s.risen p).answering p ⟨7, tag, .badRequest, .dormant, .empty, 0, .zero⟩)

/-- STATUS answers eight values of the view it names from a first index on; CONFIG_READ answers the device state (whose code
is the model's free value, log 13), seven values of an item from an index on, and the item's length. Neither changes
anything. -/
def Obligations.ViewsAndItemsAreReported : Prop :=
  (∀ (p : Port) (tag view first : Byte) (s : State), (s.port p).takes →
     (8 < view.toNat → exec (.status p tag view first) s =
       .next ((s.risen p).answering p ⟨12, tag, .badRequest, .dormant, .empty, 0, .zero⟩)) ∧
     ∀ l, s.view view = some l →
       l.length = [41, 22, 31, 54, 16, 20, 17, 79, 28].getD view.toNat 0 ∧
       (l.length ≤ first.toNat → exec (.status p tag view first) s =
         .next ((s.risen p).answering p ⟨12, tag, .range, .dormant, .empty, 0, .zero⟩)) ∧
       (first.toNat < l.length → exec (.status p tag view first) s =
         .next ((s.risen p).answering p
           ⟨12, tag, .ok, .dormant, .empty, 0, .ofList ((List.range 8).map fun i => l.getD (first.toNat + i) 0)⟩))) ∧
  (∀ (p : Port) (tag item first : Byte) (s : State), (s.port p).takes →
     (28 < item.toNat → exec (.configRead p tag item first) s =
       .next ((s.risen p).answering p ⟨16, tag, .badRequest, .dormant, .empty, 0, .zero⟩)) ∧
     (item.toNat ≤ 28 → itemLength item.toNat ≤ first.toNat → exec (.configRead p tag item first) s =
       .next ((s.risen p).answering p ⟨16, tag, .range, .dormant, .empty, 0, .zero⟩)) ∧
     (item.toNat ≤ 28 → first.toNat < itemLength item.toNat → exec (.configRead p tag item first) s =
       .next ((s.risen p).answering p
         ⟨16, tag, .ok, .dormant, .empty, Word.ofNat (itemLength item.toNat),
           .ofList (Config.deviceCode s.running ::
             (List.range 7).map fun i => itemValue s.items item.toNat (first.toNat + i))⟩)))

/-- The nine status views, value by value, in the order and the codes of chapter 13.3. MEASURE is the MU as it stands: a channel
whose lost mark was cleared reads LOST, and a converter channel that an unlatch took out of OUT_OF_RANGE has no value, until the
next publication. The sequencer state by the rows of its table, and the gear record: engaged direction, locked range, locked
step, the direction LOCKED or in SYNC, gear number. (The model's reading of the moment, log 16, and of a timer that has run out,
log 50; its choices: a speed in the AXLE view that is unavailable reads 0, log 39; the draft fallback mark in HOLD and CONFIG,
log 49, with mix 0, log 60, and where a draft returns within a freeze, log 62; the TRAILER view's law in CONFIG, log 44; the
speed-only fallback mark in CONFIG, log 57; the gear number with a direction engaged and no gear locked, log 37; the BAD_FRAME
count, log 63. Free: what a count above 65535 reads, log 12, and the gear site of a step without a complete result, log 14.) -/
def Obligations.ViewsHold : Prop :=
  (∀ s : State,
     let q := s.sq
     let started (k : StepKind) : Bool := q.queue.head?.any fun st => st.phase.isSome && st.kind = k
     let locked (c : Clutch) : Bool := q.state c = .locked
     let syncs (c : Clutch) : Bool := q.state c = .sync
     let opened : Bool := q.state .cf = .opened && q.state .cr = .opened
     let row : Option SeqState :=
       if s.running = false then some .stopped
       else if s.enable = false then some .halt
       else if started .single ∨ started .range then some .powershift
       else if started .shuttle then some .shuttle
       else if started .engage then some .engage
       else if started .neutralize then some .disengage
       else if started .free ∧ opened then some .preselect
       else if syncs .cf ∨ syncs .cr ∨ started .free then some .inch
       else if locked .cf ∨ locked .cr then some .drive
       else if opened then some .neutral
       else none
     (∀ x, row = some x → s.seqState = x) ∧
     q.engaged = (if locked .cf then some .forward else if locked .cr then some .reverse else none) ∧
     q.range = (if locked .ca then some .a else if locked .cb then some .b else if locked .cc then some .c else none) ∧
     q.step =
       (if locked .c1 then some .s1 else if locked .c2 then some .s2 else if locked .c3 then some .s3
        else if locked .c4 then some .s4 else none) ∧
     q.takeUp =
       (if locked .cf ∨ syncs .cf then some .forward else if locked .cr ∨ syncs .cr then some .reverse else none) ∧
     q.gearNumber =
       (match q.engaged, q.range, q.step with
       | some _, some r, some n =>
         4 * (match r with | .a => 0 | .b => 1 | .c => 2) + (match n with | .s1 => 1 | .s2 => 2 | .s3 => 3 | .s4 => 4)
       | _, _, _ => 0)) ∧
  (∀ s : State,
     let p := s.pub
     let int (v : Option Int) : Word := Word.ofInt (v.getD 0)
     let nat (v : Option Nat) : Word := viewNat (v.getD 0)
     let time (t : Time) : List Word := [t.extractLsb' 16 16, t.extractLsb' 0 16]
     let dir (d : Option Dir) : Nat := match d with | none => 0 | some .forward => 1 | some .reverse => 2
     let band (b : Band) : Nat := match b with | .released => 0 | .modulating => 1 | .pressed => 2
     let request (r : ReqState) : Nat := match r with | .idle => 0 | .waiting => 1 | .granted => 2
     let taken (t : Option Taken) : Word := ((t.map Taken.handle).getD ⟨255, 255⟩).word
     (let m := s.measured
      s.view 0 = some (
        (SpeedCh.all.map fun ch =>
          let r := s.mu.speed.get ch
          Word.ofNat (if r.lost ∨ r.resuming then 2 else match r.timing with | .valid .. => 0 | .still _ => 1)) ++
        [nat m.engine, nat m.wheel, nat m.front, nat m.radar, nat m.ground,
         Word.ofNat (match m.source with | .radar => 0 | .wheel => 1), nat m.slip] ++
        (ConvCh.all.map fun ch =>
          Word.ofNat (match (s.mu.conv.get ch).window with | .inWindow => 0 | .outPending _ => 1 | .outOfRange => 2)) ++
        [int (m.position.map Int.ofNat), int m.draftL, int m.draftR, int (m.brakeL.map Int.ofNat),
         int (m.brakeR.map Int.ofNat), int (m.pedal.map Int.ofNat), int (m.line.map Int.ofNat),
         int (m.supply.map Int.ofNat)] ++
        (ConvCh.all.map fun ch => (s.mu.conv.get ch).raw.setWidth 16) ++
        [int m.draft, nat m.service, Word.ofNat (band m.band),
         bitSet [m.engine.isNone, m.wheel.isNone, m.front.isNone, m.radar.isNone, m.ground.isNone, m.slip.isNone,
           m.position.isNone, m.draftL.isNone, m.draftR.isNone, m.draft.isNone, m.brakeL.isNone, m.brakeR.isNone,
           m.service.isNone, m.pedal.isNone, m.line.isNone, m.supply.isNone]] ++
        time s.now) ∧
      (s.mu.begun = true → m = s.publication) ∧
      (s.mu.begun = false →
        m = { Pub.none with chans := s.publication.chans, windows := s.publication.windows, raws := s.publication.raws })) ∧
     (let f := s.flow
      let lift := if f.liftAsked = 0 then 0 else if f.liftGranted < f.liftAsked then 1 else 2
      let waiting :=
        (if f.fill.state = .waiting then [0] else []) ++ (if f.axle.state = .waiting then [1] else []) ++
          if lift = 1 then [2] else []
      let waited (e : FlowEntry) : Word := match e.wait with | some t => viewNat (elapsed s.now t) | none => 0
      s.view 1 = some (
        [itemValue s.items 12 0, itemValue s.items 12 1, itemValue s.items 12 2, itemValue s.items 12 3,
         viewNat (flowBudget s.items - (f.fill.granted + f.axle.granted + f.liftGranted)), Word.mark f.hold,
         Word.ofNat (request f.fill.state), viewNat f.fill.asked, viewNat f.fill.granted,
         (match f.fillSite with | some c => Word.ofNat c.code | none => 0xFFFF), waited f.fill,
         Word.ofNat (request f.axle.state), viewNat f.axle.asked, viewNat f.axle.granted, waited f.axle,
         Word.ofNat lift, viewNat f.liftAsked, viewNat f.liftGranted, Word.ofNat waiting.length] ++
        (List.range 3).map fun i => match waiting[i]? with | some c => Word.ofNat c | none => 0xFFFF)) ∧
     (let q := s.sq
      let step (st : GearStep) : List Word :=
        [Word.ofNat (match st.kind with
           | .single => 0 | .range => 1 | .shuttle => 2 | .free => 3 | .engage => 4 | .neutralize => 5),
         st.result.word, Word.mark st.phase.isSome,
         Word.ofNat (match st.phase with
           | none => 0 | some .flowWait => 1 | some .fill => 2 | some .hold => 3 | some .rampOn => 4 | some .sync => 5
           | some .rampOff => 6)]
      s.view 2 = some (
        [Word.ofNat (match s.seqState with
           | .stopped => 0 | .neutral => 1 | .preselect => 2 | .engage => 3 | .drive => 4 | .powershift => 5
           | .shuttle => 6 | .inch => 7 | .disengage => 8 | .halt => 9),
         Word.ofNat (dir q.engaged), Word.ofNat (match q.range with | none => 0 | some r => r.num + 1),
         Word.ofNat (match q.step with | none => 0 | some t => t.num + 1), Word.ofNat q.gearNumber,
         Word.mark q.interlock, Word.ofNat q.autoTarget, Word.ofNat (dir q.takeUp), Word.ofNat (band p.band),
         bitSet [q.flags.draftFreeze, q.flags.assistWindow, q.flags.releaseDeferral], Word.ofNat q.queue.length] ++
        ((List.range 4).map fun i => match q.queue[i]? with | some st => step st | none => [0, 0, 0, 0]).flatten ++
        [(match q.started with | some st => viewNat (elapsed s.now st.phaseStart) | none => 0),
         q.up.ran s.now, q.down.ran s.now, taken q.taken])) ∧
     s.view 3 = some (Clutch.all.map fun c =>
       let r := s.sq.clutch.get c
       [Word.ofNat (match r.state with
          | .opened => 0 | .fill => 1 | .hold => 2 | .rampOn => 3 | .sync => 4 | .locked => 5 | .rampOff => 6),
        viewNat r.current, Word.ofInt r.fillOffset, Word.ofInt r.trend, viewNat r.heat, Word.mark r.hot]).flatten ∧
     (let a := s.acu
      s.view 4 = some
        [Word.ofNat (match a.coupling with
           | .engaged => 0 | .releaseWait => 1 | .releasing => 2 | .released => 3 | .engaging => 4),
         Word.mark s.acuWishReleased, Word.mark s.acuWantsReleased,
         bitSet [!s.enable, s.acuDegraded, a.openMark, a.shortMark], Word.mark a.latch, a.setTimer.ran s.now,
         a.clearTimer.ran s.now, Word.mark (a.auto && p.slip.isNone && p.ground.isSome),
         a.fill.ran s.now, a.settle.ran s.now,
         Word.mark s.sq.flags.releaseDeferral, nat p.front, nat p.wheel, a.mismatch.ran s.now,
         viewNat s.acuCurrent, taken a.taken]) ∧
     (let h := s.hr
      s.view 5 = some
        [Word.ofNat (match h.mode with | .hold => 0 | .regulating => 1 | .liftWait => 2 | .transport => 3),
         Word.ofNat (match h.motion with | .idle => 0 | .raise => 1 | .lower => 2), h.viewSetpoint, Word.ofInt h.error,
         nat p.position, int p.draft, int h.frozen, Word.mark h.frozen.isSome, viewNat h.trim,
         h.excess.ran s.now, h.step.ran s.now, viewNat h.asked, viewNat h.granted,
         viewNat (min 2000 s.hrRaise), viewNat (min 2000 s.hrLower), viewNat h.ceiling,
         h.deviation.ran s.now, Timer.ran s.now (h.stall.map StallRun.run),
         bitSet [h.stallMark, h.openMark, h.shortMark, h.draftMode && s.draftFallback, h.clamp], taken h.taken]) ∧
     (let t := s.tbu
      let state (x : TrailerState) : Nat :=
        match x with | .detached => 0 | .released => 1 | .braking => 2 | .assist => 3 | .emergency => 4
      s.view 6 = some
        [Word.ofNat (state s.tbuState), Word.mark t.presence, Word.mark s.inputs.trailerPresent,
         t.debounce.ran s.now, Word.mark s.inputs.breakaway, t.breakTimer.ran s.now, nat p.brakeL, nat p.brakeR,
         viewNat s.tbuLaw, viewNat s.tbuDemand, Word.mark s.sq.flags.assistWindow, Word.mark (s.tbuState = .assist),
         nat p.line, t.tracking.ran s.now, viewNat s.tbuCurrent, bitSet [t.openMark, t.shortMark],
         taken t.taken]) ∧
     s.view 7 = some ((OutCh.all.map fun ch =>
       let r := s.os.get ch
       [Word.ofNat (match s.outState ch with | .off => 0 | .driving => 1 | .gated => 2 | .tripped => 3),
        viewNat r.inForce, viewNat r.pending, viewNat r.measured, r.openTimer.ran s.now,
        viewNat (itemNat s.items 28 ch.code)]).flatten ++ [Word.mark s.enable]) ∧
     (let port (x : Port) (rights : List Word) : List Word :=
        let r := s.port x
        [viewNat (s.live x), itemValue s.items 24 x.code, Word.ofNat r.changed.length, r.causes.setWidth 16,
         r.causeMask.setWidth 16, Word.mark r.asserted,
         (match r.throttle with | some t => viewNat (remaining s.now t) | none => 0), itemValue s.items 26 x.code] ++
        rights ++ [viewNat r.badFrames, viewNat r.busys]
      s.view 8 = some (port .cab [2, 2, 2, 2] ++ port .implement ((List.range 4).map fun i => itemValue s.items 25 i)))) ∧
  (∀ n < 65536, viewNat n = Word.ofNat n) ∧
  (∀ (now : Time) (r : Run), Timer.ran now none = 0 ∧ Timer.ran now (some r) = viewNat (elapsed now r.start)) ∧
  (∀ (bs : List Bool) (i : Nat), bs.length ≤ 16 → (bitSet bs).getLsbD i = bs.getD i false) ∧
  (∀ (d : Dir) (r : Range) (t : StepNo),
     (Conf.mk (some d) (some r) (some t)).word =
       Word.ofNat ((match d with | .forward => 0 | .reverse => 256) + 4 * r.num + t.num + 1)) ∧
  ∀ h : Hr,
    (h.mode = .hold → h.viewSetpoint = viewNat (h.holdPos.getD 0)) ∧
    (h.mode = .transport → h.viewSetpoint = viewNat (h.transportPos.getD 0)) ∧
    (h.mode = .regulating ∨ h.mode = .liftWait →
      h.viewSetpoint =
        Word.ofInt (min ((takenField h.taken 1 : Int) + h.trim) (takenField h.taken 5 : Int)))

/-- FAULT_READ reports one kind or the summary and changes nothing. (When a kind is ACTIVE is said by ClearFaultUnlatches.) -/
def Obligations.FaultReadReports : Prop :=
  ∀ (p : Port) (tag kind : Byte) (s : State), (s.port p).takes →
    (∀ k, kindOf kind = some k → exec (.faultRead p tag kind) s =
      .next ((s.risen p).answering p
        ⟨13, tag, .ok, .dormant, .empty, 0,
          ⟨Word.mark (s.active k), Word.mark (s.latched k), (s.fu.entry.get k).site.getD noSite,
           Word.ofNat (s.action k).code, Word.mark ((s.fu.mask.get p).getLsbD k.code),
           Word.mark ((s.fu.mask.get p.other).getLsbD k.code), Word.mark (s.fu.clutchMark k), 0⟩⟩)) ∧
    (kind = 255 → exec (.faultRead p tag kind) s =
      .next ((s.risen p).answering p
        ⟨13, tag, .ok, .dormant, .empty, 0,
          .ofList ([bitSet (FaultKind.all.map s.latched), bitSet (FaultKind.all.map s.active),
            bitSet [s.fu.safeNeutral, s.fu.breakaway]] ++
            match s.fu.record with
            | some r => [Word.ofNat r.kind.code, r.site] ++ timeWords r.time ++ [r.handle.word]
            | none => [0xFFFF, 0, 0, 0, 0])⟩)) ∧
    (kind ≠ 255 → kindOf kind = none → exec (.faultRead p tag kind) s =
      .next ((s.risen p).answering p ⟨13, tag, .badRequest, .dormant, .empty, 0, .zero⟩))

/-! Requests on ports. -/

/-- COLLECT removes the lowest eight slots of the port's own changed-order set and answers them and the number that remains.
CAUSES returns the causes, the cause mask and the set's size, and clears the causes; the attention line deasserts, and its
throttle timer starts unless the throttle is 0. When the throttle timer of a deasserted line runs out, it is idle, and the
line asserts if an unmasked cause is set. -/
def Obligations.CollectAndCausesAreTaken : Prop :=
  (∀ (p : Port) (tag : Byte) (s : State), (s.port p).takes →
     let l := (s.port p).changed
     exec (.collect p tag) s =
       .next (s.setPort p
         { (s.port p).begin with
           txn := none,
           changed := l.drop 8,
           inFlight := some ⟨8, tag, .ok, .dormant, .empty, Word.ofNat (l.length - 8),
             .ofList ((List.range 8).map fun i => if i < l.length then Word.ofNat (l.getD i 0) else 0xFFFF)⟩ })) ∧
  ((∀ (p : Port) (tag : Byte) (s : State), (s.port p).takes →
      let r := s.port p
      let throttle := itemNat s.items 26 p.code
      exec (.causes p tag) s =
        .next (s.setPort p
          { r.begin with
            txn := none, causes := 0, asserted := false,
            throttle := if r.asserted ∧ throttle ≠ 0 then some (s.now + BitVec.ofNat 32 throttle) else r.throttle,
            inFlight := some ⟨9, tag, .ok, .dormant, .empty, 0,
              ⟨r.causes.setWidth 16, r.causeMask.setWidth 16, Word.ofNat r.changed.length, 0, 0, 0, 0, 0⟩⟩ })) ∧
   (∀ (p : Port) (s : State) (e : Time), (s.port p).throttle = some e → remaining s.now e = 0 →
      (s.port p).asserted = false →
      exec (.throttleTimerExpiry p) s =
        .next (s.setPort p
          { s.port p with
            throttle := none, asserted := (s.port p).causes &&& ~~~ (s.port p).causeMask ≠ 0 })))

/-- MASK_SET and MASK_CLEAR write the marks of the value in the named mask of the requesting port alone, and answer the mask.
The attention line follows a written cause mask; a mask that covers the last cause of an asserted line starts the throttle
timer, unless the throttle is 0. -/
def Obligations.MasksAreWritten : Prop :=
  ∀ (p : Port) (tag mask : Byte) (value : Word) (s : State), (s.port p).takes →
    let r := s.port p
    let v4 : BitVec 4 := value.setWidth 4
    let v15 : BitVec 15 := value.setWidth 15
    let written (c : Instr) (code : Byte) (m4 : BitVec 4) (m15 : BitVec 15) : Prop :=
      (mask = 0 → CompletesWith c s fun t =>
        (t.port p).causeMask = m4 ∧ (t.port p).causes = r.causes ∧
        (t.port p).inFlight =
          some ⟨code, tag, .ok, .dormant, .empty, 0, ⟨m4.setWidth 16, 0, 0, 0, 0, 0, 0, 0⟩⟩ ∧
        ((t.port p).asserted = true ↔
          r.causes &&& ~~~ m4 ≠ 0 ∧ (r.asserted = true ∨ r.throttle = none)) ∧
        (t.port p).throttle =
          (if r.asserted = true ∧ r.causes &&& ~~~ m4 = 0 ∧ itemNat s.items 26 p.code ≠ 0 then
             some (s.now + BitVec.ofNat 32 (itemNat s.items 26 p.code))
           else r.throttle) ∧
        t.port p =
          { r.begin with
            txn := none, causeMask := m4, inFlight := (t.port p).inFlight, asserted := (t.port p).asserted,
            throttle := (t.port p).throttle } ∧
        t = s.setPort p (t.port p)) ∧
      (mask = 1 → exec c s =
        .next (({ s with fu := { s.fu with mask := s.fu.mask.set p m15 } } : State).setPort p
          { r.begin with
            txn := none,
            inFlight := some ⟨code, tag, .ok, .dormant, .empty, 0, ⟨m15.setWidth 16, 0, 0, 0, 0, 0, 0, 0⟩⟩ })) ∧
      (1 < mask.toNat → exec c s =
        .next ((s.risen p).answering p ⟨code, tag, .badRequest, .dormant, .empty, 0, .zero⟩))
    written (.maskSet p tag mask value) 10 (r.causeMask ||| v4) (s.fu.mask.get p ||| v15) ∧
    written (.maskClear p tag mask value) 11 (r.causeMask &&& ~~~ v4) (s.fu.mask.get p &&& ~~~ v15)

/-! Requests on orders. -/

/-- PLACE, when its checks pass: the order as it stands in the lowest FREE slot, the counts, the list, the lease list and the
answer, whose keeping field is the first keeping where the order governs at once (the model's choice, log 35), and then its job
unit has taken it; every other order keeps what its placement and amendments wrote. -/
def Obligations.PlaceCreatesAnOrder : Prop :=
  ∀ (p : Port) (tag channel cls terms : Byte) (lease : Word) (v : Values) (ch : Channel) (k : Nat) (s : State),
    (s.port p).takes → channelOf channel = some ch → s.running = true → s.mayPlace p ch cls.toNat = true →
    leaseOk (ownerOf p) lease = true → terms.toNat ≤ 2 → setpointOk ch v = true → s.live p < quota s.items p →
    s.freeSlot = some k → s.otu.slots.length = 48 → (s.list ch).Nodup → k ∉ s.list ch →
    let o := placed p ch cls.toNat terms.toNat lease v
    let before := (s.list ch).takeWhile fun j => s.clsOf j < cls.toNat
    let ahead := before.any fun j => (s.order j).any Order.eligible
    CompletesWith (.place p tag channel cls terms lease v) s fun t =>
      8 ≤ k ∧ k < 48 ∧ s.order k = none ∧ (∀ j, 8 ≤ j → j < k → s.order j ≠ none) ∧
      (∃ o', t.order k = some o' ∧ o'.body = o.body ∧
        o'.state = (if terms = 0 then (if ahead then .outranked else .governing) else .dormant) ∧
        (t.port p).inFlight =
          some ⟨1, tag, .ok, o'.state, ⟨BitVec.ofNat 8 k, s.incarnation k⟩, 1,
            .ofList ((List.range 8).map fun i => t.fieldOf k o' i)⟩) ∧
      (t.governing ch = some k → t.takenBy ch = some ⟨⟨BitVec.ofNat 8 k, s.incarnation k⟩, v⟩) ∧
      t.live p = s.live p + 1 ∧ t.live p.other = s.live p.other ∧
      t.list ch = before ++ k :: (s.list ch).drop before.length ∧ (∀ c, c ≠ ch → t.list c = s.list c) ∧
      (∀ j, t.incarnation j = s.incarnation j) ∧
      (∀ j, j ≠ k → (t.order j).map Order.body = (s.order j).map Order.body) ∧
      t.lcu.leases =
        (if lease = 0 then s.lcu.leases
         else insertLease s.now ⟨k, s.now + lease.setWidth 32⟩ (removeLease k s.lcu.leases)) ∧
      t.cs = s.cs ∧ t.inputs = s.inputs ∧ t.fu = s.fu ∧ t.mu.conv = s.mu.conv ∧ t.mu.pub = s.mu.pub ∧ t.now = s.now

/-- PLACE and AMEND refused: the checks in their order, each with its answer, and nothing changed. What the checks hold a
request against: the ranges of the setpoint fields of each channel, of the lease interval and of the term fields, the right of
each port to place a class, the fields an AMEND may write, and the record as it would stand after the write: the values of the
run in its fields, the marks of the term fields it writes, and every other field as before. (A slot above 47 is STALE: the
model's reading, log 8.) -/
def Obligations.PlaceAndAmendCheckInOrder : Prop :=
  ((∀ (ch : Channel) (v : Values),
      let n (i : Nat) : Nat := (v.toList.getD i 0).toNat
      setpointOk ch v = true ↔
        match ch with
        | .gear =>
          n 0 ≤ 2 ∧ n 1 ≤ 1 ∧ (1 ≤ n 2 ∧ n 2 ≤ 12) ∧ (1 ≤ n 3 ∧ n 3 ≤ 12) ∧ (n 3 ≤ n 4 ∧ n 4 ≤ 12) ∧
            (1200 ≤ n 5 ∧ n 5 ≤ 2600) ∧ (800 ≤ n 6 ∧ n 6 ≤ 2000 ∧ n 6 + 200 ≤ n 5) ∧ (1 ≤ n 7 ∧ n 7 ≤ 5)
        | .axle =>
          n 0 ≤ 2 ∧ n 1 ≤ 400 ∧ (5 ≤ n 2 ∧ n 2 ≤ 40) ∧ (2 ≤ n 3 ∧ n 3 + 2 ≤ n 2) ∧ n 4 = 0 ∧ n 5 = 0 ∧ n 6 = 0 ∧ n 7 = 0
        | .hitch =>
          n 0 ≤ 4 ∧ n 1 ≤ 1000 ∧ n 2 ≤ 1500 ∧ n 3 ≤ 100 ∧ (10 ≤ n 4 ∧ n 4 ≤ 500) ∧ (100 ≤ n 5 ∧ n 5 ≤ 1000) ∧
            (n 6 = 0 ∨ 5 ≤ n 6 ∧ n 6 ≤ 50) ∧ n 7 = 0
        | .tbrake =>
          (50 ≤ n 0 ∧ n 0 ≤ 150) ∧ n 1 ≤ 1 ∧ n 2 ≤ 4000 ∧ (2000 ≤ n 3 ∧ n 3 ≤ 15000) ∧ n 4 = 0 ∧ n 5 = 0 ∧ n 6 = 0 ∧
            n 7 = 0) ∧
   (∀ (owner : Owner) (w : Word),
      leaseOk owner w = true ↔
        w = 0 ∧ owner ≠ .implement ∨ 20 ≤ w.toNat ∧ w.toNat ≤ 5000 ∧ w.toNat % 10 = 0) ∧
   (∀ (s : State) (p : Port) (ch : Channel) (cls : Nat),
      s.mayPlace p ch cls = true ↔
        match p with
        | .cab => 1 ≤ cls ∧ cls ≤ 3
        | .implement => 2 ≤ cls ∧ cls ≤ 3 ∧ itemValue s.items 25 ch.code = 1) ∧
   (∀ r : Term,
      let limits : List (Nat × Nat) := [(600, 100), (100, 50), (3500, 500), (1000, 200), (12, 2), (16000, 2000)]
      r.inRange = true ↔
        r.dwell.toNat ≤ 2000 ∧
          (r.quantityMark = true →
            ∃ l, limits[r.quantity.hi.toNat]? = some l ∧ r.quantity.lo.toNat ≤ 1 ∧ r.threshold.toNat ≤ l.1 ∧
              r.hysteresis.toNat ≤ l.2)) ∧
   ∀ o : Order,
     (o.inRange = true ↔
       leaseOk o.owner o.lease = true ∧ setpointOk o.channel o.setpoint = true ∧ o.term1.inRange = true ∧
         o.term2.inRange = true) ∧
     (∀ i,
       o.writable i = true ↔
         i = 5 ∨ (8 ≤ i ∧ i < 8 + match o.channel with | .gear => 8 | .axle => 4 | .hitch => 7 | .tbrake => 4) ∨
           (16 ≤ i ∧ i ≤ 23 ∧ i < 16 + 4 * o.termCount)) ∧
     ∀ (first : Nat) (ws : List Word), (∀ i < ws.length, o.writable (first + i) = true) →
       let o1 := o.writeFields first ws
       let inside (i : Nat) : Bool := first ≤ i && i < first + ws.length
       o1.channel = o.channel ∧ o1.owner = o.owner ∧
       (∀ (s : State) (k i : Nat), i < 24 →
         s.fieldOf k o1 i = if inside i then ws.getD (i - first) 0 else s.fieldOf k o i) ∧
       ∀ n : TermNo,
         let base := match n with | .first => 16 | .second => 20
         (o1.term n).quantityMark = ((o.term n).quantityMark || inside base) ∧
         (o1.term n).thresholdMark = ((o.term n).thresholdMark || inside (base + 1)) ∧
         (o1.term n).hysteresisMark = ((o.term n).hysteresisMark || inside (base + 2)) ∧
         (o1.term n).dwellMark = ((o.term n).dwellMark || inside (base + 3))) ∧
  (∀ (p : Port) (tag channel cls terms : Byte) (lease : Word) (v : Values) (s : State), (s.port p).takes →
     let answer (r : Result) : Prop :=
       exec (.place p tag channel cls terms lease v) s =
         .next ((s.risen p).answering p ⟨1, tag, r, .dormant, .empty, 0, .zero⟩)
     (channelOf channel = none ∨ 3 < cls.toNat → answer .badRequest) ∧
     ∀ ch, channelOf channel = some ch → cls.toNat ≤ 3 →
       let inRange : Bool := leaseOk (ownerOf p) lease && terms.toNat ≤ 2 && setpointOk ch v
       (s.running = false → answer .badState) ∧
       (s.running = true → s.mayPlace p ch cls.toNat = false → answer .denied) ∧
       (s.running = true → s.mayPlace p ch cls.toNat = true → inRange = false → answer .range) ∧
       (s.running = true → s.mayPlace p ch cls.toNat = true → inRange = true → quota s.items p ≤ s.live p →
         answer .quota) ∧
       (s.running = true → s.mayPlace p ch cls.toNat = true → inRange = true → s.live p < quota s.items p →
         s.freeSlot = none → answer .tableFull)) ∧
  (∀ (p : Port) (tag slot inc first : Byte) (front : Bool) (count : BitVec 7) (gen : Word) (v : Values) (s : State),
     (s.port p).takes →
     let answer (a : Answer) : Prop :=
       exec (.amend p tag slot inc first front count gen v) s = .next ((s.risen p).answering p a)
     (s.lookup ⟨slot, inc⟩ = none → answer ⟨3, tag, .stale, .dormant, ⟨slot, inc⟩, 0, .zero⟩) ∧
     ∀ o, s.lookup ⟨slot, inc⟩ = some o →
       let refused (r : Result) : Prop := answer ⟨3, tag, r, o.state, ⟨slot, inc⟩, o.gen, .zero⟩
       let fields : Prop := count.toNat ≤ 8 ∧ ∀ i < count.toNat, o.writable (first.toNat + i) = true
       (o.owner ≠ ownerOf p → refused .denied) ∧
       (o.owner = ownerOf p → o.state = .lapsed → refused .lapsed) ∧
       (o.owner = ownerOf p → o.state ≠ .lapsed → gen ≠ o.gen → refused .conflict) ∧
       (o.owner = ownerOf p → o.state ≠ .lapsed → gen = o.gen → ¬ fields → refused .badField) ∧
       (o.owner = ownerOf p → o.state ≠ .lapsed → gen = o.gen → fields →
         (o.writeFields first.toNat (v.toList.take count.toNat)).inRange = false → refused .range))

/-- AMEND, when its checks pass: the run of fields, the generation, the lease list, the list and the answer. Each field of the
run reads the value written, the marks of the term fields written are set, and every other field but state, keeping and lease
remaining reads as before; where the order governs in RUN and the run writes a setpoint field, its job unit has taken the
amended contents. Every other order keeps what its placement and amendments wrote. -/
def Obligations.AmendWritesARun : Prop :=
  ∀ (p : Port) (tag slot inc first : Byte) (front : Bool) (count : BitVec 7) (gen : Word) (v : Values) (o : Order)
    (s : State), (s.port p).takes → s.lookup ⟨slot, inc⟩ = some o → o.owner = ownerOf p → o.state ≠ .lapsed →
    gen = o.gen → count.toNat ≤ 8 → (∀ i < count.toNat, o.writable (first.toNat + i) = true) →
    (o.writeFields first.toNat (v.toList.take count.toNat)).inRange = true →
    let k := slot.toNat
    let o1 := o.writeFields first.toNat (v.toList.take count.toNat)
    let g : Word := if count = 0 then o.gen else if o.gen = 0xFFFF then 1 else o.gen + 1
    let others := (s.list o.channel).filter (· ≠ k)
    let before := others.takeWhile fun j => s.clsOf j < o.cls
    CompletesWith (.amend p tag slot inc first front count gen v) s fun t =>
      (∃ o', t.order k = some o' ∧ o'.body = ({ o1 with gen := g } : Order).body ∧
        (t.port p).inFlight = some ⟨3, tag, .ok, o'.state, ⟨slot, inc⟩, g, .zero⟩ ∧
        let inside (i : Nat) : Bool := first.toNat ≤ i && i < first.toNat + count.toNat
        (∀ i < 24, i ≠ 3 → i ≠ 4 → i ≠ 6 →
          t.fieldOf k o' i = if inside i then v.toList.getD (i - first.toNat) 0 else s.fieldOf k o i) ∧
        (∀ n : TermNo,
          let base := match n with | .first => 16 | .second => 20
          (o'.term n).quantityMark = ((o.term n).quantityMark || inside base) ∧
          (o'.term n).thresholdMark = ((o.term n).thresholdMark || inside (base + 1)) ∧
          (o'.term n).hysteresisMark = ((o.term n).hysteresisMark || inside (base + 2)) ∧
          (o'.term n).dwellMark = ((o.term n).dwellMark || inside (base + 3))) ∧
        (s.running = true → t.governing o.channel = some k → (∃ i, 8 ≤ i ∧ i ≤ 15 ∧ inside i = true) →
          t.takenBy o.channel = some ⟨⟨slot, inc⟩, o'.setpoint⟩)) ∧
      t.list o.channel = (if front then before ++ k :: others.drop before.length else s.list o.channel) ∧
      (∀ c, c ≠ o.channel → t.list c = s.list c) ∧
      t.lcu.leases =
        (if inRun first.toNat count.toNat 5 then
          (if o1.lease = 0 then removeLease k s.lcu.leases
           else insertLease s.now ⟨k, s.now + o1.lease.setWidth 32⟩ (removeLease k s.lcu.leases))
         else s.lcu.leases) ∧
      (∀ j, t.incarnation j = s.incarnation j) ∧
      (∀ j, j ≠ k → (t.order j).map Order.body = (s.order j).map Order.body) ∧ t.otu.live = s.otu.live ∧
      t.cs = s.cs ∧ t.inputs = s.inputs ∧ t.fu = s.fu ∧ t.mu.conv = s.mu.conv ∧ t.mu.pub = s.mu.pub ∧ t.now = s.now

/-- RENEW: its checks in their order, and the lease restarted; generation, state and list stay. (A slot above 47 is STALE: the
model's reading, log 8.) -/
def Obligations.RenewRestartsTheLease : Prop :=
  ∀ (p : Port) (tag slot inc : Byte) (s : State), (s.port p).takes → s.LeaseForm →
    let k := slot.toNat
    let answer (a : Answer) : Prop := exec (.renew p tag slot inc) s = .next ((s.risen p).answering p a)
    (s.lookup ⟨slot, inc⟩ = none → answer ⟨4, tag, .stale, .dormant, ⟨slot, inc⟩, 0, .zero⟩) ∧
    ∀ o, s.lookup ⟨slot, inc⟩ = some o →
      (o.owner ≠ ownerOf p → answer ⟨4, tag, .denied, o.state, ⟨slot, inc⟩, o.gen, .zero⟩) ∧
      (o.owner = ownerOf p → o.state = .lapsed → answer ⟨4, tag, .lapsed, o.state, ⟨slot, inc⟩, o.gen, .zero⟩) ∧
      (o.owner = ownerOf p → o.state ≠ .lapsed → o.lease = 0 →
        answer ⟨4, tag, .ok, o.state, ⟨slot, inc⟩, o.gen, .zero⟩) ∧
      (o.owner = ownerOf p → o.state ≠ .lapsed → o.lease ≠ 0 →
        exec (.renew p tag slot inc) s =
          .next (({ s.risen p with
            lcu := { s.lcu with
              leases := insertLease s.now ⟨k, s.now + o.lease.setWidth 32⟩ (removeLease k s.lcu.leases) } } :
            State).answering p ⟨4, tag, .ok, o.state, ⟨slot, inc⟩, o.gen, ⟨o.lease, 0, 0, 0, 0, 0, 0, 0⟩⟩))

/-- RETIRE: its checks in their order; the order freed, its incarnation advanced, its entries gone, and the answer; every
other order keeps what its placement and amendments wrote. (A slot above 47 is STALE: the model's reading, log 8.) -/
def Obligations.RetireFreesTheOrder : Prop :=
  ∀ (p : Port) (tag slot inc : Byte) (gen : Word) (s : State), (s.port p).takes →
    let k := slot.toNat
    let answer (a : Answer) : Prop := exec (.retire p tag slot inc gen) s = .next ((s.risen p).answering p a)
    (s.lookup ⟨slot, inc⟩ = none → answer ⟨5, tag, .stale, .dormant, ⟨slot, inc⟩, 0, .zero⟩) ∧
    ∀ o, s.lookup ⟨slot, inc⟩ = some o →
      (o.owner ≠ ownerOf p → answer ⟨5, tag, .denied, o.state, ⟨slot, inc⟩, o.gen, .zero⟩) ∧
      (o.owner = ownerOf p → gen ≠ 0 → gen ≠ o.gen →
        answer ⟨5, tag, .conflict, o.state, ⟨slot, inc⟩, o.gen, .zero⟩) ∧
      (o.owner = ownerOf p → gen = 0 ∨ gen = o.gen →
        CompletesWith (.retire p tag slot inc gen) s fun t =>
          t.order k = none ∧ t.incarnation k = s.incarnation k + 1 ∧ t.live p = s.live p - 1 ∧
          t.live p.other = s.live p.other ∧ t.list o.channel = (s.list o.channel).filter (· ≠ k) ∧
          (∀ c, c ≠ o.channel → t.list c = s.list c) ∧ k ∉ (t.port p).changed ∧
          t.lcu.leases = removeLease k s.lcu.leases ∧
          (t.port p).inFlight = some ⟨5, tag, .ok, o.state, ⟨slot, inc⟩, o.gen, .zero⟩ ∧
          (∀ j, j ≠ k → t.incarnation j = s.incarnation j ∧
            (t.order j).map Order.body = (s.order j).map Order.body) ∧
          t.cs = s.cs ∧ t.inputs = s.inputs ∧ t.fu = s.fu ∧ t.mu.conv = s.mu.conv ∧ t.mu.pub = s.mu.pub ∧
          t.now = s.now)

/-- A resolution gives every order of the list its state by R10, and NONE for its keeping where it leaves GOVERNING; a
changed state puts the slot into its owner's changed-order set. In RUN the governing order is handed to the job unit of the
channel where it is a different one from before, or where the claim wrote a setpoint field of it: that unit takes it, with its
handle and its setpoint fields, and no other unit takes anything. Otherwise, and in CONFIG, nothing is handed, and no unit
moves. -/
def Obligations.ResolutionGivesStates : Prop :=
  (∀ (s : State) (ch : Channel) (amended : Option Nat) (k : Nat) (o : Order), (s.list ch).Nodup → k ∈ s.list ch →
     s.order k = some o →
     let first := ((s.list ch).takeWhile (· ≠ k)).all fun j => !(s.order j).any Order.eligible
     let t := s.resolve ch none amended
     ∃ o', t.order k = some o' ∧ o'.body = o.body ∧ o'.cond = o.cond ∧
       o'.state =
         (if o.state = .lapsed then .lapsed
          else if o.cond then (if first then .governing else .outranked) else .dormant) ∧
       o'.keeping = (if o.state = .governing ∧ o'.state ≠ .governing then .none else o.keeping) ∧
       (o'.state ≠ o.state → k ∈ (t.port o.owner.port).changed)) ∧
  ∀ (s : State) (ch : Channel) (quiet amended : Option Nat),
    let t := s.resolve ch quiet amended
    let handed : Prop := t.governing ch ≠ s.governing ch ∨ (∃ k, amended = some k ∧ t.governing ch = some k)
    let still (u : State) : Prop :=
      u.flow = s.flow ∧ u.sq = s.sq ∧ u.acu = s.acu ∧ u.hr = s.hr ∧ u.tbu = s.tbu ∧ u.cs = s.cs ∧ u.inputs = s.inputs ∧
        u.mu = s.mu ∧ u.fu = s.fu ∧ u.lcu = s.lcu ∧ u.os = s.os
    (s.running = true → handed →
      (∀ k o, t.governing ch = some k → t.order k = some o → t.takenBy ch = some ⟨t.handle k, o.setpoint⟩) ∧
      (∀ c, c ≠ ch → t.takenBy c = s.takenBy c) ∧
      ∃ u, still u ∧ u.otu = t.otu ∧
        t = match ch with | .gear => u.sqTake | .axle => u.acuTake | .hitch => u.hrTake | .tbrake => u.tbuTake) ∧
    (s.running = false ∨ ¬ handed → still t)

/-! Requests on faults, configuration and adaptation. -/

/-- CLEAR_FAULT from CAB by the entry: nothing where the kind is not latched, STILL_ACTIVE where it is latched and active,
else the kind is unlatched with what the latch had set: the marks of the units, trips, lost marks, OUT_OF_RANGE channels and
the supply hold, whose end lets the waits start afresh; the site stays. What a channel reads and its value come back with the
next publication. A kind is ACTIVE while the test of its detecting unit holds, as that unit's rule words it; FLOW_STARVED,
SYNC_TIMEOUT and OUT_SHORT are ACTIVE to no request. (A speed at an interval of 0 is free, log 10; an expected engine speed is
kept exactly, log 58. Reports of conditions stand in a queue, log 24.) -/
def Obligations.ClearFaultUnlatches : Prop :=
  (∀ (s : State) (k : FaultKind),
     s.active k = true ↔
       match k with
       | .outOpen => ∃ ch, s.LoadOpen ch
       | .outShort | .flowStarved | .syncTimeout => False
       | .sensorRange => ∃ ch, (s.mu.conv.get ch).window = .outOfRange ∧ (s.mu.conv.get ch).inside = false
       | .speedLost => ∃ ch, s.SilentWhileMoving ch
       | .speedMismatch => s.SpeedsDisagree
       | .clutchHot => ∃ c, (s.sq.clutch.get c).hot = true
       | .gearSlip => s.DrivenGearSlips
       | .axleMismatch => s.AxlesDisagree
       | .hitchStall => ∃ p, s.hr.stallActive = some p
       | .tbrakeTracking => s.LineMisses
       | .supplyLow => s.mu.supplyLow = true
       | .breakaway => s.inputs.breakaway = true
       | .enableLost => s.inputs.enable = false) ∧
  ∀ (tag kind : Byte) (s : State), (s.port .cab).takes →
    let answer (r : Result) (v : Values) : Prop :=
      exec (.clearFault .cab tag kind) s =
        .next ((s.risen .cab).answering .cab ⟨14, tag, r, .dormant, .empty, 0, v⟩)
    (kindOf kind = none → answer .badRequest .zero) ∧
    ∀ k, kindOf kind = some k →
      (s.latched k = false → answer .ok (.ofList (s.entryWords k))) ∧
      (s.latched k = true → s.active k = true → answer .stillActive (.ofList (s.entryWords k))) ∧
      (s.latched k = true → s.active k = false →
        CompletesWith (.clearFault .cab tag kind) s fun t =>
          t.fu.entry.get k = ⟨false, (s.fu.entry.get k).site⟩ ∧
          (∀ j, j ≠ k → t.fu.entry.get j = s.fu.entry.get j) ∧ t.fu.clutchMark k = false ∧
          t.fu.record = (if s.fu.record.any fun r => r.kind = k then none else s.fu.record) ∧
          s.conditionsFollow t ∧ t.fu.mask = s.fu.mask ∧
          (k = .outOpen → t.acu.openMark = false ∧ t.hr.openMark = false ∧ t.tbu.openMark = false) ∧
          (k = .outShort → t.acu.shortMark = false ∧ t.hr.shortMark = false ∧ t.tbu.shortMark = false ∧
            ∀ ch, (t.os.get ch).tripped = false) ∧
          (k = .supplyLow → t.flow.hold = false ∧
            (s.flow.hold = true → ∀ c, (t.entryOf c).state = .waiting → (t.entryOf c).wait = some s.now)) ∧
          (k = .speedLost → ∀ ch, (t.mu.speed.get ch).lost = false ∧
            (t.mu.speed.get ch).readsLost = (s.mu.speed.get ch).readsLost) ∧
          (k = .sensorRange → ∀ ch, (t.mu.conv.get ch).window =
            (if (s.mu.conv.get ch).window = .outOfRange then .inWindow else (s.mu.conv.get ch).window) ∧
            (t.mu.conv.get ch).value = (s.mu.conv.get ch).value) ∧
          (k = .hitchStall → t.hr.stallMark = false) ∧
          (t.port .cab).inFlight =
            some ⟨14, tag, .ok, .dormant, .empty, 0,
              .ofList [Word.mark (t.active k), 0, (s.fu.entry.get k).site.getD noSite, Word.ofNat (s.action k).code]⟩ ∧
          t.cs = s.cs ∧ t.inputs = s.inputs ∧ t.lcu.leases = s.lcu.leases ∧ t.now = s.now)

/-- CONFIG_WRITE from CAB: its checks in their order, each with its answer and nothing written; else the run of values is
written, and the blocks that use the item follow in the same event: speed channels go STILL (item 13), HOT flags follow their
limits, cleared in the write too (item 20; the model's choice, log 56), DEFAULT_TBRAKE follows the default law (item 23),
SAFE_NEUTRAL and the supply hold are worked out afresh (item 27; a change of SAFE_NEUTRAL is reported into a queue, log 24).
The ranges, the allowed actions and the checks between values are those of StoreFormKept. -/
def Obligations.ConfigWriteWritesARun : Prop :=
  ∀ (tag item first count : Byte) (v : Values) (s : State), (s.port .cab).takes → s.StoreForm →
    let i := item.toNat
    let f := first.toNat
    let n := count.toNat
    let new := writeItem s.items i f (v.toList.take n)
    let answer (r : Result) : Prop :=
      exec (.configWrite .cab tag item first count v) s =
        .next ((s.risen .cab).answering .cab ⟨15, tag, r, .dormant, .empty, 0, .zero⟩)
    let run : Prop := 1 ≤ n ∧ n ≤ 8 ∧ f + n ≤ itemLength i
    let good : Prop := (∀ m < n, valueOk i (f + m) (v.nth m) = true) ∧ crossOk new i = true
    (s.running = true → answer .badState) ∧ (s.running = false → 28 < i → answer .badRequest) ∧
    (s.running = false → i ≤ 28 → ¬ run → answer .badField) ∧
    (s.running = false → i ≤ 28 → run → ¬ good → answer .range) ∧
    (s.running = false → i ≤ 28 → run → good →
      CompletesWith (.configWrite .cab tag item first count v) s fun t =>
        t.running = false ∧
        (∀ j x, itemValue t.items j x =
          if j = i ∧ f ≤ x ∧ x < f + n then v.nth (x - f) else itemValue s.items j x) ∧
        (i = 13 → ∀ ch, inRun f n ch.code ∨ inRun f n (4 + ch.code) → (t.mu.speed.get ch).timing = .still none) ∧
        (i = 23 → ∀ o, s.order 7 = some o → ∃ o', t.order 7 = some o' ∧
          o'.setpoint = defaultTrailerLaw t.items ∧
          o'.gen = (if o.setpoint = defaultTrailerLaw t.items then o.gen else nextGen o.gen)) ∧
        (i = 20 → ∀ c,
          let r := s.sq.clutch.get c
          (t.sq.clutch.get c).heat = r.heat ∧
          (t.sq.clutch.get c).hot =
            (if r.hot = false ∧ itemNat t.items 20 2 ≤ r.heat then true
             else if r.hot = true ∧ r.heat ≤ itemNat t.items 20 3 then false else r.hot)) ∧
        (i = 27 → s.conditionsFollow t ∧ t.flow.hold = t.supplyDegrade) ∧
        (i ≠ 20 → t.fu.entry = s.fu.entry ∧ t.fu.record = s.fu.record) ∧
        (t.port .cab).inFlight = some ⟨15, tag, .ok, .dormant, .empty, 0,
          .ofList ((List.range 8).map fun m => itemValue t.items i (f + m))⟩ ∧
        t.inputs = s.inputs ∧ t.lcu.leases = s.lcu.leases ∧ t.now = s.now)

/-- ADAPT_READ and ADAPT_WRITE. -/
def Obligations.AdaptMovesFillOffsets : Prop :=
  [Clutch.cf, .cr, .ca, .cb, .cc, .c1, .c2, .c3, .c4].map Clutch.code = List.range 9 ∧
  ∀ (tag first count : Byte) (v : Values) (s : State),
    let f := first.toNat
    let n := count.toNat
    let run : Prop := 1 ≤ n ∧ n ≤ 8 ∧ f + n ≤ 9
    let good : Prop := ∀ m < n, -64 ≤ (v.nth m).toInt ∧ (v.nth m).toInt ≤ 64 ∧ (v.nth m).toInt % 4 = 0
    let answer (c : Instr) (p : Port) (code : Byte) (r : Result) : Prop :=
      exec c s = .next ((s.risen p).answering p ⟨code, tag, r, .dormant, .empty, 0, .zero⟩)
    ((s.port .implement).takes →
      answer (.adaptRead .implement tag first count) .implement 17 .denied ∧
      answer (.adaptWrite .implement tag first count v) .implement 18 .denied) ∧
    ((s.port .cab).takes →
      (¬ run → answer (.adaptRead .cab tag first count) .cab 17 .badField) ∧
      (run → exec (.adaptRead .cab tag first count) s =
        .next ((s.risen .cab).answering .cab
          ⟨17, tag, .ok, .dormant, .empty, 0,
            .ofList (((Clutch.all.drop f).take n).map fun c => Word.ofInt (s.sq.clutch.get c).fillOffset)⟩)) ∧
      (s.running = true → answer (.adaptWrite .cab tag first count v) .cab 18 .badState) ∧
      (s.running = false → ¬ run → answer (.adaptWrite .cab tag first count v) .cab 18 .badField) ∧
      (s.running = false → run → ¬ good → answer (.adaptWrite .cab tag first count v) .cab 18 .range) ∧
      (s.running = false → run → good →
        exec (.adaptWrite .cab tag first count v) s =
          .next (({ s.risen .cab with
            sq := { s.sq with
              clutch := .tabulate fun c =>
                if f ≤ c.code ∧ c.code < f + n then
                  { s.sq.clutch.get c with fillOffset := (v.nth (c.code - f)).toInt, trend := 0 }
                else s.sq.clutch.get c } } : State).answering .cab
            ⟨18, tag, .ok, .dormant, .empty, 0, .zero⟩)))

/-- START from CAB: BAD_STATE in RUN; CONFIG_INVALID with the first failing check; else RUN, with the interlock set and
each job unit at its channel's governing order. The tracking check of the trailer starts with RUN: its timer runs only if the
line misses its demand. The checks are those of R183 in their order, each with the item and index it reports (of two
directions that fail the two-thirds check the forward one is reported: the model's choice, log 45). -/
def Obligations.StartEntersRun : Prop :=
  (∀ items : List (List Word), (items.getD 0 []).length = 12 → (items.getD 1 []).length = 12 →
     let ratio (d g : Nat) : Nat := itemNat items d g
     let falls (d g : Nat) : Prop := 0 < ratio d g ∧ (0 < g → ratio d g < ratio d (g - 1))
     let near (d g : Nat) : Prop := 0 < g → 2 * ratio d (g - 1) ≤ 3 * ratio d g
     let all (ok : Nat → Prop) : Prop := ∀ g < 12, ok g
     let lowest (ok : Nat → Prop) (x : Nat) : Prop := x < 12 ∧ ¬ ok x ∧ ∀ g < x, ok g
     let quotas : Prop := 40 ≤ itemNat items 24 0 + itemNat items 24 1
     let units (c : Clutch) : Nat := (clutchItem items c).fillUnits
     let room : Prop :=
       itemNat items 12 1 + (max (units .ca) (max (units .cb) (units .cc)) +
         max (units .c1) (max (units .c2) (max (units .c3) (units .c4)))) < itemNat items 12 0
     (∀ x, lowest (falls 0) x → startCheck items = some (0, x)) ∧
     (all (falls 0) → (∀ x, lowest (falls 1) x → startCheck items = some (1, x)) ∧
       (all (falls 1) → (∀ x, lowest (near 0) x → startCheck items = some (0, x)) ∧
         (all (near 0) → (∀ x, lowest (near 1) x → startCheck items = some (1, x)) ∧
           (all (near 1) →
             (¬ quotas → startCheck items = some (24, 0)) ∧
             (quotas → ¬ room → startCheck items = some (12, 0)) ∧
             (quotas → room → startCheck items = none)))))) ∧
  ∀ (tag : Byte) (s : State), (s.port .cab).takes →
    let answer (r : Result) (v : Values) : Prop :=
      exec (.start .cab tag) s = .next ((s.risen .cab).answering .cab ⟨19, tag, r, .dormant, .empty, 0, v⟩)
    (s.running = true → answer .badState .zero) ∧
    (∀ i x, s.running = false → startCheck s.items = some (i, x) →
      answer .configInvalid ⟨Word.ofNat i, Word.ofNat x, 0, 0, 0, 0, 0, 0⟩) ∧
    (s.running = false → startCheck s.items = none → (∀ k, s.governing .gear = some k → k < 8) →
      CompletesWith (.start .cab tag) s fun t =>
        t.cs = ⟨.run, s.items⟩ ∧ t.sq.interlock = true ∧ t.sq.taken = s.takenNow .gear ∧
        t.acu.taken = s.takenNow .axle ∧ t.hr.taken = s.takenNow .hitch ∧ t.tbu.taken = s.takenNow .tbrake ∧
        t.tbu.tracking = (if t.tbuMisses then some (s.tbu.tracking.getD ⟨s.now, false⟩) else none) ∧
        (∀ ch, (t.os.get ch).pending = min 2000 (t.commanded ch)) ∧
        (s.enable = true → t.fu.entry = s.fu.entry) ∧ (s.enable = false → t.latchedAt .enableLost 0) ∧
        (t.port .cab).inFlight = some ⟨19, tag, .ok, .dormant, .empty, 0, .zero⟩ ∧
        (∀ k, (t.order k).map Order.body = (s.order k).map Order.body) ∧ t.otu.lists = s.otu.lists ∧
        t.inputs = s.inputs ∧ t.lcu.leases = s.lcu.leases ∧ t.mu.conv = s.mu.conv ∧ t.mu.pub = s.mu.pub ∧
        t.now = s.now)

/-- STOP from CAB: BAD_STATE unless the device is in RUN, the tractor stands by the last publication (log 53) and the sequencer
is in NEUTRAL or HALT; else CONFIG, every port order freed and taken off its port's live-order count, the lease list empty,
every internal keeping NONE, every unit in its CONFIG state, and the ports as they stand: slots, causes, masks, counts. -/
def Obligations.StopEntersConfig : Prop :=
  ∀ (tag : Byte) (s : State), (s.port .cab).takes →
    let may : Prop := s.running = true ∧ (∃ g, s.pub.ground = some g ∧ g < 5) ∧
      (s.seqState = .neutral ∨ s.seqState = .halt)
    let held (p : Port) : Nat := ((List.range 48).filter fun k => (s.order k).any fun o => o.owner = ownerOf p).length
    (¬ may → exec (.stop .cab tag) s =
      .next ((s.risen .cab).answering .cab ⟨20, tag, .badState, .dormant, .empty, 0, .zero⟩)) ∧
    (may → s.otu.slots.length = 48 →
      CompletesWith (.stop .cab tag) s fun t =>
        t.cs = ⟨.config, s.items⟩ ∧
        (∀ k o, s.order k = some o → o.owner ≠ .internal →
          t.order k = none ∧ t.incarnation k = s.incarnation k + 1) ∧
        (∀ k o, s.order k = some o → o.owner = .internal →
          (t.order k).map Order.body = some o.body ∧ t.incarnation k = s.incarnation k) ∧
        (∀ p, t.live p = s.live p - held p) ∧
        (∀ k < 8, ∀ o, t.order k = some o → o.keeping = .none) ∧
        t.flow.fill.state = .idle ∧ t.flow.axle.state = .idle ∧ t.flow.liftAsked = 0 ∧ t.flow.liftGranted = 0 ∧
        (∀ c, t.sq.state c = .opened) ∧ t.sq.queue = [] ∧ t.sq.flags = .clear ∧ t.sq.autoTarget = 0 ∧
        t.acu.coupling = .engaged ∧ t.acu.latch = false ∧ t.hr.mode = .hold ∧ t.hr.motion = .idle ∧
        t.tbu = { s.tbu with tracking := none } ∧
        (s.LeaseForm → t.lcu.leases = []) ∧
        (∀ ch, (t.os.get ch).inForce = 0 ∧ (t.os.get ch).pending = 0 ∧
          (t.os.get ch).tripped = (s.os.get ch).tripped) ∧
        PortOnly (s.port .implement) (t.port .implement) ∧
        (t.port .cab).slot = (s.port .cab).slot ∧ (t.port .cab).causeMask = (s.port .cab).causeMask ∧
        (∀ i, (s.port .cab).causes.getLsbD i = true → (t.port .cab).causes.getLsbD i = true) ∧
        (t.port .cab).badFrames = (s.port .cab).badFrames ∧ (t.port .cab).busys = (s.port .cab).busys ∧
        (t.port .cab).inFlight = some ⟨20, tag, .ok, .dormant, .empty, 0, .zero⟩ ∧
        t.inputs = s.inputs ∧ t.fu = s.fu ∧ t.mu.conv = s.mu.conv ∧ t.mu.pub = s.mu.pub ∧ t.now = s.now)

/-- A port reset, by PORT_RESET or by the fall of the port's reset input: the port's orders are freed and taken off its
live-order count, what it holds is cleared, its answer slot holds NONE, and the other port keeps its own. Its changed-order set
and causes are cleared before its orders are freed, so that they hold only what the resolutions bring: internal orders in the
CAB set, none in the IMPLEMENT set, ORDERS with a set that is not empty, GEAR with a changed gear record. The rise of the input
changes only its level, and a fall of an input that is already low changes nothing (the model's reading, log 7); data out turns
to NONE at the fall, and a PORT_RESET is never found in flight (the model's choices, log 22 and log 52). -/
def Obligations.PortResetClearsThePort : Prop :=
  ∀ (p : Port) (s : State), s.otu.slots.length = 48 →
    let held : Nat := ((List.range 48).filter fun k => (s.order k).any fun o => o.owner = ownerOf p).length
    let post (t : State) : Prop :=
      (t.port p).slot = .noneAnswer ∧ (t.port p).inFlight = none ∧ (t.port p).causeMask = 0 ∧ t.fu.mask.get p = 0 ∧
      (t.port p).badFrames = 0 ∧ (t.port p).busys = 0 ∧
      (p = .implement → (t.port p).changed = []) ∧
      (∀ k ∈ (t.port p).changed, ∃ o, t.order k = some o ∧ o.owner = .internal) ∧
      (t.port p).causes =
        ((if (t.port p).changed = [] then 0 else 1) ||| if t.sq.record = s.sq.record then 0 else 4) ∧
      (∀ k o, s.order k = some o → o.owner = ownerOf p → t.order k = none ∧ t.incarnation k = s.incarnation k + 1) ∧
      (∀ k o, s.order k = some o → o.owner ≠ ownerOf p →
        (t.order k).map Order.body = some o.body ∧ t.incarnation k = s.incarnation k) ∧
      t.live p = s.live p - held ∧ t.live p.other = s.live p.other ∧
      ((s.port p).asserted = true → itemNat s.items 26 p.code ≠ 0 →
        (t.port p).asserted = false ∧
          (t.port p).throttle = some (s.now + BitVec.ofNat 32 (itemNat s.items 26 p.code))) ∧
      PortOnly (s.port p.other) (t.port p.other) ∧ t.fu.mask.get p.other = s.fu.mask.get p.other ∧
      t.fu.entry = s.fu.entry ∧ t.fu.record = s.fu.record ∧ t.cs = s.cs ∧ t.inputs = s.inputs ∧
      t.mu.conv = s.mu.conv ∧ t.mu.pub = s.mu.pub ∧ t.now = s.now
    (∀ tag, (s.port p).takes → CompletesWith (.portReset p tag) s post) ∧
    ((s.port p).resetHeld = false → CompletesWith (.portResetInput p false) s fun t =>
      post t ∧ (t.port p).resetHeld = true ∧ (t.port p).dataOut = .noneAnswer ∧
        (t.port p).txn = (s.port p).txn.map fun x => { x with discard := true }) ∧
    ((s.port p).resetHeld = true → exec (.portResetInput p false) s = .next s) ∧
    exec (.portResetInput p true) s = .next (s.setPort p { s.port p with resetHeld := false })

/-! Detections. -/

/-- Every command whose rule ends in a detection latches the kind at its site, leaves every other entry, fills the first-fault
record only where it is empty, and sets FAULT at each port whose report mask mark for the kind is clear; a BREAKAWAY sets
TRAILER at both ports, also where it was latched (the model's reading, log 19). The heat of a publication in RUN or a cooling
step that reaches hot_limit sets HOT and is CLUTCH_HOT at the clutch; of several in one event CF comes first and C4 last (the
model's choice, log 51). START with ENABLE low is ENABLE_LOST. The record names the governing order of the affected channel, by
the table of kinds and sites. SAFE_NEUTRAL is true while ENABLE is low or a latched kind counts: one whose action is SAFE, or an
OUT_OPEN or OUT_SHORT with its clutch mark; a change of a condition is reported into a queue (log 24). -/
def Obligations.DetectionsAreLatched : Prop :=
  (∀ (c : Instr) (k : FaultKind) (site : Word) (s : State), s.detects c = some (k, site) →
     CompletesWith c s fun t =>
       t.latchedAt k site ∧ (∀ j, j ≠ k → t.fu.entry.get j = s.fu.entry.get j) ∧
       t.fu.record = (match s.fu.record with
         | some r => some r
         | none => some ⟨k, site, s.now, s.governingHandle (affected k site)⟩) ∧
       (∀ p, (s.fu.mask.get p).getLsbD k.code = false → (t.port p).causes.getLsbD 1 = true) ∧
       (k = .breakaway → ∀ p, (t.port p).causes.getLsbD 3 = true) ∧
       s.conditionsFollow t ∧ t.fu.mask = s.fu.mask ∧
       t.cs = s.cs ∧ t.now = s.now ∧ t.lcu.leases = s.lcu.leases ∧ t.otu.lists = s.otu.lists ∧
       (∀ j, (t.order j).map Order.still = (s.order j).map Order.still) ∧
       ∀ p, PortOnly (s.port p) (t.port p)) ∧
  (∀ (c : Instr) (s : State), c = .coolingStep ∨ (s.running = true ∧ ∃ raw, c = .muPublication raw) →
     CompletesWith c s fun t =>
       let becameHot := Clutch.all.filter fun x =>
         !(s.sq.clutch.get x).hot && itemNat s.items 20 2 ≤ (t.sq.clutch.get x).heat
       (∀ x, (t.sq.clutch.get x).hot =
         (if x ∈ becameHot then true
          else if (s.sq.clutch.get x).hot = true ∧ (t.sq.clutch.get x).heat ≤ itemNat s.items 20 3 then false
          else (s.sq.clutch.get x).hot)) ∧
       (∀ j, j ≠ .clutchHot → t.fu.entry.get j = s.fu.entry.get j) ∧
       (becameHot = [] → t.fu.entry.get .clutchHot = s.fu.entry.get .clutchHot ∧ t.fu.record = s.fu.record) ∧
       (∀ x, becameHot.getLast? = some x → t.latchedAt .clutchHot (Word.ofNat x.code)) ∧
       ∀ x, becameHot.head? = some x →
         t.fu.record = (match s.fu.record with
           | some r => some r
           | none => some ⟨.clutchHot, Word.ofNat x.code, t.now, s.governingHandle .gear⟩) ∧
         ∀ p, (s.fu.mask.get p).getLsbD FaultKind.clutchHot.code = false → (t.port p).causes.getLsbD 1 = true) ∧
  (∀ (tag : Byte) (s : State), (s.port .cab).takes → s.running = false → startCheck s.items = none → s.enable = false →
    CompletesWith (.start .cab tag) s fun t =>
      t.latchedAt .enableLost 0 ∧ (∀ j, j ≠ .enableLost → t.fu.entry.get j = s.fu.entry.get j) ∧
      t.fu.record = (match s.fu.record with
        | some r => some r
        | none => some ⟨.enableLost, 0, s.now, s.governingHandle .gear⟩) ∧
      ∀ p, (s.fu.mask.get p).getLsbD FaultKind.enableLost.code = false → (t.port p).causes.getLsbD 1 = true) ∧
  ((∀ site : Word, ∀ k, k = .outOpen ∨ k = .outShort →
      (site.toNat ≤ 8 → affected k site = .gear) ∧ (site = 9 → affected k site = .axle) ∧
      (site = 10 ∨ site = 11 → affected k site = .hitch) ∧ (site = 12 → affected k site = .tbrake)) ∧
   (∀ ch : ConvCh,
      affected .sensorRange (Word.ofNat ch.code) =
        match ch with
        | .hitchPos | .draftL | .draftR => .hitch
        | .brakeL | .brakeR | .tsupply => .tbrake
        | .inch | .supply => .gear) ∧
   (∀ ch : SpeedCh,
      affected .speedLost (Word.ofNat ch.code) =
        match ch with
        | .engine | .output => .gear
        | .front | .radar => .axle) ∧
   (∀ c : Clutch, affected .flowStarved (Word.ofNat c.code) = .gear) ∧ affected .flowStarved 9 = .axle ∧
   (∀ (k : FaultKind) (site : Word),
      (k = .syncTimeout ∨ k = .clutchHot ∨ k = .gearSlip ∨ k = .supplyLow ∨ k = .enableLost → affected k site = .gear) ∧
      (k = .speedMismatch ∨ k = .axleMismatch → affected k site = .axle) ∧
      (k = .hitchStall → affected k site = .hitch) ∧
      (k = .tbrakeTracking ∨ k = .breakaway → affected k site = .tbrake)) ∧
   ∀ (s : State) (ch : Channel) (k : Nat), s.governing ch = some k →
     k ∈ s.list ch ∧ (∃ o, s.order k = some o ∧ o.state = .governing) ∧
       s.governingHandle ch = ⟨BitVec.ofNat 8 k, s.incarnation k⟩) ∧
  [FaultKind.outOpen, .outShort, .sensorRange, .speedLost, .speedMismatch, .flowStarved, .syncTimeout, .clutchHot,
   .gearSlip, .axleMismatch, .hitchStall, .tbrakeTracking, .supplyLow, .breakaway, .enableLost].map FaultKind.code =
    List.range 15 ∧
  ∀ s : State,
    (∀ k,
      s.latched k = (s.fu.entry.get k).latched ∧
      s.action k =
        (match itemNat s.items 27 k.code with
        | 1 => .degrade
        | 2 => .safe
        | 3 => .brake
        | _ => .advisory) ∧
      (s.countsSafe k = true ↔
        s.latched k = true ∧
          (s.action k = .safe ∨ k = .outOpen ∧ s.fu.clutchOpen = true ∨ k = .outShort ∧ s.fu.clutchShort = true))) ∧
    (s.safeCondition = true ↔ s.inputs.enable = false ∨ ∃ k, s.countsSafe k = true)

/-- What the detecting unit itself does at its detection. A converter channel goes OUT_OF_RANGE; a speed channel is LOST unless
the action is ADVISORY at the detection (the model's reading, log 54); a short-circuited channel is TRIPPED and carries no
current. A starved request is gone: an entry that waits afterwards is a new request, whose wait starts now or stands under the
supply hold. A starved AXLE request returns the coupling to ENGAGED, from where a release still wanted begins afresh.
AXLE_MISMATCH with DEGRADE brings the degraded hold and the engagement. HITCH_STALL with DEGRADE sets the stall mark and ends
the raise in HOLD; with ADVISORY the raise goes on. OUT_OPEN, unless ADVISORY, and OUT_SHORT mark the axle, the hitch or the
clutches, by channel; the trailer is marked under every action. A marked axle engages, a marked hitch holds. SUPPLY_LOW with
DEGRADE puts the supply hold in force: no wait timer runs, no fill and no release is granted any more, and a raise under way
ends (counted as held back, log 20). -/
def Obligations.DetectingUnitsAct : Prop :=
  ((∀ (ch : ConvCh) (s : State), s.windowDue ch = true →
     CompletesWith (.windowTimerExpiry ch) s fun t =>
       (t.mu.conv.get ch).window = .outOfRange ∧ ∀ c, c ≠ ch → t.mu.conv.get c = s.mu.conv.get c) ∧
   (∀ (ch : SpeedCh) (s : State), (s.mu.speed.get ch).lostTimer.due s.now 1000 = true →
     CompletesWith (.lostTimerExpiry ch) s fun t =>
       (t.mu.speed.get ch).lost = ((s.mu.speed.get ch).lost || s.action .speedLost ≠ .advisory) ∧
       ∀ c, (t.mu.speed.get c).timing = (s.mu.speed.get c).timing) ∧
   ∀ (ch : OutCh) (sample : Word) (s : State), s.outState ch = .driving → 2400 < sample.toNat →
     CompletesWith (.shortCircuitTrip ch sample) s fun t =>
       t.outState ch = .tripped ∧ t.outputCurrent ch = 0 ∧ (t.os.get ch).openTimer = none ∧
       ∀ c, c ≠ ch → (t.os.get c).tripped = (s.os.get c).tripped) ∧
  (∀ (c : WaitClass) (s : State), s.starves c = true →
     CompletesWith (.flowWaitExpiry c) s fun t =>
       (t.entryOf c).state = .waiting → (t.entryOf c).wait = some s.now ∨ t.flow.hold = true) ∧
  (∀ s : State, s.starves .axle = true → s.acu.coupling = .releaseWait →
     CompletesWith (.flowWaitExpiry .axle) s fun t =>
       let begins : Bool := s.running && s.acuWantsReleased && !s.sq.flags.releaseDeferral
       (begins = false → t.acu.coupling = .engaged) ∧
       (begins = true → t.acu.coupling = .releaseWait ∨ t.acu.coupling = .releasing)) ∧
  let engages (s t : State) : Prop :=
    match s.acu.coupling with
    | .engaged => t.acu.coupling = .engaged
    | .releaseWait => t.acu.coupling = .engaged ∨ t.acu.coupling = .engaging
    | .releasing | .released | .engaging => t.acu.coupling = .engaging
  let rests (s t : State) : Prop :=
    t.hr.mode = .hold ∧ (s.hr.mode ≠ .hold → t.hr.motion = .idle ∧ t.hr.asked = 0 ∧ t.flow.liftAsked = 0)
  (∀ s : State, s.acu.mismatch.due s.now 1000 = true →
     CompletesWith .axleMismatchTimerExpiry s fun t =>
       (s.action .axleMismatch = .degrade →
         t.acuDegraded = true ∧ t.acuWantsReleased = false ∧ (s.running = true → engages s t)) ∧
       (s.action .axleMismatch ≠ .degrade → t.acuDegraded = s.acuDegraded)) ∧
  (∀ s : State, s.hr.stallTimer.due s.now 2000 = true → s.running = true →
     CompletesWith .stallTimerExpiry s fun t =>
       (s.action .hitchStall = .degrade →
         t.hr.stallMark = true ∧ rests s t ∧ (s.hr.mode ≠ .hold → t.hr.stall = none ∧ t.hr.stallActive = none)) ∧
       (s.action .hitchStall ≠ .degrade →
         t.hr.stallMark = s.hr.stallMark ∧
         (s.hrHold = false → s.hr.mode ≠ .hold → s.supplyDegrade = false →
           t.hr.motion = s.hr.motion ∧
           (s.flow.hold = false → s.acuFollow = s →
             t.hr.stallActive = s.pub.position ∧
             t.hr.stall = s.hr.stall.map fun r => { r with run := { r.run with out := true } })))) ∧
  (∀ s : State, s.mu.supply.due s.now 200 = true →
     CompletesWith .supplyTimerExpiry s fun t =>
       (s.action .supplyLow = .degrade →
         t.flow.hold = true ∧
         (s.flow.hold = false → t.flow.fill.wait = none ∧ t.flow.axle.wait = none) ∧
         (t.flow.fill.state = .granted → s.flow.fill.state = .granted) ∧
         (t.flow.axle.state = .granted → s.flow.axle.state = .granted) ∧
         (s.running = true → s.hrHold = false → s.hr.mode ≠ .hold → s.hr.motion = .raise →
           t.hr.motion = .idle ∧ t.hr.asked = 0 ∧ t.flow.liftAsked = 0 ∧ t.hr.blocked = true ∧
             (0 < s.flow.liftAsked → t.flow.liftGranted = 0))) ∧
       (s.action .supplyLow ≠ .degrade →
         t.flow.hold = false ∧
         (s.running = true → s.hrHold = false → s.hr.mode ≠ .hold → t.hr.motion = s.hr.motion))) ∧
  let marks (s t : State) (ch : OutCh) : Prop :=
    (ch = .oc9 → t.acuWantsReleased = false ∧ (s.running = true → engages s t)) ∧
    (ch = .oc10 ∨ ch = .oc11 → s.running = true → rests s t)
  (∀ (ch : OutCh) (s : State), (s.os.get ch).openTimer.due s.now 50 = true →
     CompletesWith (.openLoadTimerExpiry ch) s fun t =>
       let acts : Bool := s.action .outOpen ≠ .advisory
       t.fu.clutchOpen = (s.fu.clutchOpen || (decide (ch.code ≤ 8) && acts)) ∧
       t.acu.openMark = (s.acu.openMark || (decide (ch = .oc9) && acts)) ∧
       t.hr.openMark = (s.hr.openMark || (decide (ch = .oc10 ∨ ch = .oc11) && acts)) ∧
       t.tbu.openMark = (s.tbu.openMark || decide (ch = .oc12)) ∧ (acts = true → marks s t ch)) ∧
  ∀ (ch : OutCh) (sample : Word) (s : State), s.outState ch = .driving → 2400 < sample.toNat →
    CompletesWith (.shortCircuitTrip ch sample) s fun t =>
      t.fu.clutchShort = (s.fu.clutchShort || (decide (ch.code ≤ 8) && decide (s.action .outShort ≠ .advisory))) ∧
      t.acu.shortMark = (s.acu.shortMark || decide (ch = .oc9)) ∧
      t.hr.shortMark = (s.hr.shortMark || decide (ch = .oc10 ∨ ch = .oc11)) ∧
      t.tbu.shortMark = (s.tbu.shortMark || decide (ch = .oc12)) ∧ marks s t ch

/-! Measurement. -/

/-- A selected edge, by the timing state of its channel; a stall or the discard of a recorded edge, after which the channel is
STILL with no recorded edge; and the speed that a channel gives: from the filtered interval and the selected edges per
revolution or metre, rounded down and clamped, 0 in STILL, unavailable while it reads LOST (an interval of 0 has a free reading,
log 10). The filtered interval is an exact fraction `num / den` of µs (the model's reading, log 9), and intervals are taken
round the turn of the timebase by `sinceUs`, a stamp more than half a turn ahead counting as past (log 30). -/
def Obligations.SpeedChannelsTime : Prop :=
  (∀ (ch : SpeedCh) (us : Nat) (s : State),
     let stamp := s.now.toNat * 1000 + us
     let after (x : SpeedTiming) : Prop :=
       CompletesWith (.selectedEdge ch us) s fun t => SettleOnly (s.setTiming ch x) t
     ((s.mu.speed.get ch).timing = .still none → after (.still (some stamp))) ∧
     (∀ r, (s.mu.speed.get ch).timing = .still (some r) → sinceUs stamp r < stallUs s.items →
       after (.valid stamp (sinceUs stamp r) 1)) ∧
     (∀ r, (s.mu.speed.get ch).timing = .still (some r) → stallUs s.items ≤ sinceUs stamp r →
       after (.still (some stamp))) ∧
     ∀ last num den, (s.mu.speed.get ch).timing = .valid last num den →
       after (.valid stamp (3 * num + sinceUs stamp last * den) (4 * den))) ∧
  (∀ (ch : SpeedCh) (s : State),
     (∀ last num den, (s.mu.speed.get ch).timing = .valid last num den →
       stallUs s.items ≤ sinceUs (s.now.toNat * 1000) last →
       CompletesWith (.speedChannelStall ch) s fun t => SettleOnly (s.setTiming ch (.still none)) t) ∧
     ∀ r, (s.mu.speed.get ch).timing = .still (some r) → stallUs s.items ≤ sinceUs (s.now.toNat * 1000) r →
       CompletesWith (.recordedEdgeExpiry ch) s fun t => SettleOnly (s.setTiming ch (.still none)) t) ∧
  (∀ (s : State) (ch : SpeedCh),
     let edges := itemNat s.items 13 ch.code * (if itemNat s.items 13 (4 + ch.code) = 2 then 2 else 1)
     let top := if ch = .engine then 4000 else 600
     let k := if ch = .engine then 60000000 else 360000000
     let r := s.mu.speed.get ch
     let speed := match ch with
       | .engine => s.publication.engine
       | .output => s.publication.wheel
       | .front => s.publication.front
       | .radar => s.publication.radar
     (r.lost = true ∨ r.resuming = true → speed = none) ∧
     (∀ e, r.lost = false → r.resuming = false → r.timing = .still e → speed = some 0) ∧
     (∀ last num den, r.lost = false → r.resuming = false → r.timing = .valid last num den → num ≠ 0 →
       speed = some (min top (k * den / (num * edges)))) ∧
     (∀ last den, r.lost = false → r.resuming = false → r.timing = .valid last 0 den → ∃ v, speed = some v ∧ v ≤ top) ∧
     s.publication.chans.get ch = 
       (if r.lost ∨ r.resuming then .lost else if r.timing.isValid then .valid else .still))

/-- The publication of a millisecond: the present one where it is still to come, else the next. Every converter channel takes
its sample, and the quantities published are those of the channels as they then stand, every lost mark that was cleared and
the latch and action of SPEED_MISMATCH taken; they are what the MEASURE view shows until something changes. The turn of the
millisecond samples the two trailer inputs: the debounce timer runs while the raw input differs from the presence, the
breakaway timer while its input is high (the sample's moment is the model's choice, log 46). The timer of each detection and
the two timers of AUTO run exactly while their test holds: a publication starts them, lets them go on and discards them, and
so does the end of every event (log 25), but for the supply timer, which moves at publications alone. (That an edge which a
STILL channel only records does not discard the lost timer is the model's reading, log 33; slips are exact, log 58; a check of
R100, R115 or R144 that stops and starts again starts its timer afresh: the model's choice, log 40.) -/
def Obligations.PublicationSamples : Prop :=
  (∀ (s : State) (old : Sq),
     let t := s.settle old
     (∀ ch, Follows (t.SilentWhileMoving ch) s.now (s.mu.speed.get ch).lostTimer (t.mu.speed.get ch).lostTimer) ∧
     Follows t.SpeedsDisagree s.now s.mu.mismatch t.mu.mismatch ∧ t.mu.supply = s.mu.supply ∧
     Follows t.DrivenGearSlips s.now s.sq.slip t.sq.slip ∧
     Follows t.AxlesDisagree s.now s.acu.mismatch t.acu.mismatch ∧
     Follows t.LineMisses s.now s.tbu.tracking t.tbu.tracking ∧
     Follows (∃ e, t.AutoRuns e ∧ takenField t.sq.taken 5 < e) s.now s.sq.up t.sq.up ∧
     Follows (∃ e, t.AutoRuns e ∧ e < takenField t.sq.taken 6) s.now s.sq.down t.sq.down) ∧
  ∀ (raw : ByConv (BitVec 12)) (s : State),
    CompletesWith (.muPublication raw) s fun t =>
      (∀ ch,
        let was := (s.mu.speed.get ch).lostTimer
        let is := (t.mu.speed.get ch).lostTimer
        (is ≠ none ↔ t.SilentWhileMoving ch) ∧
        (was = none ∨ s.SilentWhileMoving ch → Follows (t.SilentWhileMoving ch) t.now was is)) ∧
      Follows t.SpeedsDisagree t.now s.mu.mismatch t.mu.mismatch ∧
      Follows t.SupplyBelow t.now s.mu.supply t.mu.supply ∧
      Follows t.DrivenGearSlips t.now s.sq.slip t.sq.slip ∧
      Follows t.AxlesDisagree t.now s.acu.mismatch t.acu.mismatch ∧
      Follows t.LineMisses t.now s.tbu.tracking t.tbu.tracking ∧
      Follows (∃ e, t.AutoRuns e ∧ takenField t.sq.taken 5 < e) t.now s.sq.up t.sq.up ∧
      Follows (∃ e, t.AutoRuns e ∧ e < takenField t.sq.taken 6) t.now s.sq.down t.sq.down ∧
      t.now = (if s.mu.published then s.now + 1 else s.now) ∧
      (∀ ch, t.mu.conv.get ch =
        (s.mu.conv.get ch).sample s.items ch t.now (s.action .sensorRange = .advisory) (s.latched .sensorRange)
          (raw.get ch)) ∧
      (∀ ch, (t.mu.speed.get ch).lost = (s.mu.speed.get ch).lost ∧ (t.mu.speed.get ch).resuming = false) ∧
      t.mu.byWheel = (s.latched .speedMismatch && s.action .speedMismatch = .degrade) ∧
      t.pub = ({ s with mu := t.mu } : State).publication ∧ t.measured = t.pub ∧ t.mu.begun = true ∧
      (t.mu.supplyLow = true ↔ t.SupplyBelow) ∧
      t.tbu.presence = s.tbu.presence ∧
      (let differs : Bool := s.inputs.trailerPresent ≠ s.tbu.presence
       t.tbu.debounce =
         (if s.mu.published then (if differs then some (s.tbu.debounce.getD ⟨s.now, false⟩) else none)
          else s.tbu.debounce)) ∧
      t.tbu.breakTimer =
        (if s.mu.published then
           (if s.inputs.breakaway then some (s.tbu.breakTimer.getD ⟨s.now, false⟩) else none)
         else s.tbu.breakTimer) ∧
      (∀ ch, (t.mu.speed.get ch).timing = (s.mu.speed.get ch).timing) ∧
      (∀ k, k ≠ .clutchHot → t.fu.entry.get k = s.fu.entry.get k) ∧ t.fu.mask = s.fu.mask ∧
      t.cs = s.cs ∧ t.inputs = s.inputs ∧ t.lcu.leases = s.lcu.leases ∧ t.otu.lists = s.otu.lists ∧
      (∀ j, (t.order j).map Order.body = (s.order j).map Order.body) ∧
      (∀ ch, (t.os.get ch).inForce = (s.os.get ch).inForce ∧ (t.os.get ch).tripped = (s.os.get ch).tripped) ∧
      ∀ p, PortOnly (s.port p) (t.port p)

/-- A sample of a converter channel: its window state moves by R51, and its value is, in the window, raw minus offset, times
gain, divided by 4096 rounding toward zero, clamped to the channel's range; the last such value while OUT_PENDING; unavailable
OUT_OF_RANGE. (A sample in the window that leaves the channel OUT_OF_RANGE does not renew the value kept for OUT_PENDING: the
model's choice, log 64.) Ranges, default offsets and gains, and what a write may hold. The derived quantities of a
publication: source, ground speed, slip, draft, service brake, pedal band. -/
def Obligations.ConvertersAndQuantities : Prop :=
  ((∀ (items : List (List Word)) (ch : ConvCh) (raw : BitVec 12) (r : ConvRec) (now : Time) (advisory latched : Bool),
     let inside : Prop := (itemValue items 17 ch.code).toNat ≤ raw.toNat ∧ raw.toNat ≤ (itemValue items 18 ch.code).toNat
     let scaled := max (convRange ch).1 (min (convRange ch).2
       ((((raw.toNat : Int) - (itemValue items 15 ch.code).toNat) * (itemValue items 16 ch.code).toInt).tdiv 4096))
     let r' := r.sample items ch now advisory latched raw
     r'.raw = raw ∧ (r'.inside = true ↔ inside) ∧
     (r.window = .inWindow → r'.window = if inside then .inWindow else .outPending now) ∧
     (∀ t, r.window = .outPending t → r'.window = if inside then .inWindow else .outPending t) ∧
     (r.window = .outOfRange →
       r'.window = if inside ∧ (advisory = true ∨ latched = false) then .inWindow else .outOfRange) ∧
     (r'.window = .inWindow → r'.value = some scaled) ∧ (∀ t, r'.window = .outPending t → r'.value = r.last) ∧
     (r'.window = .outOfRange → r'.value = none ∧ r'.last = r.last)) ∧
   ConvCh.all.map convRange =
     [(0, 1000), (-1000, 1000), (-1000, 1000), (0, 16000), (0, 16000), (0, 1000), (0, 16000), (0, 6000)] ∧
   (ConvCh.all.map fun ch => (itemNat defaultItems 15 ch.code, (itemValue defaultItems 16 ch.code).toInt)) =
     [(0, 1000), (2048, 2000), (2048, 2000), (0, 16000), (0, 16000), (0, 1000), (0, 16000), (0, 6000)] ∧
   ∀ (ch : ConvCh) (w : Word), (valueOk 15 ch.code w = true ↔ w.toNat ≤ 4095) ∧
     (valueOk 16 ch.code w = true ↔ -32767 ≤ w.toInt ∧ w.toInt ≤ 32767)) ∧
  (∀ s : State,
     let p := s.publication
     let radar := s.mu.speed.get .radar
     (p.source = .radar ↔
       radar.lost = false ∧ radar.resuming = false ∧ s.mu.byWheel = false ∧
         (radar.timing.isValid = true ∨ ∀ w, p.wheel = some w → w < 10)) ∧
     p.ground = (if p.source = .radar then p.radar else p.wheel) ∧
     (p.slip = none ↔ p.source = .wheel ∨ p.wheel = none) ∧
     (∀ w g, p.source = .radar → p.wheel = some w → p.ground = some g → 10 ≤ w → g ≤ w →
       p.slip = some ((w - g) * 100 / w)) ∧
     (∀ w, p.source = .radar → p.wheel = some w → w < 10 → p.slip = some 0) ∧
     (∀ w g, p.source = .radar → p.wheel = some w → p.ground = some g → w < g → p.slip = some 0) ∧
     p.draft = (match p.draftL, p.draftR with | some a, some b => some (a + b) | _, _ => none) ∧
     p.service = (match p.brakeL, p.brakeR with | some a, some b => some (min a b) | _, _ => none) ∧
     p.band =
       (match p.pedal with
       | none => .released
       | some x => if x < 50 then .released else if x < 900 then .modulating else .pressed))

/-! Pins. -/

/-- ENABLE falls: in RUN the gearbox halts, the axle follows its spring ahead of the gearbox's release of flow (the model's
order, log 17), the hitch holds, no channel drives, and ENABLE_LOST
is latched; in CONFIG only the input and the condition of SAFE_NEUTRAL change, with its report, which stands in a queue
in the model (log 24). ENABLE rises: SAFE_NEUTRAL is worked out afresh
and the job units work on; no fault, no order and no current in force changes. -/
def Obligations.EnableFallsAndRises : Prop :=
  (∀ s : State, s.inputs.enable = true →
     (s.running = true →
       CompletesWith .enableFall s fun t =>
         t.inputs = { s.inputs with enable := false } ∧ (∀ c, t.sq.state c = .opened) ∧ t.sq.queue = [] ∧
         t.sq.interlock = true ∧ t.sq.flags = .clear ∧ t.flow.fill.state = .idle ∧
         t.acu.coupling =
           (match s.acu.coupling with
           | .engaged | .releaseWait => .engaged
           | .releasing | .released | .engaging => .engaging) ∧
         t.hr.mode = .hold ∧ (∀ ch, t.outState ch ≠ .driving ∧ t.outputCurrent ch = 0 ∧ (t.os.get ch).openTimer = none) ∧
         t.fu.entry.get .enableLost = ⟨true, some 0⟩ ∧ t.fu.safeNeutral = true ∧
         t.cs = s.cs ∧ t.lcu.leases = s.lcu.leases ∧ t.mu.conv = s.mu.conv ∧ t.mu.pub = s.mu.pub ∧ t.now = s.now ∧
         (∀ j, (t.order j).map Order.still = (s.order j).map Order.still) ∧ ∀ p, PortOnly (s.port p) (t.port p)) ∧
     (s.running = false →
       CompletesWith .enableFall s fun t =>
         SettleOnly
           { s with
             inputs := { s.inputs with enable := false },
             fu := { s.fu with
               safeNeutral := true,
               breakaway := s.latched .breakaway,
               reports := s.fu.reports ++ (if s.fu.safeNeutral then [] else [(.safeNeutral, true)]) ++
                 (if s.latched .breakaway = s.fu.breakaway then [] else [(.breakaway, s.latched .breakaway)]) } } t)) ∧
  (∀ s : State, s.inputs.enable = false →
     CompletesWith .enableRise s fun t =>
       (∃ u, JobOnly { s with inputs := { s.inputs with enable := true } } u ∧ SettleOnly u.fuConditions t) ∧
       t.fu.safeNeutral = FaultKind.all.any s.countsSafe ∧ t.fu.entry = s.fu.entry ∧ t.sq.interlock = s.sq.interlock)

/-- The raw trailer and breakaway inputs take their levels; the debounce timer runs while the raw input differs from the
presence, the breakaway timer while its input is high (a change of level moves its timer in its own event: the model's
choice, log 46); after 100 ms the presence takes the raw level and TRAILER is set at both ports. -/
def Obligations.TrailerPinsAreFollowed : Prop :=
  ∀ (level : Bool) (s : State),
    (CompletesWith (.trailerPresentChange level) s fun t =>
      SettleOnly
        { s with
          inputs := { s.inputs with trailerPresent := level },
          tbu := { s.tbu with
            debounce := if level = s.tbu.presence then none else some (s.tbu.debounce.getD ⟨s.now, false⟩) } } t) ∧
    (CompletesWith (.breakawayInputChange level) s fun t =>
      SettleOnly
        { s with
          inputs := { s.inputs with breakaway := level },
          tbu := { s.tbu with
            breakTimer := if level then some (s.tbu.breakTimer.getD ⟨s.now, false⟩) else none } } t) ∧
    ∀ r, s.tbu.debounce = some r → r.out = false → 100 ≤ elapsed s.now r.start →
      CompletesWith .debounceTimerExpiry s fun t =>
        t.tbu.presence = s.inputs.trailerPresent ∧ t.tbu.debounce = none ∧
        (∀ p, (t.port p).causes.getLsbD 3 = true) ∧
        ∃ u, CausesOnly { s with tbu := { s.tbu with presence := s.inputs.trailerPresent, debounce := none } } u ∧
          SettleOnly u t

/-! Leases and conditions. -/

/-- The head of the lease list expires: its entry and its reports go (reports stand in a queue in the model, log 24), the order
is LAPSED with keeping NONE, its slot enters its owner's changed-order set, and every other order keeps what its placement and
amendments wrote. -/
def Obligations.LeaseExpiryLapses : Prop :=
  ∀ (e : Lease) (rest : List Lease) (o : Order) (s : State), s.lcu.leases = e :: rest →
    remaining s.now e.deadline = 0 → s.order e.slot = some o →
    CompletesWith .leaseExpiry s fun t =>
      (∃ o', t.order e.slot = some o' ∧ o'.body = o.body ∧ o'.state = .lapsed ∧ o'.keeping = .none) ∧
      e.slot ∈ (t.port o.owner.port).changed ∧ t.lcu.leases = removeLease e.slot s.lcu.leases ∧
      (∃ l, t.lcu.reports = s.lcu.reports.filter (·.1 ≠ e.slot) ++ l) ∧ (∀ r ∈ t.lcu.reports, r.1 ≠ e.slot) ∧
      (∀ j, j ≠ e.slot → (t.order j).map Order.body = (s.order j).map Order.body) ∧
      t.otu.lists = s.otu.lists ∧ t.otu.live = s.otu.live ∧ (∀ j, t.incarnation j = s.incarnation j) ∧
      t.cs = s.cs ∧ t.inputs = s.inputs ∧ t.fu = s.fu ∧ t.mu.conv = s.mu.conv ∧ t.mu.pub = s.mu.pub ∧ t.now = s.now ∧
      ∀ p, PortOnly (s.port p) (t.port p)

/-- The dwell end of an ARMING term: the term is TRUE, and a change of the order's condition is reported. The release timer of
BRAKE_AXLE runs out: the condition is FALSE, and its report is the last in the queue. (Reports stand in a queue in the model,
log 24.) -/
def Obligations.ConditionTimersRunOut : Prop :=
  (∀ (k : Nat) (n : TermNo) (o : Order) (d : Time) (s : State), s.order k = some o → (o.term n).eval = some (.arming d) →
     remaining s.now d = 0 →
     let o1 := o.setTerm n { o.term n with eval := some .isTrue }
     CompletesWith (.dwellEnd k n) s fun t =>
       (∃ o', t.order k = some o' ∧ o'.term1 = o1.term1 ∧ o'.term2 = o1.term2 ∧ o'.lcuCond = o1.termsTrue ∧
         o'.cond = o.cond ∧ o'.state = o.state ∧ o'.body = o.body) ∧
       t.lcu.reports = s.lcu.reports ++ (if o1.termsTrue = o.lcuCond then [] else [(k, o1.termsTrue)]) ∧
       (∀ j, j ≠ k → (t.order j).map Order.still = (s.order j).map Order.still) ∧ t.fu = s.fu ∧ t.flow = s.flow ∧
       t.hr = s.hr ∧ t.cs = s.cs ∧ t.inputs = s.inputs ∧ t.lcu.leases = s.lcu.leases ∧ t.now = s.now) ∧
  (∀ (r : Run) (s : State), s.lcu.brakeRelease = some r → r.out = false → 1000 ≤ elapsed s.now r.start →
     CompletesWith .brakeAxleReleaseTimerExpiry s fun t =>
       t.lcu.brakeAxle = false ∧ t.lcu.brakeRelease = none ∧ t.lcu.reports = s.lcu.reports ++ [(1, false)] ∧
       SettleOnly
         { s with
           lcu := { s.lcu with brakeAxle := false, brakeRelease := none, reports := s.lcu.reports ++ [(1, false)] } } t)

/-- Condition terms. A new value of its quantity, or its loss, moves a term by the tables of R35 and R37; a hand-over
evaluates it afresh. A publication brings every term its quantity's value, a change of the gear number the terms of
GEAR_NUMBER, and each condition that changes is reported; an AMEND hands over the set terms it writes a field of. BRAKE_AXLE
and TRANSPORT turn on the values of a publication, and report it. (Reports stand in a queue in the model, log 24.) -/
def Obligations.ConditionTermsMove : Prop :=
  (∀ (r : Term) (now : Time) (x : Nat),
     let above : Prop := r.quantity.lo = 0
     let limit := r.threshold.toNat
     let holds : Prop := if above then limit < x else x < limit
     let past : Prop :=
       if above then (x : Int) < (limit : Int) - r.hysteresis.toNat else limit + r.hysteresis.toNat < x
     let entered : TermEval := if r.dwell = 0 then .isTrue else .arming (now + r.dwell.setWidth 32)
     (r.eval = some .isFalse → (r.take now (some x)).eval = some (if holds then entered else .isFalse)) ∧
     (∀ d, r.eval = some (.arming d) →
       (r.take now (some x)).eval = some (if holds then .arming d else .isFalse) ∧
       (r.take now none).eval = some .isFalse) ∧
     (r.eval = some .isTrue → (r.take now (some x)).eval = some (if past then .isFalse else .isTrue)) ∧
     (r.eval = some .isFalse ∨ r.eval = some .isTrue → (r.take now none).eval = r.eval) ∧
     (r.afresh now (some x)).eval = some (if holds then entered else .isFalse) ∧
     (r.afresh now none).eval = some .isFalse) ∧
  (∀ (raw : ByConv (BitVec 12)) (s : State), s.otu.slots.length = 48 →
     CompletesWith (.muPublication raw) s fun t =>
       ∃ l, t.lcu.reports = s.lcu.reports ++ l ∧
         (∀ k o, s.order k = some o → o.termCount ≠ 0 → o.state ≠ .lapsed →
           ∃ o', t.order k = some o' ∧ o'.lcuCond = o'.termsTrue ∧ (o'.lcuCond ≠ o.lcuCond → (k, o'.lcuCond) ∈ l) ∧
             ∀ n q, (o.term n).set = true → (o.term n).quantityName = some q →
               (o'.term n).eval =
                 if q = .gearNumber ∧ t.sq.gearNumber = s.sq.gearNumber then (o.term n).eval
                 else ((o.term n).take t.now (t.quantity q)).eval) ∧
         (let level (n : Nat) (v : Option Nat) : Prop := ∃ x, v = some x ∧ n ≤ x
          let below (n : Nat) (v : Option Nat) : Prop := ∃ x, v = some x ∧ x + 300 < n
          let brake := itemNat s.items 19 0
          let speed := itemNat s.items 19 1
          let released : Prop := below brake t.pub.brakeL ∧ below brake t.pub.brakeR
          (s.lcu.brakeAxle = false →
            (t.lcu.brakeAxle = true ↔ level brake t.pub.brakeL ∧ level brake t.pub.brakeR ∧ level 30 t.pub.ground) ∧
            (t.lcu.brakeAxle = true → (1, true) ∈ l)) ∧
          (s.lcu.brakeAxle = true →
            t.lcu.brakeAxle = true ∧
            (released → t.lcu.brakeRelease = some (s.lcu.brakeRelease.getD ⟨t.now, false⟩)) ∧
            (¬ released → t.lcu.brakeRelease = none)) ∧
          (s.lcu.transport = false →
            (t.lcu.transport = true ↔ level speed t.pub.ground ∧ level (itemNat s.items 19 2) t.pub.position)) ∧
          (s.lcu.transport = true → (t.lcu.transport = false ↔ ∃ x, t.pub.ground = some x ∧ x + 20 < speed)) ∧
          (t.lcu.transport ≠ s.lcu.transport → (2, t.lcu.transport) ∈ l))) ∧
  ∀ (p : Port) (tag slot inc first : Byte) (front : Bool) (count : BitVec 7) (gen : Word) (v : Values) (o o1 : Order)
    (s : State),
    (s.port p).takes → s.lookup ⟨slot, inc⟩ = some o → o.amendCheck p first.toNat count.toNat gen v = .ok o1 →
    CompletesWith (.amend p tag slot inc first front count gen v) s fun t =>
      ∃ o', t.order slot.toNat = some o' ∧
        ∀ n : TermNo,
          let r := o1.term n
          let base := match n with | .first => 16 | .second => 20
          let touched : Prop := ∃ i < 4, first.toNat ≤ base + i ∧ base + i < first.toNat + count.toNat
          r.quantityName ≠ some .gearNumber ∨ t.sq.gearNumber = s.sq.gearNumber →
            (touched → r.set = true → (o'.term n).eval = (r.afresh s.now (s.termValue r)).eval) ∧
            (¬ (touched ∧ r.set = true) → (o'.term n).eval = (o.term n).eval)

/-- The OTU takes the oldest report on an order: its condition is the one reported and its state follows from it; every
other order keeps what its placement and amendments wrote. -/
def Obligations.ConditionReportsAreTaken : Prop :=
  ∀ (k : Nat) (truth : Bool) (o : Order) (s : State), s.order k = some o → k ∈ s.list o.channel →
    (s.list o.channel).Nodup →
    let post (t : State) : Prop :=
      (∃ o', t.order k = some o' ∧ o'.body = o.body ∧ o'.cond = truth ∧
        (o.state = .lapsed → o'.state = .lapsed) ∧
        (o.state ≠ .lapsed → truth = false → o'.state = .dormant) ∧
        (o.state ≠ .lapsed → truth = true → o'.state = .governing ∨ o'.state = .outranked)) ∧
      (∀ j, j ≠ k → (t.order j).map Order.body = (s.order j).map Order.body) ∧ t.otu.lists = s.otu.lists ∧
      t.lcu.leases = s.lcu.leases ∧ t.cs = s.cs ∧ t.inputs = s.inputs ∧ t.fu.entry = s.fu.entry ∧
      t.fu.record = s.fu.record ∧ t.mu.conv = s.mu.conv ∧ t.mu.pub = s.mu.pub ∧ t.now = s.now ∧
      ∀ p, PortOnly (s.port p) (t.port p)
    (∀ a b, s.lcu.reports = a ++ (k, truth) :: b → (∀ r ∈ a, r.1 ≠ k) →
      CompletesWith (.conditionReport k) s fun t => post t ∧ (∃ l, t.lcu.reports = a ++ b ++ l) ∧ t.fu.reports = s.fu.reports) ∧
    ∀ w a b, s.fu.reports = a ++ (w, truth) :: b → (∀ r ∈ a, r.1 ≠ w) → k = faultOrderSlot w →
      CompletesWith (.faultConditionReport w) s fun t =>
        post t ∧ t.fu.reports = a ++ b ∧ ∃ l, t.lcu.reports = s.lcu.reports ++ l

/-! Flow. -/

/-- A grant pass out of the flow `budget` that the reserve leaves. A FILL, then an AXLE request is granted whole where it fits
with the lift cut as far as it must be, none under the supply hold and no AXLE behind a FILL that waits; then the lift gets
what is left, nothing new while a request waits. A request, a release and a new asked lift each bring a pass; a request on a
grant releases it first. The consumer told of a grant goes on at once: FILL, RELEASING, the lift grant at the hitch. -/
def Obligations.GrantPassServes : Prop :=
  (∀ (f : Flow) (budget : Nat), f.fill.granted + f.axle.granted + f.liftGranted ≤ budget →
     let g := f.pass budget
     let waits : Prop := g.fill.state = .waiting ∨ g.axle.state = .waiting
     g.fill =
       (if f.fill.state = .waiting ∧ f.hold = false ∧ f.fill.asked ≤ budget - (f.fill.granted + f.axle.granted) then
          ⟨.granted, f.fill.asked, f.fill.asked, none⟩
        else f.fill) ∧
     g.axle =
       (if f.axle.state = .waiting ∧ f.hold = false ∧ g.fill.state ≠ .waiting ∧
           f.axle.asked ≤ budget - (g.fill.granted + f.axle.granted) then
          ⟨.granted, f.axle.asked, f.axle.asked, none⟩
        else f.axle) ∧
     (¬ waits → g.liftGranted = min f.liftAsked (budget - (g.fill.granted + g.axle.granted))) ∧
     (waits → g.liftGranted = if f.hold then f.liftGranted else 0) ∧
     g.liftAsked = f.liftAsked ∧ g.fillSite = f.fillSite ∧ g.hold = f.hold) ∧
  (∀ (s : State) (units : Nat) (c : Clutch),
     let budget := itemNat s.items 12 0 - itemNat s.items 12 1
     let asked : FlowEntry := ⟨.waiting, units, 0, if s.flow.hold then none else some s.now⟩
     (s.flow.fill.state ≠ .granted →
       (s.askFill units c).flow = ({ s.flow with fill := asked, fillSite := some c }).pass budget) ∧
     (s.flow.fill.state = .granted → s.askFill units c = s.releaseFill.askFill units c) ∧
     (s.flow.axle.state ≠ .granted → (s.askAxle units).flow = ({ s.flow with axle := asked }).pass budget) ∧
     (s.flow.axle.state = .granted → s.askAxle units = s.releaseAxle.askAxle units) ∧
     (s.flow.fill.state = .idle → s.releaseFill = s) ∧
     (s.flow.fill.state ≠ .idle →
       s.releaseFill.flow = ({ s.flow with fill := ⟨.idle, 0, 0, none⟩, fillSite := none }).pass budget) ∧
     (s.flow.axle.state = .idle → s.releaseAxle = s) ∧
     (s.flow.axle.state ≠ .idle →
       s.releaseAxle.flow = ({ s.flow with axle := ⟨.idle, 0, 0, none⟩ }).pass budget) ∧
     (units ≠ s.flow.liftAsked →
       (s.askLift units).flow =
         ({ s.flow with liftAsked := units, liftGranted := min s.flow.liftGranted units }).pass budget)) ∧
  ∀ s : State,
    let g := s.flow.pass (itemNat s.items 12 0 - itemNat s.items 12 1)
    let t := s.grantPass
    t.flow = g ∧
    (s.flow.fill.state ≠ .granted → g.fill.state = .granted →
      ∀ st rest, s.sq.queue = st :: rest → st.phase = some .flowWait →
        (∀ c, t.sq.state c = if c ∈ st.on then .fill else s.sq.state c) ∧
        t.sq.queue =
          { st with
            phase := some .fill, phaseStart := s.now,
            phaseLength :=
              max 10 (listMax (st.on.map fun c =>
                ((clutchItem s.items c).fillTime + (s.sq.clutch.get c).fillOffset).toNat)),
            preShift := s.pub.engine, observation := 0,
            observable := st.kind = .single && st.upward && s.pub.engine.isSome && s.pub.band = .released } :: rest) ∧
    (s.flow.axle.state ≠ .granted → g.axle.state = .granted → s.acu.coupling = .releaseWait →
      t.acu = { s.acu with coupling := .releasing, fill := some ⟨s.now, false⟩ }) ∧
    (g.liftGranted ≠ s.flow.liftGranted → t.hr.granted = g.liftGranted)

/-! Plans. -/

/-- The plan from a base to the wish: its steps in the order of the rows of R78, with their clutches, and its end at the wish,
which is that of the order as taken: a hand-over sets the auto target, and the restart interlock under SAFE_NEUTRAL; a port
order in NEUTRAL clears it. A base with a direction and no gear takes FREE steps (the model's reading, log 28). A rebuild
queues at most four steps, behind a started step that stays; a started step that it does not meet is abandoned, and so is one
whose fill starves: its on-coming clutches go OPEN, its flow is given up, its flags clear, and a LOCKED direction clutch goes
under a pedal that is down. The head starts exactly where nothing of R82 holds it back: a NEUTRALIZE in RAMP_OFF, its clutch
falling from its present current to 0, one built under SAFE_NEUTRAL by opening its clutch at once, as SAFE_NEUTRAL also does
to a NEUTRALIZE under way; every other step with its fill asked for, its flags set, in its flow wait or, where the fill was
granted at once, in FILL. A RANGE or SHUTTLE step freezes the published draft as it starts, or none where there is none; the
frozen value is discarded as the flags clear, when a release that was deferred is begun. -/
def Obligations.PlanLeadsToTheWish : Prop :=
  (∀ (q : Sq) (band : Band) (base : Conf),
     let wd := q.wish.1
     let gear := q.wish.2
     let r := gearRange gear
     let n := gearStepNo gear
     let plan := q.plan band base
     let swap : List (StepKind × List Clutch × List Clutch) :=
       match base.dir, wd with
       | some d, none => [(.neutralize, [], [d.clutch])]
       | some d, some w => if d = w then [] else [(if band = .pressed then .free else .shuttle, [w.clutch], [d.clutch])]
       | none, _ => []
     let free : List (StepKind × List Clutch × List Clutch) :=
       (if base.range = some r then [] else [(.free, [r.clutch], (base.range.map Range.clutch).toList)]) ++
       if base.step = some n then [] else [(.free, [n.clutch], (base.step.map StepNo.clutch).toList)]
     let engage : List (StepKind × List Clutch × List Clutch) :=
       match base.dir, wd with
       | none, some w => [(.engage, [w.clutch], [])]
       | _, _ => []
     let shapes := plan.map fun st => (st.kind, st.on, st.off)
     (∀ st ∈ plan, st.phase = none ∧ (st.kind = .neutralize → st.zeroRamp = decide (takenSlot q.taken = 0))) ∧
     (1 ≤ gear → gear ≤ 12 →
     (plan = [] ↔ base.dir = wd ∧ base.range = some r ∧ base.step = some n) ∧
     (∀ st, plan.getLast? = some st → st.result = ⟨wd, some r, some n⟩) ∧
     (base.dir = none ∨ wd = none ∨ band = .pressed → shapes = swap ++ free ++ engage) ∧
     (∀ r0 n0, base.dir ≠ none → wd ≠ none → band ≠ .pressed → base.range = some r0 → base.step = some n0 →
       let from0 := gearOf r0 n0
       (q.auto = false →
         shapes = swap ++
           if from0 = gear then []
           else
             [(if r = r0 then .single else .range,
               (if r = r0 then [] else [r.clutch]) ++ (if n = n0 then [] else [n.clutch]),
               (if r = r0 then [] else [r0.clutch]) ++ (if n = n0 then [] else [n0.clutch]))]) ∧
       (q.auto = true →
         let steps := plan.drop swap.length
         shapes.take swap.length = swap ∧ steps.length = (gear - from0) + (from0 - gear) ∧
         ∀ i (h : i < steps.length),
           steps[i].result.gear = some (if from0 < gear then from0 + i + 1 else from0 - i - 1) ∧
           (steps[i].kind = .single ∨ steps[i].kind = .range)) ∧
       ∀ st ∈ plan.drop swap.length, (st.downward = true ↔ gear < from0) ∧ (st.upward = true ↔ from0 < gear)) ∧
     (base.range = none ∨ base.step = none → shapes = swap ++ free ++ engage))) ∧
  (∀ s : State, s.running = true → s.enable = true →
     (s.sq.started = none → s.rebuild.sq.queue = (s.sq.plan s.pub.band s.sq.box).take 4) ∧
     (∀ st, s.sq.started = some st →
       st.kind = .neutralize ∨ st.phase = some .rampOn ∨ st.phase = some .sync ∨ st.phase = some .rampOff →
       s.rebuild.sq.queue = (st :: s.sq.plan s.pub.band st.result).take 4) ∧
     (∀ st p ps, s.sq.started = some st → st.kind ≠ .neutralize →
       st.phase = some .flowWait ∨ st.phase = some .fill ∨ st.phase = some .hold →
       s.sq.plan s.pub.band s.sq.box = p :: ps → p.kind = st.kind → p.on = st.on → p.off = st.off →
       p.result = st.result → s.rebuild.sq.queue = (st :: ps).take 4) ∧
     (∀ st, s.sq.started = some st → st.kind ≠ .neutralize →
       st.phase = some .flowWait ∨ st.phase = some .fill ∨ st.phase = some .hold →
       (∀ p ps, s.sq.plan s.pub.band s.sq.box = p :: ps →
         ¬ (p.kind = st.kind ∧ p.on = st.on ∧ p.off = st.off ∧ p.result = st.result)) →
       let u := s.abandonHead
       s.rebuild = { u with sq := { u.sq with queue := (u.sq.plan u.pub.band u.sq.box).take 4 } })) ∧
  (∀ (s : State) (st : GearStep) (rest : List GearStep), s.QueueForm → s.sq.queue = st :: rest →
     st.phase = some .flowWait ∨ st.phase = some .fill ∨ st.phase = some .hold →
     let opens (c : Clutch) : Prop := c ∈ st.on ∧ st.phase ≠ some .flowWait
     let t := s.abandonHead
     t.sq.queue = rest ∧ t.sq.flags = .clear ∧ (st.phase ≠ some .hold → t.flow.fill.state = .idle) ∧
     (s.sq.flags.draftFreeze = true → t.hr.frozen = none ∧ t.hr.frozenLost = false) ∧
     ∀ c, t.sq.state c =
       if opens c then .opened
       else if s.pub.band ≠ .released ∧
           ((c = .cf ∧ s.sq.state .cf = .locked) ∨
             (c = .cr ∧ s.sq.state .cr = .locked ∧ ¬ (s.sq.state .cf = .locked ∧ ¬ opens .cf))) then .sync
       else s.sq.state c) ∧
  (∀ s : State,
     let t := s.clearFlags
     t.sq.flags = .clear ∧
     (s.sq.flags.draftFreeze = true → t.hr.frozen = none ∧ t.hr.frozenLost = false) ∧
     (s.sq.flags.draftFreeze = false → t.hr.frozen = s.hr.frozen ∧ t.hr.frozenLost = s.hr.frozenLost) ∧
     (s.sq.flags.releaseDeferral = true → s.running = true → s.acuWantsReleased = true → s.acu.coupling = .engaged →
       t.acu.coupling = .releaseWait ∨ t.acu.coupling = .releasing) ∧
     (s.sq.flags.releaseDeferral = false → t.acu = s.acu ∧ t.flow = s.flow)) ∧
  (∀ (s : State) (st : GearStep) (rest : List GearStep), s.QueueForm → s.running = true → s.enable = true →
     s.sq.queue = st :: rest → st.phase = some .flowWait → s.starves .fill = true → s.sq.wish.1 ≠ none →
     let shape (x : GearStep) : StepKind × List Clutch × List Clutch × Conf := (x.kind, x.on, x.off, x.result)
     CompletesWith (.flowWaitExpiry .fill) s fun t =>
       t.sq.queue.map shape = ((s.sq.plan s.pub.band s.sq.box).take 4).map shape ∧
       ∀ x ∈ t.sq.queue, x.phase ≠ none → x.phaseStart = s.now) ∧
  (∀ (s : State) (st : GearStep), s.running = true → s.enable = true → s.sq.started = some st → st.kind = .neutralize →
     takenSlot (s.takenNow .gear) = 0 →
     let t := s.sqTake
     (∀ c ∈ st.off, t.sq.state c = .opened ∨ t.sq.state c = .fill) ∧ t.sq.looseSync = none) ∧
  (∀ s : State,
     let t := s.sqTake
     let f (i : Nat) : Nat := takenField t.sq.taken i
     let slot := takenSlot t.sq.taken
     let banded (gear : Nat) : Nat := min (max gear (f 3)) (f 4)
     let kept : Prop :=
       takenField s.sq.taken 0 = 2 ∧ s.sq.taken.map Taken.handle = t.sq.taken.map Taken.handle
     t.sq.taken = s.takenNow .gear ∧ t.sq.up = none ∧ t.sq.down = none ∧
     (f 0 ≠ 2 → t.sq.autoTarget = 0) ∧
     (f 0 = 2 → kept → t.sq.autoTarget = banded s.sq.autoTarget) ∧
     (f 0 = 2 → ¬ kept → ∀ r n, s.sq.range = some r → s.sq.step = some n →
       (s.sq.state .cf ≠ .opened ∨ s.sq.state .cr ≠ .opened) → t.sq.autoTarget = banded (gearOf r n)) ∧
     (f 0 = 2 → ¬ kept →
       (s.sq.range = none ∨ s.sq.step = none ∨ s.sq.state .cf = .opened ∧ s.sq.state .cr = .opened) →
       t.sq.autoTarget = banded (f 2)) ∧
     t.sq.wish =
       (let d : Dir := if f 1 = 1 then .reverse else .forward
        if f 0 = 1 then (some d, f 2) else if f 0 = 2 then (some d, t.sq.autoTarget) else (none, f 2)) ∧
     t.sq.interlock =
       (if slot = 0 then true else if 8 ≤ slot ∧ slot < 48 ∧ f 0 = 0 then false else s.sq.interlock)) ∧
  ∀ (s : State) (st : GearStep) (rest : List GearStep), s.sq.queue = st :: rest → st.phase = none →
    let starts : Prop :=
      s.running = true ∧ s.enable = true ∧ (st.kind = .engage → s.sq.interlock = false) ∧
      (∀ c ∈ st.on, (s.sq.clutch.get c).hot = false) ∧
      (st.kind ≠ .neutralize → s.pub.band = .modulating → s.seqState ≠ .inch)
    let t := s.tryStart
    (¬ starts → t = s) ∧
    (starts → st.kind = .neutralize → st.zeroRamp = false →
      t.sq.queue =
        { st with
          phase := some .rampOff, phaseStart := s.now,
          phaseLength := listMax (st.off.map fun c => (clutchItem s.items c).rampTime) } :: rest ∧
      (∀ c, t.sq.state c = if c ∈ st.off then .rampOff else s.sq.state c) ∧
      ∀ c, (t.sq.clutch.get c).ramp =
        if c ∈ st.off then
          some ⟨s.clutchCurrent c, 0, s.now, listMax (st.off.map fun c => (clutchItem s.items c).rampTime)⟩
        else (s.sq.clutch.get c).ramp) ∧
    (starts → st.kind = .neutralize → st.zeroRamp = true →
      let q := s.sq.enterAll st.off .opened
      (∀ c ∈ st.off, t.sq.state c = .opened ∨ t.sq.state c = .fill) ∧
      ((∀ x ∈ rest, x.phase = none) → q.engaged = none → q.plan s.pub.band q.box = [] →
        t.sq.queue = [] ∧ t.sq.looseSync = none ∧ t.sq.flags = .clear ∧
        ∀ c, t.sq.state c = if c ∈ st.off then .opened else s.sq.state c)) ∧
    (starts → ∀ c on, st.kind ≠ .neutralize → st.on = c :: on →
      (∃ st', t.sq.queue = st' :: rest ∧ st'.kind = st.kind ∧ st'.on = st.on ∧ st'.off = st.off ∧
        st'.result = st.result ∧ st'.response = takenField s.sq.taken 7 ∧ st'.phaseStart = s.now ∧
        (t.flow.fill.state = .waiting → st'.phase = some .flowWait) ∧
        (t.flow.fill.state = .granted → st'.phase = some .fill)) ∧
      (t.flow.fill.state = .waiting ∨ t.flow.fill.state = .granted) ∧
      t.flow.fill.asked = (st.on.map fun x => (clutchItem s.items x).fillUnits).sum ∧ t.flow.fillSite = some c ∧
      t.sq.flags =
        { s.sq.flags with
          draftFreeze := st.kind = .range || st.kind = .shuttle, assistWindow := st.kind = .shuttle } ∧
      (st.kind = .range ∨ st.kind = .shuttle → t.hr.frozen = s.pub.draft ∧ t.hr.frozenLost = s.pub.draft.isNone) ∧
      (st.kind ≠ .range → st.kind ≠ .shuttle → t.hr.frozen = s.hr.frozen ∧ t.hr.frozenLost = s.hr.frozenLost) ∧
      ∀ x, t.sq.state x = if x ∈ st.on ∧ t.flow.fill.state = .granted then .fill else s.sq.state x)

/-! Phases of a step. -/

/-- FILL ends: the on-coming clutches are in HOLD for the largest hold_time, the fill grant is given back, and no other clutch
moves. HOLD ends. In a step that crosses over, the on-coming clutches rise and the off-going clutches fall over the ramp time:
the on-coming ones from hold_current to sync_current, in a SHUTTLE to the shuttle current (a fraction of a milliampere rounded
either way: free, log 11), the off-going ones from their present current, lock_current where they were LOCKED, to 0; and the
flags of the step are set. The release deferral of a RANGE or SHUTTLE step draws a coupling in RELEASE_WAIT back to ENGAGED,
its request withdrawn, and moves no other one. In a FREE step on the range or step group the off-going clutch opens and the
on-coming one rises from hold_current to lock_current over 50 ms; on the direction group the two swap at once and the step
ends, stated where the step is the only one and the swap meets the wish. -/
def Obligations.FillAndHoldEnd : Prop :=
  (∀ (st : GearStep) (rest : List GearStep) (s : State), s.sq.queue = st :: rest → st.phase = some .fill →
     st.phaseLength ≤ elapsed s.now st.phaseStart →
     CompletesWith .fillEnd s fun t =>
       t.sq.queue =
         { st with
           phase := some .hold, phaseStart := s.now,
           phaseLength := overOn s.items st.on ClutchItem.holdTime } :: rest ∧
       (∀ c, t.sq.state c = if c ∈ st.on then .hold else s.sq.state c) ∧ t.flow.fill.state = .idle ∧
       t.sq.flags = s.sq.flags ∧ t.fu = s.fu ∧ t.cs = s.cs ∧ t.inputs = s.inputs ∧ t.mu.conv = s.mu.conv ∧
       t.mu.pub = s.mu.pub ∧ t.now = s.now) ∧
  ((∀ (st : GearStep) (rest : List GearStep) (s : State), s.sq.queue = st :: rest → st.phase = some .hold →
      st.phaseLength ≤ elapsed s.now st.phaseStart → (∀ c ∈ st.on, c ∉ st.off) →
      let shift : Bool := st.kind = .single ∨ st.kind = .range
      st.kind = .engage ∨ st.kind = .shuttle ∨ shift = true →
      let length :=
        if st.kind = .shuttle then overOn s.items st.off ClutchItem.rampTime
        else overOn s.items st.on ClutchItem.rampTime
      CompletesWith .holdEnd s fun t =>
        t.sq.queue = { st with phase := some .rampOn, phaseStart := s.now, phaseLength := length } :: rest ∧
        (∀ c, t.sq.state c = if c ∈ st.on then .rampOn else if c ∈ st.off then .rampOff else s.sq.state c) ∧
        (∀ c,
          let it := clutchItem s.items c
          let ramp := (t.sq.clutch.get c).ramp
          let share := it.syncCurrent * (3 + st.response)
          (c ∈ st.on → st.kind ≠ .shuttle → ramp = some ⟨it.holdCurrent, it.syncCurrent, s.now, length⟩) ∧
          (c ∈ st.on → st.kind = .shuttle →
            ∃ last, ramp = some ⟨it.holdCurrent, last, s.now, length⟩ ∧
              (share % 5 = 0 → last = min it.lockCurrent (share / 5)) ∧
              (last = min it.lockCurrent (share / 5) ∨ last = min it.lockCurrent (share / 5 + 1))) ∧
          (c ∈ st.off → ramp = some ⟨s.clutchCurrent c, 0, s.now, length⟩) ∧
          (c ∈ st.off → s.sq.state c = .locked → ramp = some ⟨it.lockCurrent, 0, s.now, length⟩) ∧
          (c ∉ st.on → c ∉ st.off → ramp = (s.sq.clutch.get c).ramp)) ∧
        t.sq.flags =
          { s.sq.flags with
            assistWindow := s.sq.flags.assistWindow || (shift && st.downward)
            releaseDeferral := st.kind = .range ∨ st.kind = .shuttle } ∧
        (st.kind = .range ∨ st.kind = .shuttle →
          (s.running = true → s.acu.coupling = .releaseWait →
            t.acu.coupling = .engaged ∧ t.flow.axle.state = .idle) ∧
          (s.acuWantsReleased = true → s.acu.coupling ≠ .releaseWait → t.acu.coupling = s.acu.coupling)) ∧
        (st.kind ≠ .range → st.kind ≠ .shuttle → t.acu.coupling = s.acu.coupling ∧ t.flow = s.flow) ∧
        t.fu = s.fu ∧ t.cs = s.cs ∧ t.inputs = s.inputs ∧ t.mu.conv = s.mu.conv ∧ t.mu.pub = s.mu.pub ∧ t.now = s.now) ∧
   (∀ (st : GearStep) (rest : List GearStep) (s : State), s.sq.queue = st :: rest → st.phase = some .hold →
      st.phaseLength ≤ elapsed s.now st.phaseStart → st.kind = .free → (∀ c ∈ st.on, c ∉ st.off) →
      let dir : Bool := st.on.any fun c => c = .cf || c = .cr
      (dir = false →
        CompletesWith .holdEnd s fun t =>
          t.sq.queue = { st with phase := some .rampOn, phaseStart := s.now, phaseLength := 50 } :: rest ∧
          (∀ c, t.sq.state c = if c ∈ st.on then .rampOn else if c ∈ st.off then .opened else s.sq.state c) ∧
          (∀ c ∈ st.on, (t.sq.clutch.get c).ramp =
            some ⟨(clutchItem s.items c).holdCurrent, (clutchItem s.items c).lockCurrent, s.now, 50⟩) ∧
          t.sq.flags = s.sq.flags ∧ t.fu = s.fu ∧ t.cs = s.cs ∧ t.now = s.now) ∧
      (let q := (s.sq.enterAll st.off .opened).enterAll st.on .sync
       dir = true → rest = [] → q.engaged = none → q.plan s.pub.band q.box = [] →
        CompletesWith .holdEnd s fun t =>
          t.sq.queue = [] ∧
          (∀ c, t.sq.state c = if c ∈ st.on then .sync else if c ∈ st.off then .opened else s.sq.state c) ∧
          (∀ c ∈ st.on, (t.sq.clutch.get c).ramp = none) ∧
          t.sq.flags = .clear ∧ t.fu = s.fu ∧ t.cs = s.cs ∧ t.now = s.now)))

/-- RAMP_ON ends: outside a FREE step the off-going clutches are OPEN and the on-coming ones in SYNC, their ramps over, a
shuttle in its deceleration whatever the last published wheel speed (the model's choice, log 61); a FREE step ends with its
on-coming clutches LOCKED, stated where it is the only step and meets the wish. The deceleration of a shuttle without wheel
speed ends at its limit: the assist window closes, and the sync_limit timer starts unless the clutch is under the pedal. -/
def Obligations.RampOnAndDecelerationEnd : Prop :=
  (∀ (st : GearStep) (rest : List GearStep) (s : State), s.sq.queue = st :: rest → st.phase = some .rampOn →
     st.phaseLength ≤ elapsed s.now st.phaseStart → (∀ c ∈ st.on, c ∉ st.off) →
     (st.kind ≠ .free →
       CompletesWith .rampOnEnd s fun t =>
         (∃ st', t.sq.queue = st' :: rest ∧
           st' =
             { st with
               phase := some .sync, phaseStart := s.now, phaseLength := 0, decel := st.kind = .shuttle,
               syncStart := st'.syncStart } ∧
           (st.kind = .shuttle → st'.syncStart = none) ∧
           (st.kind ≠ .shuttle → s.pub.band = .released → st'.syncStart = some s.now)) ∧
         (∀ c, t.sq.state c = if c ∈ st.on then .sync else if c ∈ st.off then .opened else s.sq.state c) ∧
         (∀ c ∈ st.on, (t.sq.clutch.get c).ramp = none) ∧
         t.sq.flags = s.sq.flags ∧ t.flow = s.flow ∧ t.hr = s.hr ∧ t.fu = s.fu ∧ t.cs = s.cs ∧ t.inputs = s.inputs ∧
         t.now = s.now) ∧
     (let q := s.sq.enterAll st.on .locked
      st.kind = .free → rest = [] → s.pub.band = .released → q.plan .released q.box = [] →
       CompletesWith .rampOnEnd s fun t =>
         t.sq.queue = [] ∧ (∀ c, t.sq.state c = if c ∈ st.on then .locked else s.sq.state c) ∧
         t.sq.flags = .clear ∧ t.fu = s.fu ∧ t.cs = s.cs ∧ t.now = s.now)) ∧
  (∀ (st : GearStep) (rest : List GearStep) (s : State), s.sq.queue = st :: rest → st.phase = some .sync →
     st.decel = true → s.pub.wheel = none → overOn s.items st.on ClutchItem.syncLimit ≤ elapsed s.now st.phaseStart →
     CompletesWith .decelerationLimitExpiry s fun t =>
       (∃ st', t.sq.queue = st' :: rest ∧ st' = { st with decel := false, syncStart := st'.syncStart } ∧
         (s.pub.band = .released → st'.syncStart = some s.now)) ∧
       t.sq.flags = { s.sq.flags with assistWindow := false } ∧ (∀ c, t.sq.state c = s.sq.state c) ∧ t.fu = s.fu ∧
       t.flow = s.flow ∧ t.hr = s.hr ∧ t.cs = s.cs ∧ t.inputs = s.inputs ∧ t.now = s.now)

/-- A lock ramp or a forced lock ends a step: its on-coming clutches are LOCKED, its flags clear, a frozen draft with them,
and it leaves the queue; stated where it is the only step, the pedal is released and the lock meets the wish. A NEUTRALIZE
step ends with its direction clutch OPEN. A direction clutch in SYNC outside a step locks at the end of its lock ramp or at
its sync_limit; stated where no step waits. -/
def Obligations.ClutchesLock : Prop :=
  (∀ (st : GearStep) (s : State), s.sq.queue = [st] → s.pub.band = .released →
     let ended (on : List Clutch) (x : ClutchState) (t : State) : Prop :=
       t.sq.queue = [] ∧ (∀ c, t.sq.state c = if c ∈ on then x else s.sq.state c) ∧ t.sq.flags = .clear ∧
       (s.sq.flags.draftFreeze = true → t.hr.frozen = none ∧ t.hr.frozenLost = false) ∧
       t.cs = s.cs ∧ t.inputs = s.inputs ∧ t.mu.conv = s.mu.conv ∧ t.mu.pub = s.mu.pub ∧ t.now = s.now
     (let q := s.sq.enterAll st.on .locked
      st.phase = some .sync → q.plan .released q.box = [] →
       (s.rampsDone st.on = true →
         CompletesWith (.lockRampEnd .step) s fun t => ended st.on .locked t ∧ t.fu = s.fu) ∧
       (s.syncDue st.on st.syncStart = true →
         CompletesWith (.syncLimitExpiry .step) s fun t => ended st.on .locked t)) ∧
     (let q := s.sq.enterAll st.off .opened
      st.phase = some .rampOff → st.phaseLength ≤ elapsed s.now st.phaseStart → q.engaged = none →
       q.plan .released q.box = [] →
       CompletesWith .rampOffEnd s fun t => ended st.off .opened t ∧ t.fu = s.fu)) ∧
  (∀ (d : Dir) (s : State), s.sq.loose = some d → s.sq.queue = [] →
     let locked (t : State) : Prop :=
       (∀ c, t.sq.state c = if c = d.clutch then .locked else s.sq.state c) ∧ t.sq.looseSync = none ∧ t.sq.queue = [] ∧
       t.cs = s.cs ∧ t.inputs = s.inputs ∧ t.mu.conv = s.mu.conv ∧ t.mu.pub = s.mu.pub ∧ t.now = s.now
     (s.rampsDone [d.clutch] = true → CompletesWith (.lockRampEnd .direction) s fun t => locked t ∧ t.fu = s.fu) ∧
     (s.syncDue [d.clutch] s.sq.looseSync = true → CompletesWith (.syncLimitExpiry .direction) s locked))

/-- What a publication in RUN does to clutches that slip. A step in SYNC, its deceleration over, or a direction clutch in SYNC
outside a step, with the pedal band RELEASED, begins its lock ramp exactly where the slip lies within the window. Each clutch
in SYNC gains the slip as heat, hundredths of a unit carried (heat that stops at 65535 carries none: the model's choice, log
38). The started step is watched for overfill in HOLD and underfill in RAMP_ON. A step that ends by its lock ramp applies the
observation to its first on-coming clutch, a forced lock none. The deceleration of a shuttle ends at a wheel speed below 0.5
km/h that a publication brings (log 61). A pedal that goes down puts a LOCKED direction clutch under it, drops a lock ramp and
the sync_limit timer; one that comes up starts the timer; PRESSED, entered or left, rebuilds the plan and, left, abandons a
FREE step before its RAMP_ON. A step that ends with a direction clutch LOCKED under the pedal gives it to the pedal. (Slips
are exact, log 58. A direction clutch beside a started step on other clutches takes the slip of R91: the model's choice, log
48. The SYNC of a SHUTTLE step takes the pedal too: R91 before R92, the model's reading, log 18.) -/
def Obligations.SyncLocksAndHeats : Prop :=
  (∀ (s : State) (d : Dir) (gear e w : Nat), s.pub.engine = some e → s.pub.wheel = some w →
     let expected := w * itemNat s.items (match d with | .forward => 0 | .reverse => 1) (gear - 1)
     s.slipOf d gear = some (((100 * e : Nat) : Int) - expected).natAbs ∧ s.decelSlip d gear = some (100 * e + expected)) ∧
  (∀ (s : State) (d : Dir) (gear : Nat), s.pub.engine = none ∨ s.pub.wheel = none →
     s.slipOf d gear = none ∧ s.decelSlip d gear = none) ∧
  (∀ (raw : ByConv (BitVec 12)) (s : State), s.running = true →
     CompletesWith (.muPublication raw) s fun t =>
       let within (slip : Option Nat) (window : Nat) : Prop := ∃ v, slip = some v ∧ v ≤ 100 * window
       (∀ st rest d r n, s.sq.queue = st :: rest → st.phase = some .sync → st.decel = false →
         s.pub.band = .released → t.pub.band = .released → s.sq.ramping st.on = false →
         st.result = ⟨some d, some r, some n⟩ →
         let window := listMax (st.on.map fun c => (clutchItem s.items c).syncWindow)
         ∀ c ∈ st.on,
           let it := clutchItem s.items c
           (within (t.slipOf d (gearOf r n)) window →
             (t.sq.clutch.get c).ramp = some ⟨it.syncCurrent, it.lockCurrent, t.now, 50⟩) ∧
           (¬ within (t.slipOf d (gearOf r n)) window → (t.sq.clutch.get c).ramp = none)) ∧
       (∀ d r n, s.sq.queue = [] → s.sq.loose = some d → s.sq.range = some r → s.sq.step = some n →
         s.pub.band = .released → t.pub.band = .released → s.sq.ramping [d.clutch] = false →
         let it := clutchItem s.items d.clutch
         (within (t.slipOf d (gearOf r n)) it.syncWindow →
           (t.sq.clutch.get d.clutch).ramp = some ⟨it.syncCurrent, it.lockCurrent, t.now, 50⟩) ∧
         (¬ within (t.slipOf d (gearOf r n)) it.syncWindow → (t.sq.clutch.get d.clutch).ramp = none)) ∧
       (∀ c,
         let r := s.sq.clutch.get c
         let r' := t.sq.clutch.get c
         let slip : Option Nat :=
           match s.sq.stepSync c with
           | some st =>
             match st.result.dir, st.result.gear with
             | some d, some g => if st.decel then t.decelSlip d g else t.slipOf d g
             | _, _ => none
           | none =>
             match s.sq.loose, s.sq.range, s.sq.step with
             | some d, some x, some n => t.slipOf d (gearOf x n)
             | _, _, _ => none
         (∀ v, r.state = .sync → slip = some v →
           let total := 10000 * r.heat + r.heatRest + v
           (total < 655350000 → r'.heat = total / 10000 ∧ r'.heatRest = total % 10000) ∧
           (655350000 ≤ total → r'.heat = 65535 ∧ r'.heatRest = 0)) ∧
         (r.state ≠ .sync ∨ slip = none → r'.heat = r.heat ∧ r'.heatRest = r.heatRest)) ∧
       ∀ st rest, s.sq.queue = st :: rest → st.phase ≠ none → st.phase ≠ some .flowWait → st.decel = false →
         t.pub.band = s.pub.band →
         ∃ obs, t.sq.queue =
           { st with
             observation := obs
             observable := st.observable && t.pub.engine.isSome && t.pub.band = .released } :: rest ∧
           let dips : Prop := ∃ e p, t.pub.engine = some e ∧ st.preShift = some p ∧ e + itemNat s.items 20 1 < p
           let flares : Prop := ∃ e p, t.pub.engine = some e ∧ st.preShift = some p ∧ p + itemNat s.items 20 0 < e
           (st.observation = 0 → st.phase = some .hold → dips → obs = -1) ∧
           (st.observation = 0 → st.phase = some .rampOn → flares → obs = 1) ∧
           (¬ (st.phase = some .hold ∧ dips) → ¬ (st.phase = some .rampOn ∧ flares) → obs = st.observation) ∧
           (st.observation ≠ 0 → obs = st.observation)) ∧
  (∀ (raw : ByConv (BitVec 12)) (s : State), s.running = true → s.enable = true →
     CompletesWith (.muPublication raw) s fun t =>
       let old := s.pub.band
       let new := t.pub.band
       let shape (st : GearStep) : StepKind × List Clutch × List Clutch × Conf := (st.kind, st.on, st.off, st.result)
       (∀ st rest, s.sq.queue = st :: rest → st.phase = some .sync → st.decel = true → new = old →
         let stands : Prop := ∃ w, t.pub.wheel = some w ∧ w < 5
         (stands →
           (∃ st', t.sq.queue = st' :: rest ∧
             st' = { st with decel := false, syncStart := st'.syncStart, observable := st'.observable,
                             observation := st'.observation } ∧
             (new = .released → st'.syncStart = some t.now) ∧
             (new ≠ .released → (∃ c ∈ st.on, c = .cf ∨ c = .cr) → st'.syncStart = none)) ∧
           t.sq.flags = { s.sq.flags with assistWindow := false }) ∧
         (¬ stands → (∃ st', t.sq.queue = st' :: rest ∧ st'.decel = true ∧ st'.phase = some .sync) ∧
           t.sq.flags = s.sq.flags)) ∧
       (∀ d, s.sq.queue = [] → old = .released → new = .modulating → s.sq.engaged = some d ∨ s.sq.loose = some d →
         s.sq.syncDir = none ∨ s.sq.loose = some d →
         t.sq.queue = [] ∧ t.sq.looseSync = none ∧ (t.sq.clutch.get d.clutch).ramp = none ∧
         ∀ c, t.sq.state c = if c = d.clutch then .sync else s.sq.state c) ∧
       (∀ d, s.sq.queue = [] → old = .modulating → new = .released → s.sq.loose = some d →
         t.sq.queue = [] ∧ t.sq.looseSync = some t.now ∧ ∀ c, t.sq.state c = s.sq.state c) ∧
       (∀ d st rest, s.sq.queue = st :: rest → s.sq.stepSync d.clutch = some st → s.sq.syncDir = some d →
         st.decel = false →
         (old = .released → new ≠ .released →
           (t.sq.clutch.get d.clutch).ramp = none ∧ t.sq.state d.clutch = .sync ∧
           ∃ st' rest', t.sq.queue = st' :: rest' ∧ st'.syncStart = none ∧ shape st' = shape st) ∧
         (old ≠ .released → new = .released →
           t.sq.state d.clutch = .sync ∧
           ∃ st' rest', t.sq.queue = st' :: rest' ∧ st'.syncStart = some t.now ∧ shape st' = shape st)) ∧
       (old = .pressed ∧ new ≠ .pressed ∨ old ≠ .pressed ∧ new = .pressed → s.sq.dirsOpen = false →
         s.sq.wish.1 ≠ none → s.QueueForm →
         (s.sq.started = none → t.sq.queue.map shape = ((s.sq.plan new s.sq.box).take 4).map shape) ∧
         ∀ st, s.sq.started = some st → st.kind = .free →
           (old = .pressed → st.phase = some .flowWait ∨ st.phase = some .fill ∨ st.phase = some .hold →
             let q := if st.phase = some .flowWait then s.sq else s.sq.enterAll st.on .opened
             t.sq.queue.map shape = ((q.plan new q.box).take 4).map shape) ∧
           (st.phase = some .rampOn →
             t.sq.queue.map shape = ((st :: s.sq.plan new st.result).take 4).map shape))) ∧
  (∀ (s : State) (st : GearStep) (d : Dir), s.sq.queue = [st] → st.phase = some .sync → s.pub.band ≠ .released →
     let q := s.sq.enterAll st.on .locked
     q.engaged = some d → q.plan s.pub.band q.box = [] →
     let ended (t : State) : Prop :=
       t.sq.queue = [] ∧ t.sq.looseSync = none ∧ t.sq.flags = .clear ∧
       ∀ c, t.sq.state c = if c = d.clutch then .sync else if c ∈ st.on then .locked else s.sq.state c
     (s.rampsDone st.on = true → CompletesWith (.lockRampEnd .step) s ended) ∧
     (s.syncDue st.on st.syncStart = true → CompletesWith (.syncLimitExpiry .step) s ended)) ∧
  ∀ (s : State) (st : GearStep) (rest : List GearStep) (c : Clutch) (on : List Clutch), s.sq.queue = st :: rest →
    st.phase = some .sync → st.on = c :: on →
    let r := s.sq.clutch.get c
    (s.rampsDone st.on = true →
      CompletesWith (.lockRampEnd .step) s fun t =>
        (st.observable = true →
          (st.observation ≠ 0 → st.observation = r.trend →
            (t.sq.clutch.get c).trend = 0 ∧
            (t.sq.clutch.get c).fillOffset = max (-64) (min 64 (r.fillOffset + 4 * st.observation))) ∧
          (st.observation = 0 ∨ st.observation ≠ r.trend →
            (t.sq.clutch.get c).trend = st.observation ∧ (t.sq.clutch.get c).fillOffset = r.fillOffset)) ∧
        ∀ x, x ≠ c ∨ st.observable = false →
          (t.sq.clutch.get x).trend = (s.sq.clutch.get x).trend ∧
          (t.sq.clutch.get x).fillOffset = (s.sq.clutch.get x).fillOffset) ∧
    (s.syncDue st.on st.syncStart = true →
      CompletesWith (.syncLimitExpiry .step) s fun t =>
        ∀ x, (t.sq.clutch.get x).trend = (s.sq.clutch.get x).trend ∧
          (t.sq.clutch.get x).fillOffset = (s.sq.clutch.get x).fillOffset)

/-- The up and down timers of AUTO move the target by one within the band; at its end the target stays and the refusal stands.
(When they run is said by PublicationSamples; a hand-over discards them, as PlanLeadsToTheWish says.) A cooling step: the heat
of every clutch falls by cool_rate, stopping at 0, and the HOT flag follows its limits. -/
def Obligations.GearTimersRunOut : Prop :=
  (∀ (r : Run) (s : State), r.out = false →
     (s.sq.up = some r → 1000 ≤ elapsed s.now r.start →
       CompletesWith .upTimerExpiry s fun t =>
         t.sq.autoTarget =
           (if s.sq.autoTarget < takenField s.sq.taken 4 then s.sq.autoTarget + 1 else s.sq.autoTarget) ∧
         (takenField s.sq.taken 4 ≤ s.sq.autoTarget → s.seqState = .drive → s.wantsUp = true → t.sq.refusalUp = true) ∧
         t.sq.taken = s.sq.taken ∧ t.fu = s.fu ∧ t.cs = s.cs ∧ t.now = s.now) ∧
     (s.sq.down = some r → 500 ≤ elapsed s.now r.start →
       CompletesWith .downTimerExpiry s fun t =>
         t.sq.autoTarget =
           (if takenField s.sq.taken 3 < s.sq.autoTarget then s.sq.autoTarget - 1 else s.sq.autoTarget) ∧
         (s.sq.autoTarget ≤ takenField s.sq.taken 3 → s.seqState = .drive → s.wantsDown = true →
           t.sq.refusalDown = true) ∧
         t.sq.taken = s.sq.taken ∧ t.fu = s.fu ∧ t.cs = s.cs ∧ t.now = s.now)) ∧
  (∀ s : State, CompletesWith .coolingStep s fun t =>
     (∀ c,
       let heat := (s.sq.clutch.get c).heat - itemNat s.items 20 4
       let hot := (s.sq.clutch.get c).hot
       (t.sq.clutch.get c).heat = heat ∧
       (t.sq.clutch.get c).hot =
         (if hot = false ∧ itemNat s.items 20 2 ≤ heat then true
          else if hot = true ∧ heat ≤ itemNat s.items 20 3 then false else hot)) ∧
     (∀ k, k ≠ .clutchHot → t.fu.entry.get k = s.fu.entry.get k) ∧ t.cs = s.cs ∧ t.inputs = s.inputs ∧
     t.mu.conv = s.mu.conv ∧ t.mu.pub = s.mu.pub ∧ t.now = s.now)

/-! Axle. -/

/-- The timers of the axle: the slip latch is set and cleared, the fill ends in RELEASED with its grant given back, and the
settle ends in ENGAGED unless a release begins in the same event. The slip trim moves by 10 per mille: up at the excess timer
and at each step while the slip is over the limit, down at each step while it is not, between 0 and 200; whether the upper limit
clamp applies waits for the next publication (the model's reading, log 55). The deviation timer of TRANSPORT starts a correction
against the deviation; a raise that SUPPLY_LOW with action DEGRADE holds back leaves the motion IDLE (the model's reading, log
20). The AXLE order's wish by mode, and the wanted state; a publication starts, keeps and discards the slip latch's timers, and
the coupling follows; so it does at a hand-over, where an engagement comes at once. -/
def Obligations.AxleAndHitchTimersRunOut : Prop :=
  (∀ (r : Run) (s : State), r.out = false →
     (s.acu.setTimer = some r → 300 ≤ elapsed s.now r.start →
       CompletesWith .setTimerExpiry s fun t =>
         t.acu.latch = true ∧ t.acu.setTimer = none ∧
         ∃ u, JobOnly s u ∧ SettleOnly u t) ∧
     (s.acu.clearTimer = some r → 2000 ≤ elapsed s.now r.start →
       CompletesWith .clearTimerExpiry s fun t =>
         t.acu.latch = false ∧ t.acu.clearTimer = none ∧
         ∃ u, JobOnly s u ∧ SettleOnly u t) ∧
     (s.acu.fill = some r → axleFillTime s.items ≤ elapsed s.now r.start → s.acu.coupling = .releasing →
       CompletesWith .axleFillEnd s fun t =>
         t.acu.coupling = .released ∧ t.acu.fill = none ∧ t.flow.axle.state = .idle ∧
         ∃ u, JobOnly s u ∧ SettleOnly u t) ∧
     (s.acu.settle = some r → settleTime s.items ≤ elapsed s.now r.start → s.acu.coupling = .engaging →
       CompletesWith .settleEnd s fun t =>
         let begins : Bool := s.running && s.acuWantsReleased && !s.sq.flags.releaseDeferral
         t.acu.settle = none ∧ (begins = false → t.acu.coupling = .engaged) ∧
         (begins = true → t.acu.coupling = .releaseWait ∨ t.acu.coupling = .releasing) ∧
         ∃ u, JobOnly s u ∧ SettleOnly u t)) ∧
  ((∀ (r : Run) (s : State), r.out = false →
      let up := min 200 (s.hr.trim + 10)
      let down := s.hr.trim - 10
      (s.hr.excess = some r → 500 ≤ elapsed s.now r.start →
        CompletesWith .excessTimerExpiry s fun t =>
          SettleOnly
            { s with
              hr := { s.hr with
                excess := some ⟨r.start, true⟩, trim := up, step := if up = 200 then none else some ⟨s.now, false⟩ } } t) ∧
      (s.hr.step = some r → 100 ≤ elapsed s.now r.start → s.hr.exceeds = true →
        CompletesWith .stepTimerExpiry s fun t =>
          SettleOnly
            { s with hr := { s.hr with trim := up, step := if up = 200 then none else some ⟨s.now, false⟩ } } t) ∧
      (s.hr.step = some r → 100 ≤ elapsed s.now r.start → s.hr.exceeds = false →
        CompletesWith .stepTimerExpiry s fun t =>
          SettleOnly
            { s with hr := { s.hr with trim := down, step := if down = 0 then none else some ⟨s.now, false⟩ } } t)) ∧
   (∀ (r : Run) (s : State), s.hr.deviation = some r → r.out = false → 200 ≤ elapsed s.now r.start →
      s.hr.mode = .transport → s.hr.motion = .idle →
      let d := s.hr.deviationAt (s.pub.position.getD 0)
      CompletesWith .deviationTimerExpiry s fun t =>
        (d < 0 → s.supplyDegrade = false → t.hr.motion = .raise ∧ t.hr.error = -d ∧ t.hr.deviation = none) ∧
        (d < 0 → s.supplyDegrade = true → t.hr.motion = .idle ∧ t.hr.blocked = true) ∧
        (0 ≤ d → t.hr.motion = .lower ∧ t.hr.error = -d ∧ t.hr.deviation = none) ∧
        t.hr.transportPos = s.hr.transportPos ∧ ∃ u, JobOnly s u ∧ SettleOnly u t)) ∧
  (∀ s : State,
     let f (i : Nat) : Nat := takenField s.acu.taken i
     (s.acuWishReleased = true ↔
       f 0 = 1 ∨
         f 0 = 2 ∧ ∃ g, s.pub.ground = some g ∧
           (s.pub.slip ≠ none → ¬ (g ≤ f 1 ∧ s.acu.latch = true)) ∧ (s.pub.slip = none → f 1 < g)) ∧
     (s.acuDegraded = true ↔
       s.latched .axleMismatch = true ∧ s.action .axleMismatch = .degrade ∨ s.acu.openMark = true ∨
         s.acu.shortMark = true) ∧
     (s.acuWantsReleased = true ↔ s.acuWishReleased = true ∧ s.acuDegraded = false ∧ s.enable = true)) ∧
  (∀ (raw : ByConv (BitVec 12)) (s : State), s.running = true →
     CompletesWith (.muPublication raw) s fun t =>
       let a := s.acu
       let f (i : Nat) : Nat := takenField a.taken i
       t.acu.taken = a.taken ∧
       (f 0 ≠ 2 → t.acu.latch = a.latch ∧ t.acu.setTimer = a.setTimer ∧ t.acu.clearTimer = a.clearTimer) ∧
       (f 0 = 2 → t.pub.slip = none → t.acu.latch = false ∧ t.acu.setTimer = none ∧ t.acu.clearTimer = none) ∧
       (∀ v, f 0 = 2 → t.pub.slip = some v →
         t.acu.latch = a.latch ∧
         t.acu.setTimer =
           (if s.pub.slip ≠ none ∧ a.latch = false ∧ f 2 ≤ v then some (a.setTimer.getD ⟨t.now, false⟩) else none) ∧
         t.acu.clearTimer =
           (if s.pub.slip ≠ none ∧ a.latch = true ∧ v < f 3 then some (a.clearTimer.getD ⟨t.now, false⟩) else none)) ∧
       (t.acuWantsReleased = false → t.acu.coupling = .engaged ∨ t.acu.coupling = .engaging) ∧
       (t.acuWantsReleased = true → t.sq.flags.releaseDeferral = false → t.acu.coupling ≠ .engaged)) ∧
  ∀ s : State, s.running = true →
    let a := s.acu
    let t := s.acuTake
    let kept : Prop :=
      takenField a.taken 0 = 2 ∧ takenField t.acu.taken 0 = 2 ∧
        a.taken.map Taken.handle = t.acu.taken.map Taken.handle
    t.acu.taken = s.takenNow .axle ∧ t.acu.setTimer = none ∧ t.acu.clearTimer = none ∧
    (t.acu.latch = true ↔ a.latch = true ∧ kept) ∧
    (t.acuWantsReleased = false →
      match a.coupling with
      | .engaged | .engaging => t.acu.coupling = a.coupling ∧ t.acu.settle = a.settle ∧ t.flow = s.flow
      | .releaseWait => t.acu.coupling = .engaged ∧ t.flow.axle.state = .idle
      | .releasing =>
        t.acu.coupling = .engaging ∧ t.acu.fill = none ∧ t.acu.settle = some ⟨s.now, false⟩ ∧ t.flow.axle.state = .idle
      | .released => t.acu.coupling = .engaging ∧ t.acu.settle = some ⟨s.now, false⟩) ∧
    (t.acuWantsReleased = true →
      match a.coupling with
      | .engaged =>
        if s.sq.flags.releaseDeferral then t.acu.coupling = .engaged
        else
          (t.acu.coupling = .releaseWait ∨ t.acu.coupling = .releasing) ∧
            t.flow.axle.asked = itemNat s.items 11 0 ∧ t.flow.axle.state ≠ .idle
      | .releaseWait =>
        if s.sq.flags.releaseDeferral then t.acu.coupling = .engaged ∧ t.flow.axle.state = .idle
        else t.acu.coupling = .releaseWait
      | .releasing | .released | .engaging => t.acu.coupling = a.coupling ∧ t.acu.settle = a.settle)

/-- The regulator mode: HOLD exactly while one of its conditions holds (none taken counts as one), with what entering and
leaving it does to the hold position, the motion and the asked lift. The hitch at a publication in RUN and at a hand-over,
outside HOLD and TRANSPORT: control error, upper limit clamp, motion, asked lift and mode; and the rate ceiling of a lowering
that begins or goes on. (The position 100 ms before is the newest record that is 100 ms old; the descent rate is compared with
drop_rate exactly, which is the model's reading, log 34. A draft lost in a freeze stays lost until the flag clears: the
model's choice, log 62.) In TRANSPORT: the deviation timer, a correction that goes on or ends, and a raise held back that is
tried again (log 20). The stall timer runs while a raise has a grant and starts afresh with each rise of 5 per mille. The
excess and step timers of the slip trim at a publication and at a hand-over. A hand-over takes the order, the hold position of
a different order in mode HOLD, and the transport position of TRANSPORT; it keeps trim and frozen draft. (A rise of the trim
stops at a hand-over: the model's choice, log 42. Entering HOLD discards the deviation timer: log 41. TRANSPORT in HOLD counts
by its mode field, and the error that stands in HOLD: log 32.) -/
def Obligations.HitchControlLaw : Prop :=
  let holds (s : State) : Prop :=
    s.running = false ∨ s.enable = false ∨ s.hr.stallMark = true ∨ s.hr.openMark = true ∨ s.hr.shortMark = true ∨
      s.pub.position = none ∨ s.hr.taken = none ∨ takenField s.hr.taken 0 = 4 ∧ takenSlot s.hr.taken ≠ 2
  let exceeded (s : State) : Prop :=
    takenField s.hr.taken 6 ≠ 0 ∧ ∃ v, s.pub.slip = some v ∧ takenField s.hr.taken 6 < v
  let regulates (t : State) (p : Nat) : Prop :=
    let h := t.hr
    let f (i : Nat) : Int := takenField h.taken i
    let draft : Option Int :=
      if t.sq.flags.draftFreeze then (if h.frozenLost then none else some (h.frozen.getD 0)) else t.pub.draft
    let mode := if (f 0 = 1 ∨ f 0 = 2) ∧ draft = none then 0 else f 0
    let effective := min (f 1 + h.trim) (f 5)
    let ePos := effective - p
    let eDraft := ((itemNat t.items 21 0 : Int) * (draft.getD 0 - f 2)).tdiv 10 + h.trim
    let e := max (-1000) (min 1000 (
      if mode = 1 then eDraft
      else if mode = 2 then (f 3 * eDraft + (100 - f 3) * ePos).tdiv 100
      else if mode = 3 then f 5 - p
      else ePos))
    let used :=
      if mode = 3 then e
      else if f 5 + 5 < p then f 5 - p
      else if f 5 - 5 ≤ p ∧ 0 < e then 0 else e
    h.error = used ∧
    (h.clamp = true ↔ ((mode = 0 ∨ mode = 2) ∧ effective < f 1 + h.trim) ∨ used ≠ e) ∧
    h.motion =
      (if 5 < used then (if t.supplyDegrade then .idle else .raise) else if used < -5 then .lower else .idle) ∧
    (h.blocked = true ↔ 5 < used ∧ t.supplyDegrade = true) ∧
    h.asked = (if h.motion = .raise then max 1 (min (itemNat t.items 12 3) ((used.natAbs + 24) / 25)) else 0) ∧
    t.flow.liftAsked = h.asked ∧ h.granted = t.flow.liftGranted ∧
    h.mode = (if h.motion = .raise ∧ h.granted = 0 then .liftWait else .regulating) ∧
    (h.motion ≠ .lower → h.ceiling = 0 ∧ h.positions = [])
  let rests (t : State) : Prop := t.hr.motion = .idle ∧ t.hr.asked = 0 ∧ t.flow.liftAsked = 0
  (∀ (raw : ByConv (BitVec 12)) (s : State), s.running = true →
    CompletesWith (.muPublication raw) s fun t =>
      let h := t.hr
      (h.mode = .hold ↔ holds t) ∧
      (holds t → s.hr.mode ≠ .hold →
        rests t ∧ h.error = 0 ∧ h.holdPos = t.pub.position ∧ h.deviation = none ∧ h.transportPos = s.hr.transportPos) ∧
      (holds t → s.hr.mode = .hold → h.motion = s.hr.motion ∧ h.holdPos = s.hr.holdPos) ∧
      (¬ holds t → s.hr.mode = .hold → h.holdPos = none) ∧
      (¬ holds t → s.hr.mode = .hold → takenSlot h.taken = 2 → s.hr.deviation = none → ∀ p : Nat, t.pub.position = some p →
        let q := s.hr.transportPos.getD p
        rests t ∧ h.mode = .transport ∧ h.transportPos = some q ∧
          h.deviation = if 15 < ((p : Int) - q).natAbs then some ⟨t.now, false⟩ else none) ∧
      h.trim = s.hr.trim ∧ (h.exceeds = true ↔ exceeded t) ∧
      (exceeded t →
        h.excess = some (s.hr.excess.getD ⟨t.now, false⟩) ∧ h.step = if s.hr.exceeds then s.hr.step else none) ∧
      (¬ exceeded t → s.hr.exceeds = true →
        h.excess = none ∧ h.step = if 0 < s.hr.trim then some ⟨t.now, false⟩ else none) ∧
      (¬ exceeded t → s.hr.exceeds = false → h.excess = s.hr.excess ∧ h.step = s.hr.step) ∧
      (h.mode ≠ .hold → takenSlot h.taken ≠ 2 → ∀ p : Nat, t.pub.position = some p →
        let f (i : Nat) : Int := takenField h.taken i
        regulates t p ∧
        (h.motion = .lower → s.hr.motion ≠ .lower → h.ceiling = itemNat s.items 21 3 ∧ h.positions = [(t.now, p)]) ∧
        (h.motion = .lower → s.hr.motion = .lower →
          let fast : Prop :=
            ∃ at0 p0,
              ((s.hr.positions.find? fun r => 100 ≤ elapsed t.now r.1) = some (at0, p0) ∨
                (∀ r ∈ s.hr.positions, elapsed t.now r.1 < 100) ∧ s.hr.positions.getLast? = some (at0, p0)) ∧
              0 < elapsed t.now at0 ∧ (f 4) * elapsed t.now at0 < ((p0 : Int) - p) * 1000
          (fast → h.ceiling = s.hr.ceiling - 5) ∧
          (¬ fast → h.ceiling = min (itemNat s.items 21 5) (s.hr.ceiling + 1)) ∧
          h.positions = (t.now, p) :: s.hr.positions.filter fun r => elapsed t.now r.1 < 100) ∧
          let stood : Prop := t.hr.motion = .raise ∧ 0 < t.hr.granted
          let fresh : Option StallRun := some ⟨⟨t.now, false⟩, p⟩
          (¬ stood → h.stall = none ∧ h.stallActive = none) ∧ (stood → s.hr.stall = none → h.stall = fresh) ∧
          ∀ r, stood → s.hr.stall = some r →
            (r.run.out = false ∧ r.position + 5 ≤ p → h.stall = fresh) ∧
            (¬ (r.run.out = false ∧ r.position + 5 ≤ p) → h.stall = some r ∨ h.stall = fresh))) ∧
  (∀ s : State,
     let a := s.hr
     let t := s.hrTake
     let h := t.hr
     let slot := takenSlot h.taken
     let other : Prop := a.taken.map Taken.handle ≠ h.taken.map Taken.handle
     h.taken = s.takenNow .hitch ∧ h.trim = a.trim ∧ h.excess = none ∧ h.frozen = a.frozen ∧
     (a.exceeds = true → exceeded t → h.exceeds = true ∧ h.step = none) ∧
     (a.exceeds = true → ¬ exceeded t →
       h.exceeds = false ∧ h.step = if 0 < a.trim then some ⟨s.now, false⟩ else none) ∧
     (a.exceeds = false → h.exceeds = false ∧ h.step = a.step) ∧
     (slot ≠ 2 → h.transportPos = none ∧ h.deviation = none) ∧
     (slot = 2 → takenSlot a.taken ≠ 2 → h.transportPos = s.pub.position ∧ h.deviation = none) ∧
     (slot = 2 → takenSlot a.taken = 2 → ∀ q, a.transportPos = some q → h.transportPos = some q) ∧
     (h.mode = .hold ↔ holds t) ∧
     (holds t → a.mode ≠ .hold → rests t ∧ h.error = 0 ∧ h.holdPos = s.pub.position) ∧
     (holds t → a.mode = .hold →
       h.motion = a.motion ∧
       (other → takenField h.taken 0 = 4 → h.holdPos = s.pub.position) ∧
       (¬ (other ∧ takenField h.taken 0 = 4) → h.holdPos = a.holdPos)) ∧
     (¬ holds t → h.holdPos = none ∧
       ∀ p : Nat, s.pub.position = some p →
         (slot = 2 → rests t ∧ h.mode = .transport ∧ h.clamp = false ∧ h.blocked = false) ∧
         (slot ≠ 2 →
           regulates t p ∧
           (h.motion = .lower → a.motion ≠ .lower → h.ceiling = itemNat s.items 21 3 ∧ h.positions = [(s.now, p)]) ∧
           (h.motion = .lower → a.motion = .lower → h.ceiling = a.ceiling ∧ h.positions = a.positions)))) ∧
  (∀ s : State,
     let t := s.hrSync
     let stood : Prop := s.hr.motion = .raise ∧ 0 < s.flow.liftGranted
     t.hr.granted = s.flow.liftGranted ∧
     (stood →
       t.hr.stall = some (s.hr.stall.getD ⟨⟨s.now, false⟩, s.pub.position.getD 0⟩) ∧
       t.hr.stallActive = s.hr.stallActive) ∧
     (¬ stood → t.hr.stall = none ∧ t.hr.stallActive = none)) ∧
  (∀ (h : Hr) (now : Time) (p : Nat),
     let h' := h.stallPublish now p
     (h.stall = none → h'.stall = none) ∧
     (∀ r, h.stall = some r →
       h'.stall = if r.run.out = false ∧ r.position + 5 ≤ p then some ⟨⟨now, false⟩, p⟩ else some r) ∧
     (h.stallActive = none → h'.stallActive = none) ∧
     (∀ q, h.stallActive = some q → h'.stallActive = if q + 5 ≤ p then none else some q)) ∧
  ∀ (raw : ByConv (BitVec 12)) (s : State) (q : Nat), s.running = true → s.hr.mode ≠ .hold →
    takenSlot s.hr.taken = 2 → s.hr.transportPos = some q →
    CompletesWith (.muPublication raw) s fun t =>
      let h := t.hr
      h.mode ≠ .hold → ∀ p : Nat, t.pub.position = some p →
      let d : Int := (p : Int) - q
      let was : Motion := if s.hr.motion = .raise ∧ t.supplyDegrade = true then .idle else s.hr.motion
      let runs : Timer := if 15 < d.natAbs then some (s.hr.deviation.getD ⟨t.now, false⟩) else none
      let tried : Prop := ∃ r, runs = some r ∧ r.out = true
      h.transportPos = some q ∧
      (was = .idle → ¬ tried → h.motion = .idle ∧ h.deviation = runs ∧ h.blocked = false) ∧
      (was = .idle → tried → d < 0 → t.supplyDegrade = true → h.motion = .idle ∧ h.blocked = true) ∧
      (was = .idle → tried → 0 < d ∨ t.supplyDegrade = false →
        h.motion = (if d < 0 then .raise else .lower) ∧ h.error = -d ∧ h.deviation = none) ∧
      (was ≠ .idle → d.natAbs ≤ 5 → h.motion = .idle ∧ h.asked = 0) ∧
      (was ≠ .idle → 5 < d.natAbs → h.motion = was ∧ h.error = -d) ∧
      (h.motion = .raise →
        h.asked = max 1 (min (itemNat s.items 12 3) ((h.error.natAbs + 24) / 25)) ∧
        h.mode = if h.granted = 0 then .liftWait else .transport)

/-! Output stage. -/

/-- The current each unit commands on its channel: a clutch by its state and ramp, the axle by its coupling, the hitch valves
by the motion, the trailer by its state, law and demand, none of it in CONFIG at the trailer; and a period boundary, which
measures every channel's mean current, loads its pending setpoint, starts, keeps or discards its open-load timer, turns its
dither, and changes no trip latch, fault or order. The state of a channel by its rows, the target of its regulation and the
current it is regulated to, none before the first boundary in DRIVING (log 47); and the state of the trailer in CONFIG. A
fraction of a milliampere on a ramp, in a shuttle or under the pedal is rounded either way (free, log 11). A SHUTTLE step's
direction clutch in SYNC takes the pedal (R91 before R92, log 18); one in SYNC beside a started step takes its current outside
a step (the model's choice, log 59); in CONFIG the trailer law is that of the order last taken (log 44). -/
def Obligations.CommandedCurrents : Prop :=
  (∀ (mean : ByOut Word) (s : State),
     CompletesWith (.periodBoundary mean) s fun t =>
       (∀ ch,
         let r := s.os.get ch
         let r' := t.os.get ch
         let opens : Prop := s.outState ch = .driving ∧ 100 ≤ r.inForce ∧ (mean.get ch).toNat < 20
         r'.inForce = r.pending ∧ r'.measured = (mean.get ch).toNat ∧ r'.tripped = r.tripped ∧
         r'.pending = (if s.running then min 2000 (t.commanded ch) else r.pending) ∧
         r'.openTimer =
           (if t.outState ch = .driving ∧ opens then some (r.openTimer.getD ⟨s.now, false⟩) else none) ∧
         r'.regulating = decide (t.outState ch = .driving) ∧
         r'.ditherPositive =
           (if t.outState ch = .driving then !(r.regulating && r.ditherPositive) else r.ditherPositive)) ∧
       SettleOnly { s with os := t.os } t) ∧
  (∀ s : State,
     (∀ ch c, clutchOf ch = some c → ch.code = c.code ∧ s.commanded ch = (s.sq.clutch.get c).current) ∧
     (∀ c,
       let r := s.sq.clutch.get c
       let it := clutchItem s.items c
       let dir : Prop := c = .cf ∨ c = .cr
       (r.state = .opened → s.clutchCurrent c = 0) ∧ (r.state = .fill → s.clutchCurrent c = it.fillCurrent) ∧
       (r.state = .hold → s.clutchCurrent c = it.holdCurrent) ∧
       (r.state = .locked → s.clutchCurrent c = it.lockCurrent) ∧
       (∀ x, r.ramp = some x → r.state = .rampOn ∨ r.state = .rampOff ∨ r.state = .sync →
         let ms := elapsed s.now x.start
         (x.length ≤ ms → s.clutchCurrent c = x.last) ∧
         (ms < x.length →
           (x.first ≤ x.last →
             let rise := (x.last - x.first) * ms
             x.first + rise / x.length ≤ s.clutchCurrent c ∧ s.clutchCurrent c ≤ x.first + rise / x.length + 1 ∧
             (rise % x.length = 0 → s.clutchCurrent c = x.first + rise / x.length)) ∧
           (x.last < x.first →
             let fall := (x.first - x.last) * ms
             x.first - (fall / x.length + 1) ≤ s.clutchCurrent c ∧ s.clutchCurrent c ≤ x.first - fall / x.length ∧
             (fall % x.length = 0 → s.clutchCurrent c = x.first - fall / x.length)))) ∧
       (r.state = .sync → r.ramp = none →
         let pedal : Nat → Prop := fun i =>
           (s.pub.band = .pressed → i = 0) ∧
           (s.pub.band = .modulating →
             let x := it.lockCurrent * (900 - s.pub.pedal.getD 0)
             (x % 850 = 0 → i = x / 850) ∧ (i = x / 850 ∨ i = x / 850 + 1))
         let shuttle (response i : Nat) : Prop :=
           let x := it.syncCurrent * (3 + response)
           (x % 5 = 0 → i = min it.lockCurrent (x / 5)) ∧
           (i = min it.lockCurrent (x / 5) ∨ i = min it.lockCurrent (x / 5 + 1))
         (∀ st, s.sq.stepSync c = some st → st.decel = false → ¬ dir ∨ s.pub.band = .released →
           s.clutchCurrent c = it.syncCurrent) ∧
         (∀ st, s.sq.stepSync c = some st → st.decel = true → ¬ dir ∨ s.pub.band = .released →
           shuttle st.response (s.clutchCurrent c)) ∧
         (∀ st, s.sq.stepSync c = some st → dir → s.pub.band ≠ .released →
           ∃ i j, pedal i ∧ (if st.decel then shuttle st.response j else j = it.syncCurrent) ∧
             s.clutchCurrent c = min j i) ∧
         (s.sq.stepSync c = none → s.sq.freeStarted = true → s.clutchCurrent c = 0) ∧
         (s.sq.stepSync c = none → s.sq.freeStarted = false → s.pub.band = .released →
           s.clutchCurrent c = it.syncCurrent) ∧
         (s.sq.stepSync c = none → s.sq.freeStarted = false → s.pub.band ≠ .released → pedal (s.clutchCurrent c)))) ∧
     (s.acu.coupling = .releasing → s.commanded .oc9 = itemNat s.items 11 1) ∧
     (s.acu.coupling = .released → s.commanded .oc9 = itemNat s.items 11 3) ∧
     (s.acu.coupling ≠ .releasing → s.acu.coupling ≠ .released → s.commanded .oc9 = 0) ∧
     s.commanded .oc10 =
       (if s.hr.motion = .raise ∧ s.hr.granted ≠ 0 then
          min 2000 (itemNat s.items 21 1 + s.hr.granted * itemNat s.items 21 2)
        else 0) ∧
     s.commanded .oc11 =
       (if s.hr.motion = .lower then
          min (min (itemNat s.items 21 5) (itemNat s.items 21 3 + itemNat s.items 21 4 * s.hr.error.natAbs)) s.hr.ceiling
        else 0) ∧
     ∀ ch,
       let r := s.os.get ch
       let amplitude : Int := itemNat s.items 28 ch.code
       s.outState ch =
         (if r.tripped = true then .tripped
          else if s.enable = false then .gated
          else if s.running = false ∨ r.inForce = 0 then .off
          else .driving) ∧
       (s.target ch : Int) =
         max 0 (min 2000 (if r.ditherPositive then r.inForce + amplitude else r.inForce - amplitude)) ∧
       s.outputCurrent ch = (if s.outState ch = .driving ∧ r.regulating = true then s.target ch else 0)) ∧
  ∀ s : State,
    let f (i : Nat) := takenField s.tbu.taken i
    let release := itemNat s.items 22 1
    let full := itemNat s.items 22 2
    let law := min (f 3) (f 0 * itemNat s.items 22 0 * max (s.pub.brakeL.getD 0) (s.pub.brakeR.getD 0) / 10000)
    let state : TrailerState :=
      if s.governing .tbrake = some 3 then .emergency
      else if s.tbu.presence = false then .detached
      else if s.sq.flags.assistWindow = true ∧ f 1 = 1 then .assist
      else if 0 < law then .braking else .released
    s.tbuLaw = law ∧
    (s.running = false →
      s.commanded .oc12 = 0 ∧ s.tbuDemand = 0 ∧
      s.tbuState =
        (if s.governing .tbrake = some 3 then .emergency else if s.tbu.presence = false then .detached else .released)) ∧
    (s.running = true →
      s.tbuState = state ∧
      s.tbuDemand =
        (match state with
         | .emergency => max full law
         | .detached => 0
         | .assist => max law (f 2)
         | .braking => law
         | .released => 0) ∧
      s.commanded .oc12 =
        match state with
        | .emergency => 0
        | .detached => release
        | .released | .braking | .assist => release * (full - s.tbuDemand) / full)
end

