-- ==== Sys2Proof/Laws/Tables.lean ====
section
/-! SUPPORT. Reading a table after writing one entry of it. -/

namespace Sys2Proof

@[simp] theorem ByPort.get_set_self {α : Type} (t : ByPort α) (i : Port) (v : α) : (t.set i v).get i = v := by
  cases i <;> rfl

theorem ByPort.get_set {α : Type} (t : ByPort α) (i j : Port) (v : α) :
    (t.set i v).get j = if j = i then v else t.get j := by
  cases i <;> cases j <;> rfl

@[simp] theorem ByPort.get_tabulate {α : Type} (f : Port → α) (i : Port) : (ByPort.tabulate f).get i = f i := by
  cases i <;> rfl

@[simp] theorem BySpeed.get_set_self {α : Type} (t : BySpeed α) (i : SpeedCh) (v : α) : (t.set i v).get i = v := by
  cases i <;> rfl

theorem BySpeed.get_set {α : Type} (t : BySpeed α) (i j : SpeedCh) (v : α) :
    (t.set i v).get j = if j = i then v else t.get j := by
  cases i <;> cases j <;> rfl

@[simp] theorem BySpeed.get_tabulate {α : Type} (f : SpeedCh → α) (i : SpeedCh) : (BySpeed.tabulate f).get i = f i := by
  cases i <;> rfl

@[simp] theorem ByConv.get_set_self {α : Type} (t : ByConv α) (i : ConvCh) (v : α) : (t.set i v).get i = v := by
  cases i <;> rfl

theorem ByConv.get_set {α : Type} (t : ByConv α) (i j : ConvCh) (v : α) :
    (t.set i v).get j = if j = i then v else t.get j := by
  cases i <;> cases j <;> rfl

@[simp] theorem ByConv.get_tabulate {α : Type} (f : ConvCh → α) (i : ConvCh) : (ByConv.tabulate f).get i = f i := by
  cases i <;> rfl

@[simp] theorem ByClutch.get_set_self {α : Type} (t : ByClutch α) (i : Clutch) (v : α) : (t.set i v).get i = v := by
  cases i <;> rfl

theorem ByClutch.get_set {α : Type} (t : ByClutch α) (i j : Clutch) (v : α) :
    (t.set i v).get j = if j = i then v else t.get j := by
  cases i <;> cases j <;> rfl

@[simp] theorem ByClutch.get_tabulate {α : Type} (f : Clutch → α) (i : Clutch) : (ByClutch.tabulate f).get i = f i := by
  cases i <;> rfl

@[simp] theorem ByOut.get_set_self {α : Type} (t : ByOut α) (i : OutCh) (v : α) : (t.set i v).get i = v := by
  cases i <;> rfl

theorem ByOut.get_set {α : Type} (t : ByOut α) (i j : OutCh) (v : α) :
    (t.set i v).get j = if j = i then v else t.get j := by
  cases i <;> cases j <;> rfl

@[simp] theorem ByOut.get_tabulate {α : Type} (f : OutCh → α) (i : OutCh) : (ByOut.tabulate f).get i = f i := by
  cases i <;> rfl

@[simp] theorem ByChannel.get_set_self {α : Type} (t : ByChannel α) (i : Channel) (v : α) : (t.set i v).get i = v := by
  cases i <;> rfl

theorem ByChannel.get_set {α : Type} (t : ByChannel α) (i j : Channel) (v : α) :
    (t.set i v).get j = if j = i then v else t.get j := by
  cases i <;> cases j <;> rfl

@[simp] theorem ByChannel.get_tabulate {α : Type} (f : Channel → α) (i : Channel) : (ByChannel.tabulate f).get i = f i := by
  cases i <;> rfl

@[simp] theorem ByKind.get_set_self {α : Type} (t : ByKind α) (i : FaultKind) (v : α) : (t.set i v).get i = v := by
  cases i <;> rfl

theorem ByKind.get_set {α : Type} (t : ByKind α) (i j : FaultKind) (v : α) :
    (t.set i v).get j = if j = i then v else t.get j := by
  cases i <;> cases j <;> rfl

@[simp] theorem ByKind.get_tabulate {α : Type} (f : FaultKind → α) (i : FaultKind) : (ByKind.tabulate f).get i = f i := by
  cases i <;> rfl

end Sys2Proof
end

