-- ==== Sys2Proof/Laws/State.lean ====
section
/-! SUPPORT. One lemma per field per named update of State, and reading a port, a slot or a list after writing one. -/

namespace Sys2Proof.Machine

@[simp] theorem State.setPort_pending (s : State) (p : Port) (r : PortRec) :
    (s.setPort p r).pending = s.pending := rfl
@[simp] theorem State.setPort_inputs (s : State) (p : Port) (r : PortRec) : (s.setPort p r).inputs = s.inputs := rfl
@[simp] theorem State.setPort_cs (s : State) (p : Port) (r : PortRec) : (s.setPort p r).cs = s.cs := rfl
@[simp] theorem State.setPort_otu (s : State) (p : Port) (r : PortRec) : (s.setPort p r).otu = s.otu := rfl
@[simp] theorem State.setPort_lcu (s : State) (p : Port) (r : PortRec) : (s.setPort p r).lcu = s.lcu := rfl
@[simp] theorem State.setPort_mu (s : State) (p : Port) (r : PortRec) : (s.setPort p r).mu = s.mu := rfl
@[simp] theorem State.setPort_flow (s : State) (p : Port) (r : PortRec) : (s.setPort p r).flow = s.flow := rfl
@[simp] theorem State.setPort_sq (s : State) (p : Port) (r : PortRec) : (s.setPort p r).sq = s.sq := rfl
@[simp] theorem State.setPort_acu (s : State) (p : Port) (r : PortRec) : (s.setPort p r).acu = s.acu := rfl
@[simp] theorem State.setPort_hr (s : State) (p : Port) (r : PortRec) : (s.setPort p r).hr = s.hr := rfl
@[simp] theorem State.setPort_tbu (s : State) (p : Port) (r : PortRec) : (s.setPort p r).tbu = s.tbu := rfl
@[simp] theorem State.setPort_os (s : State) (p : Port) (r : PortRec) : (s.setPort p r).os = s.os := rfl
@[simp] theorem State.setPort_fu (s : State) (p : Port) (r : PortRec) : (s.setPort p r).fu = s.fu := rfl
@[simp] theorem State.setPort_rp (s : State) (p : Port) (r : PortRec) : (s.setPort p r).rp = s.rp.set p r := rfl

@[simp] theorem State.setSlot_pending (s : State) (k : Nat) (sl : Slot) : (s.setSlot k sl).pending = s.pending := rfl
@[simp] theorem State.setSlot_inputs (s : State) (k : Nat) (sl : Slot) : (s.setSlot k sl).inputs = s.inputs := rfl
@[simp] theorem State.setSlot_cs (s : State) (k : Nat) (sl : Slot) : (s.setSlot k sl).cs = s.cs := rfl
@[simp] theorem State.setSlot_otu (s : State) (k : Nat) (sl : Slot) :
    (s.setSlot k sl).otu = { s.otu with slots := s.otu.slots.set k sl } := rfl
@[simp] theorem State.setSlot_lcu (s : State) (k : Nat) (sl : Slot) : (s.setSlot k sl).lcu = s.lcu := rfl
@[simp] theorem State.setSlot_mu (s : State) (k : Nat) (sl : Slot) : (s.setSlot k sl).mu = s.mu := rfl
@[simp] theorem State.setSlot_flow (s : State) (k : Nat) (sl : Slot) : (s.setSlot k sl).flow = s.flow := rfl
@[simp] theorem State.setSlot_sq (s : State) (k : Nat) (sl : Slot) : (s.setSlot k sl).sq = s.sq := rfl
@[simp] theorem State.setSlot_acu (s : State) (k : Nat) (sl : Slot) : (s.setSlot k sl).acu = s.acu := rfl
@[simp] theorem State.setSlot_hr (s : State) (k : Nat) (sl : Slot) : (s.setSlot k sl).hr = s.hr := rfl
@[simp] theorem State.setSlot_tbu (s : State) (k : Nat) (sl : Slot) : (s.setSlot k sl).tbu = s.tbu := rfl
@[simp] theorem State.setSlot_os (s : State) (k : Nat) (sl : Slot) : (s.setSlot k sl).os = s.os := rfl
@[simp] theorem State.setSlot_fu (s : State) (k : Nat) (sl : Slot) : (s.setSlot k sl).fu = s.fu := rfl
@[simp] theorem State.setSlot_rp (s : State) (k : Nat) (sl : Slot) : (s.setSlot k sl).rp = s.rp := rfl

@[simp] theorem State.setOrder_pending (s : State) (k : Nat) (o : Order) : (s.setOrder k o).pending = s.pending := rfl
@[simp] theorem State.setOrder_inputs (s : State) (k : Nat) (o : Order) : (s.setOrder k o).inputs = s.inputs := rfl
@[simp] theorem State.setOrder_cs (s : State) (k : Nat) (o : Order) : (s.setOrder k o).cs = s.cs := rfl
@[simp] theorem State.setOrder_otu (s : State) (k : Nat) (o : Order) :
    (s.setOrder k o).otu = { s.otu with slots := s.otu.slots.set k ⟨s.incarnation k, some o⟩ } := rfl
@[simp] theorem State.setOrder_lcu (s : State) (k : Nat) (o : Order) : (s.setOrder k o).lcu = s.lcu := rfl
@[simp] theorem State.setOrder_mu (s : State) (k : Nat) (o : Order) : (s.setOrder k o).mu = s.mu := rfl
@[simp] theorem State.setOrder_flow (s : State) (k : Nat) (o : Order) : (s.setOrder k o).flow = s.flow := rfl
@[simp] theorem State.setOrder_sq (s : State) (k : Nat) (o : Order) : (s.setOrder k o).sq = s.sq := rfl
@[simp] theorem State.setOrder_acu (s : State) (k : Nat) (o : Order) : (s.setOrder k o).acu = s.acu := rfl
@[simp] theorem State.setOrder_hr (s : State) (k : Nat) (o : Order) : (s.setOrder k o).hr = s.hr := rfl
@[simp] theorem State.setOrder_tbu (s : State) (k : Nat) (o : Order) : (s.setOrder k o).tbu = s.tbu := rfl
@[simp] theorem State.setOrder_os (s : State) (k : Nat) (o : Order) : (s.setOrder k o).os = s.os := rfl
@[simp] theorem State.setOrder_fu (s : State) (k : Nat) (o : Order) : (s.setOrder k o).fu = s.fu := rfl
@[simp] theorem State.setOrder_rp (s : State) (k : Nat) (o : Order) : (s.setOrder k o).rp = s.rp := rfl

@[simp] theorem State.setList_pending (s : State) (ch : Channel) (l : List Nat) :
    (s.setList ch l).pending = s.pending := rfl
@[simp] theorem State.setList_inputs (s : State) (ch : Channel) (l : List Nat) :
    (s.setList ch l).inputs = s.inputs := rfl
@[simp] theorem State.setList_cs (s : State) (ch : Channel) (l : List Nat) : (s.setList ch l).cs = s.cs := rfl
@[simp] theorem State.setList_otu (s : State) (ch : Channel) (l : List Nat) :
    (s.setList ch l).otu = { s.otu with lists := s.otu.lists.set ch l } := rfl
@[simp] theorem State.setList_lcu (s : State) (ch : Channel) (l : List Nat) : (s.setList ch l).lcu = s.lcu := rfl
@[simp] theorem State.setList_mu (s : State) (ch : Channel) (l : List Nat) : (s.setList ch l).mu = s.mu := rfl
@[simp] theorem State.setList_flow (s : State) (ch : Channel) (l : List Nat) : (s.setList ch l).flow = s.flow := rfl
@[simp] theorem State.setList_sq (s : State) (ch : Channel) (l : List Nat) : (s.setList ch l).sq = s.sq := rfl
@[simp] theorem State.setList_acu (s : State) (ch : Channel) (l : List Nat) : (s.setList ch l).acu = s.acu := rfl
@[simp] theorem State.setList_hr (s : State) (ch : Channel) (l : List Nat) : (s.setList ch l).hr = s.hr := rfl
@[simp] theorem State.setList_tbu (s : State) (ch : Channel) (l : List Nat) : (s.setList ch l).tbu = s.tbu := rfl
@[simp] theorem State.setList_os (s : State) (ch : Channel) (l : List Nat) : (s.setList ch l).os = s.os := rfl
@[simp] theorem State.setList_fu (s : State) (ch : Channel) (l : List Nat) : (s.setList ch l).fu = s.fu := rfl
@[simp] theorem State.setList_rp (s : State) (ch : Channel) (l : List Nat) : (s.setList ch l).rp = s.rp := rfl

@[simp] theorem State.setLive_pending (s : State) (p : Port) (n : Nat) : (s.setLive p n).pending = s.pending := rfl
@[simp] theorem State.setLive_inputs (s : State) (p : Port) (n : Nat) : (s.setLive p n).inputs = s.inputs := rfl
@[simp] theorem State.setLive_cs (s : State) (p : Port) (n : Nat) : (s.setLive p n).cs = s.cs := rfl
@[simp] theorem State.setLive_otu (s : State) (p : Port) (n : Nat) :
    (s.setLive p n).otu = { s.otu with live := s.otu.live.set p n } := rfl
@[simp] theorem State.setLive_lcu (s : State) (p : Port) (n : Nat) : (s.setLive p n).lcu = s.lcu := rfl
@[simp] theorem State.setLive_mu (s : State) (p : Port) (n : Nat) : (s.setLive p n).mu = s.mu := rfl
@[simp] theorem State.setLive_flow (s : State) (p : Port) (n : Nat) : (s.setLive p n).flow = s.flow := rfl
@[simp] theorem State.setLive_sq (s : State) (p : Port) (n : Nat) : (s.setLive p n).sq = s.sq := rfl
@[simp] theorem State.setLive_acu (s : State) (p : Port) (n : Nat) : (s.setLive p n).acu = s.acu := rfl
@[simp] theorem State.setLive_hr (s : State) (p : Port) (n : Nat) : (s.setLive p n).hr = s.hr := rfl
@[simp] theorem State.setLive_tbu (s : State) (p : Port) (n : Nat) : (s.setLive p n).tbu = s.tbu := rfl
@[simp] theorem State.setLive_os (s : State) (p : Port) (n : Nat) : (s.setLive p n).os = s.os := rfl
@[simp] theorem State.setLive_fu (s : State) (p : Port) (n : Nat) : (s.setLive p n).fu = s.fu := rfl
@[simp] theorem State.setLive_rp (s : State) (p : Port) (n : Nat) : (s.setLive p n).rp = s.rp := rfl

@[simp] theorem State.setTiming_pending (s : State) (ch : SpeedCh) (t : SpeedTiming) :
    (s.setTiming ch t).pending = s.pending := rfl
@[simp] theorem State.setTiming_inputs (s : State) (ch : SpeedCh) (t : SpeedTiming) :
    (s.setTiming ch t).inputs = s.inputs := rfl
@[simp] theorem State.setTiming_cs (s : State) (ch : SpeedCh) (t : SpeedTiming) : (s.setTiming ch t).cs = s.cs := rfl
@[simp] theorem State.setTiming_otu (s : State) (ch : SpeedCh) (t : SpeedTiming) :
    (s.setTiming ch t).otu = s.otu := rfl
@[simp] theorem State.setTiming_lcu (s : State) (ch : SpeedCh) (t : SpeedTiming) :
    (s.setTiming ch t).lcu = s.lcu := rfl
@[simp] theorem State.setTiming_mu (s : State) (ch : SpeedCh) (t : SpeedTiming) :
    (s.setTiming ch t).mu = { s.mu with speed := s.mu.speed.set ch { s.mu.speed.get ch with timing := t } } := rfl
@[simp] theorem State.setTiming_flow (s : State) (ch : SpeedCh) (t : SpeedTiming) :
    (s.setTiming ch t).flow = s.flow := rfl
@[simp] theorem State.setTiming_sq (s : State) (ch : SpeedCh) (t : SpeedTiming) : (s.setTiming ch t).sq = s.sq := rfl
@[simp] theorem State.setTiming_acu (s : State) (ch : SpeedCh) (t : SpeedTiming) :
    (s.setTiming ch t).acu = s.acu := rfl
@[simp] theorem State.setTiming_hr (s : State) (ch : SpeedCh) (t : SpeedTiming) : (s.setTiming ch t).hr = s.hr := rfl
@[simp] theorem State.setTiming_tbu (s : State) (ch : SpeedCh) (t : SpeedTiming) :
    (s.setTiming ch t).tbu = s.tbu := rfl
@[simp] theorem State.setTiming_os (s : State) (ch : SpeedCh) (t : SpeedTiming) : (s.setTiming ch t).os = s.os := rfl
@[simp] theorem State.setTiming_fu (s : State) (ch : SpeedCh) (t : SpeedTiming) : (s.setTiming ch t).fu = s.fu := rfl
@[simp] theorem State.setTiming_rp (s : State) (ch : SpeedCh) (t : SpeedTiming) : (s.setTiming ch t).rp = s.rp := rfl

@[simp] theorem State.acuCoupling_pending (s : State) (c : Coupling) : (s.acuCoupling c).pending = s.pending := rfl
@[simp] theorem State.acuCoupling_inputs (s : State) (c : Coupling) : (s.acuCoupling c).inputs = s.inputs := rfl
@[simp] theorem State.acuCoupling_cs (s : State) (c : Coupling) : (s.acuCoupling c).cs = s.cs := rfl
@[simp] theorem State.acuCoupling_otu (s : State) (c : Coupling) : (s.acuCoupling c).otu = s.otu := rfl
@[simp] theorem State.acuCoupling_lcu (s : State) (c : Coupling) : (s.acuCoupling c).lcu = s.lcu := rfl
@[simp] theorem State.acuCoupling_mu (s : State) (c : Coupling) : (s.acuCoupling c).mu = s.mu := rfl
@[simp] theorem State.acuCoupling_flow (s : State) (c : Coupling) : (s.acuCoupling c).flow = s.flow := rfl
@[simp] theorem State.acuCoupling_sq (s : State) (c : Coupling) : (s.acuCoupling c).sq = s.sq := rfl
@[simp] theorem State.acuCoupling_acu (s : State) (c : Coupling) :
    (s.acuCoupling c).acu = { s.acu with coupling := c } := rfl
@[simp] theorem State.acuCoupling_hr (s : State) (c : Coupling) : (s.acuCoupling c).hr = s.hr := rfl
@[simp] theorem State.acuCoupling_tbu (s : State) (c : Coupling) : (s.acuCoupling c).tbu = s.tbu := rfl
@[simp] theorem State.acuCoupling_os (s : State) (c : Coupling) : (s.acuCoupling c).os = s.os := rfl
@[simp] theorem State.acuCoupling_fu (s : State) (c : Coupling) : (s.acuCoupling c).fu = s.fu := rfl
@[simp] theorem State.acuCoupling_rp (s : State) (c : Coupling) : (s.acuCoupling c).rp = s.rp := rfl

@[simp] theorem State.setHead_pending (s : State) (st : GearStep) : (s.setHead st).pending = s.pending := rfl
@[simp] theorem State.setHead_inputs (s : State) (st : GearStep) : (s.setHead st).inputs = s.inputs := rfl
@[simp] theorem State.setHead_cs (s : State) (st : GearStep) : (s.setHead st).cs = s.cs := rfl
@[simp] theorem State.setHead_otu (s : State) (st : GearStep) : (s.setHead st).otu = s.otu := rfl
@[simp] theorem State.setHead_lcu (s : State) (st : GearStep) : (s.setHead st).lcu = s.lcu := rfl
@[simp] theorem State.setHead_mu (s : State) (st : GearStep) : (s.setHead st).mu = s.mu := rfl
@[simp] theorem State.setHead_flow (s : State) (st : GearStep) : (s.setHead st).flow = s.flow := rfl
@[simp] theorem State.setHead_sq (s : State) (st : GearStep) :
    (s.setHead st).sq = { s.sq with queue := st :: s.sq.queue.tail } := rfl
@[simp] theorem State.setHead_acu (s : State) (st : GearStep) : (s.setHead st).acu = s.acu := rfl
@[simp] theorem State.setHead_hr (s : State) (st : GearStep) : (s.setHead st).hr = s.hr := rfl
@[simp] theorem State.setHead_tbu (s : State) (st : GearStep) : (s.setHead st).tbu = s.tbu := rfl
@[simp] theorem State.setHead_os (s : State) (st : GearStep) : (s.setHead st).os = s.os := rfl
@[simp] theorem State.setHead_fu (s : State) (st : GearStep) : (s.setHead st).fu = s.fu := rfl
@[simp] theorem State.setHead_rp (s : State) (st : GearStep) : (s.setHead st).rp = s.rp := rfl

@[simp] theorem State.setQueue_pending (s : State) (l : List GearStep) : (s.setQueue l).pending = s.pending := rfl
@[simp] theorem State.setQueue_inputs (s : State) (l : List GearStep) : (s.setQueue l).inputs = s.inputs := rfl
@[simp] theorem State.setQueue_cs (s : State) (l : List GearStep) : (s.setQueue l).cs = s.cs := rfl
@[simp] theorem State.setQueue_otu (s : State) (l : List GearStep) : (s.setQueue l).otu = s.otu := rfl
@[simp] theorem State.setQueue_lcu (s : State) (l : List GearStep) : (s.setQueue l).lcu = s.lcu := rfl
@[simp] theorem State.setQueue_mu (s : State) (l : List GearStep) : (s.setQueue l).mu = s.mu := rfl
@[simp] theorem State.setQueue_flow (s : State) (l : List GearStep) : (s.setQueue l).flow = s.flow := rfl
@[simp] theorem State.setQueue_sq (s : State) (l : List GearStep) :
    (s.setQueue l).sq = { s.sq with queue := l.take 4 } := rfl
@[simp] theorem State.setQueue_acu (s : State) (l : List GearStep) : (s.setQueue l).acu = s.acu := rfl
@[simp] theorem State.setQueue_hr (s : State) (l : List GearStep) : (s.setQueue l).hr = s.hr := rfl
@[simp] theorem State.setQueue_tbu (s : State) (l : List GearStep) : (s.setQueue l).tbu = s.tbu := rfl
@[simp] theorem State.setQueue_os (s : State) (l : List GearStep) : (s.setQueue l).os = s.os := rfl
@[simp] theorem State.setQueue_fu (s : State) (l : List GearStep) : (s.setQueue l).fu = s.fu := rfl
@[simp] theorem State.setQueue_rp (s : State) (l : List GearStep) : (s.setQueue l).rp = s.rp := rfl

@[simp] theorem State.endLoose_pending (s : State) : (s.endLoose).pending = s.pending := rfl
@[simp] theorem State.endLoose_inputs (s : State) : (s.endLoose).inputs = s.inputs := rfl
@[simp] theorem State.endLoose_cs (s : State) : (s.endLoose).cs = s.cs := rfl
@[simp] theorem State.endLoose_otu (s : State) : (s.endLoose).otu = s.otu := rfl
@[simp] theorem State.endLoose_lcu (s : State) : (s.endLoose).lcu = s.lcu := rfl
@[simp] theorem State.endLoose_mu (s : State) : (s.endLoose).mu = s.mu := rfl
@[simp] theorem State.endLoose_flow (s : State) : (s.endLoose).flow = s.flow := rfl
@[simp] theorem State.endLoose_sq (s : State) : (s.endLoose).sq = { s.sq with looseSync := none } := rfl
@[simp] theorem State.endLoose_acu (s : State) : (s.endLoose).acu = s.acu := rfl
@[simp] theorem State.endLoose_hr (s : State) : (s.endLoose).hr = s.hr := rfl
@[simp] theorem State.endLoose_tbu (s : State) : (s.endLoose).tbu = s.tbu := rfl
@[simp] theorem State.endLoose_os (s : State) : (s.endLoose).os = s.os := rfl
@[simp] theorem State.endLoose_fu (s : State) : (s.endLoose).fu = s.fu := rfl
@[simp] theorem State.endLoose_rp (s : State) : (s.endLoose).rp = s.rp := rfl

@[simp] theorem State.samplePins_pending (s : State) : (s.samplePins).pending = s.pending := rfl
@[simp] theorem State.samplePins_inputs (s : State) : (s.samplePins).inputs = s.inputs := rfl
@[simp] theorem State.samplePins_cs (s : State) : (s.samplePins).cs = s.cs := rfl
@[simp] theorem State.samplePins_otu (s : State) : (s.samplePins).otu = s.otu := rfl
@[simp] theorem State.samplePins_lcu (s : State) : (s.samplePins).lcu = s.lcu := rfl
@[simp] theorem State.samplePins_mu (s : State) : (s.samplePins).mu = s.mu := rfl
@[simp] theorem State.samplePins_flow (s : State) : (s.samplePins).flow = s.flow := rfl
@[simp] theorem State.samplePins_sq (s : State) : (s.samplePins).sq = s.sq := rfl
@[simp] theorem State.samplePins_acu (s : State) : (s.samplePins).acu = s.acu := rfl
@[simp] theorem State.samplePins_hr (s : State) : (s.samplePins).hr = s.hr := rfl
@[simp] theorem State.samplePins_tbu (s : State) :
    (s.samplePins).tbu = { s.tbu with
      debounce := s.tbu.debounce.follow (s.inputs.trailerPresent ≠ s.tbu.presence) s.now,
      breakTimer := s.tbu.breakTimer.follow s.inputs.breakaway s.now } := rfl
@[simp] theorem State.samplePins_os (s : State) : (s.samplePins).os = s.os := rfl
@[simp] theorem State.samplePins_fu (s : State) : (s.samplePins).fu = s.fu := rfl
@[simp] theorem State.samplePins_rp (s : State) : (s.samplePins).rp = s.rp := rfl

@[simp] theorem State.tick_pending (s : State) : (s.tick).pending = s.pending := rfl
@[simp] theorem State.tick_inputs (s : State) : (s.tick).inputs = s.inputs := rfl
@[simp] theorem State.tick_cs (s : State) : (s.tick).cs = s.cs := rfl
@[simp] theorem State.tick_otu (s : State) : (s.tick).otu = s.otu := rfl
@[simp] theorem State.tick_lcu (s : State) : (s.tick).lcu = { s.lcu with now := s.now + 1 } := rfl
@[simp] theorem State.tick_mu (s : State) : (s.tick).mu = { s.mu with published := false } := rfl
@[simp] theorem State.tick_flow (s : State) : (s.tick).flow = s.flow := rfl
@[simp] theorem State.tick_sq (s : State) : (s.tick).sq = s.sq := rfl
@[simp] theorem State.tick_acu (s : State) : (s.tick).acu = s.acu := rfl
@[simp] theorem State.tick_hr (s : State) : (s.tick).hr = s.hr := rfl
@[simp] theorem State.tick_tbu (s : State) : (s.tick).tbu = s.samplePins.tbu := rfl
@[simp] theorem State.tick_os (s : State) : (s.tick).os = s.os := rfl
@[simp] theorem State.tick_fu (s : State) : (s.tick).fu = s.fu := rfl
@[simp] theorem State.tick_rp (s : State) : (s.tick).rp = s.rp := rfl

@[simp] theorem State.answering_pending (s : State) (p : Port) (a : Answer) :
    (s.answering p a).pending = s.pending := rfl
@[simp] theorem State.answering_inputs (s : State) (p : Port) (a : Answer) :
    (s.answering p a).inputs = s.inputs := rfl
@[simp] theorem State.answering_cs (s : State) (p : Port) (a : Answer) : (s.answering p a).cs = s.cs := rfl
@[simp] theorem State.answering_otu (s : State) (p : Port) (a : Answer) : (s.answering p a).otu = s.otu := rfl
@[simp] theorem State.answering_lcu (s : State) (p : Port) (a : Answer) : (s.answering p a).lcu = s.lcu := rfl
@[simp] theorem State.answering_mu (s : State) (p : Port) (a : Answer) : (s.answering p a).mu = s.mu := rfl
@[simp] theorem State.answering_flow (s : State) (p : Port) (a : Answer) : (s.answering p a).flow = s.flow := rfl
@[simp] theorem State.answering_sq (s : State) (p : Port) (a : Answer) : (s.answering p a).sq = s.sq := rfl
@[simp] theorem State.answering_acu (s : State) (p : Port) (a : Answer) : (s.answering p a).acu = s.acu := rfl
@[simp] theorem State.answering_hr (s : State) (p : Port) (a : Answer) : (s.answering p a).hr = s.hr := rfl
@[simp] theorem State.answering_tbu (s : State) (p : Port) (a : Answer) : (s.answering p a).tbu = s.tbu := rfl
@[simp] theorem State.answering_os (s : State) (p : Port) (a : Answer) : (s.answering p a).os = s.os := rfl
@[simp] theorem State.answering_fu (s : State) (p : Port) (a : Answer) : (s.answering p a).fu = s.fu := rfl
@[simp] theorem State.answering_rp (s : State) (p : Port) (a : Answer) :
    (s.answering p a).rp = s.rp.set p { s.port p with inFlight := some a } := rfl

@[simp] theorem State.risen_pending (s : State) (p : Port) : (s.risen p).pending = s.pending := rfl
@[simp] theorem State.risen_inputs (s : State) (p : Port) : (s.risen p).inputs = s.inputs := rfl
@[simp] theorem State.risen_cs (s : State) (p : Port) : (s.risen p).cs = s.cs := rfl
@[simp] theorem State.risen_otu (s : State) (p : Port) : (s.risen p).otu = s.otu := rfl
@[simp] theorem State.risen_lcu (s : State) (p : Port) : (s.risen p).lcu = s.lcu := rfl
@[simp] theorem State.risen_mu (s : State) (p : Port) : (s.risen p).mu = s.mu := rfl
@[simp] theorem State.risen_flow (s : State) (p : Port) : (s.risen p).flow = s.flow := rfl
@[simp] theorem State.risen_sq (s : State) (p : Port) : (s.risen p).sq = s.sq := rfl
@[simp] theorem State.risen_acu (s : State) (p : Port) : (s.risen p).acu = s.acu := rfl
@[simp] theorem State.risen_hr (s : State) (p : Port) : (s.risen p).hr = s.hr := rfl
@[simp] theorem State.risen_tbu (s : State) (p : Port) : (s.risen p).tbu = s.tbu := rfl
@[simp] theorem State.risen_os (s : State) (p : Port) : (s.risen p).os = s.os := rfl
@[simp] theorem State.risen_fu (s : State) (p : Port) : (s.risen p).fu = s.fu := rfl
@[simp] theorem State.risen_rp (s : State) (p : Port) :
    (s.risen p).rp = s.rp.set p { (s.port p).begin with txn := none } := rfl

/-! Reading after writing. -/

@[simp] theorem State.port_setPort_self (s : State) (p : Port) (r : PortRec) : (s.setPort p r).port p = r := by
  simp [State.port]

theorem State.port_setPort (s : State) (p q : Port) (r : PortRec) :
    (s.setPort p r).port q = if q = p then r else s.port q := by
  simp [State.port, ByPort.get_set]

@[simp] theorem State.setPort_setPort (s : State) (p : Port) (r r' : PortRec) :
    (s.setPort p r).setPort p r' = s.setPort p r' := by
  cases p <;> rfl

theorem State.order_setSlot (s : State) (k j : Nat) (sl : Slot) :
    (s.setSlot k sl).order j = if j = k ∧ k < s.otu.slots.length then sl.order else s.order j := by
  unfold State.order
  by_cases h : j = k
  · subst h
    by_cases hk : j < s.otu.slots.length
    · simp [hk]
    · simp [hk]
  · simp [h, Ne.symm h]

theorem State.order_setOrder (s : State) (k j : Nat) (o : Order) :
    (s.setOrder k o).order j = if j = k ∧ k < s.otu.slots.length then some o else s.order j :=
  State.order_setSlot s k j ⟨s.incarnation k, some o⟩

/-- A live slot is one of the table. -/
theorem State.order_lt {s : State} {k : Nat} {o : Order} (h : s.order k = some o) : k < s.otu.slots.length := by
  unfold State.order at h
  by_contra hk
  simp [List.getElem?_eq_none (Nat.le_of_not_lt hk)] at h

theorem State.order_setOrder_live {s : State} {k : Nat} {o' : Order} (h : s.order k = some o') (o : Order) (j : Nat) :
    (s.setOrder k o).order j = if j = k then some o else s.order j := by
  rw [State.order_setOrder]
  simp [State.order_lt h]

@[simp] theorem State.incarnation_setOrder (s : State) (k j : Nat) (o : Order) :
    (s.setOrder k o).incarnation j = s.incarnation j := by
  unfold State.incarnation
  by_cases h : j = k
  · subst h
    by_cases hk : j < s.otu.slots.length
    · simp [hk, State.incarnation]
    · simp [hk]
  · simp [Ne.symm h]

@[simp] theorem State.length_setSlot (s : State) (k : Nat) (sl : Slot) :
    (s.setSlot k sl).otu.slots.length = s.otu.slots.length := by
  simp

@[simp] theorem State.length_setOrder (s : State) (k : Nat) (o : Order) :
    (s.setOrder k o).otu.slots.length = s.otu.slots.length := by
  simp

@[simp] theorem State.list_setOrder (s : State) (k : Nat) (o : Order) (ch : Channel) :
    (s.setOrder k o).list ch = s.list ch := rfl

@[simp] theorem State.list_setList_self (s : State) (ch : Channel) (l : List Nat) : (s.setList ch l).list ch = l := by
  simp [State.list]

theorem State.list_setList (s : State) (ch ch' : Channel) (l : List Nat) :
    (s.setList ch l).list ch' = if ch' = ch then l else s.list ch' := by
  simp [State.list, ByChannel.get_set]

@[simp] theorem State.order_setList (s : State) (ch : Channel) (l : List Nat) (k : Nat) :
    (s.setList ch l).order k = s.order k := rfl

@[simp] theorem State.order_setLive (s : State) (p : Port) (n k : Nat) : (s.setLive p n).order k = s.order k := rfl

@[simp] theorem State.order_setPort (s : State) (p : Port) (r : PortRec) (k : Nat) :
    (s.setPort p r).order k = s.order k := rfl

theorem State.live_setLive (s : State) (p q : Port) (n : Nat) :
    (s.setLive p n).live q = if q = p then n else s.live q := by
  simp [State.live, ByPort.get_set]

@[simp] theorem State.timing_setTiming (s : State) (ch : SpeedCh) (t : SpeedTiming) :
    ((s.setTiming ch t).mu.speed.get ch).timing = t := by
  simp

end Sys2Proof.Machine
end

