-- ==== Sys2Proof/Laws/Frames.lean ====
section
/-! SUPPORT. What each shared operation leaves alone, as a relation of the state before and after. A lemma `R.f` says that
from a state related to `s` the operation `f` leads to a state related to `s`, so that compositions are dotted together. -/

namespace Sys2Proof.Machine

namespace JobOnly

theorem refl (s : State) : JobOnly s s := ⟨rfl, rfl, rfl, rfl, rfl, rfl, rfl, rfl, rfl, rfl⟩

theorem trans {s t u : State} (h : JobOnly s t) (g : JobOnly t u) : JobOnly s u :=
  ⟨g.pending.trans h.pending, g.inputs.trans h.inputs, g.cs.trans h.cs, g.otu.trans h.otu, g.lcu.trans h.lcu,
   g.mu.trans h.mu, g.tbu.trans h.tbu, g.os.trans h.os, g.fu.trans h.fu, g.rp.trans h.rp⟩

variable {s t : State}

theorem running (h : JobOnly s t) : t.running = s.running := by rw [State.running, h.cs, ← State.running]

theorem setFlow (h : JobOnly s t) (f : Flow) : JobOnly s { t with flow := f } := { h with }

theorem setSq (h : JobOnly s t) (q : Sq) : JobOnly s { t with sq := q } := { h with }

theorem setAcu (h : JobOnly s t) (a : Acu) : JobOnly s { t with acu := a } := { h with }

theorem setHr (h : JobOnly s t) (r : Hr) : JobOnly s { t with hr := r } := { h with }

theorem ite {c : Prop} [Decidable c] {a b : State} (ha : JobOnly s a) (hb : JobOnly s b) :
    JobOnly s (if c then a else b) := by
  split
  · exact ha
  · exact hb

theorem sqFillGranted (h : JobOnly s t) : JobOnly s t.sqFillGranted := by
  unfold State.sqFillGranted
  split
  · exact ite (h.setSq _) h
  · exact h

theorem acuAxleGranted (h : JobOnly s t) : JobOnly s t.acuAxleGranted := ite (h.setAcu _) h

theorem hrSync (h : JobOnly s t) : JobOnly s t.hrSync := h.setHr _

theorem grantPass (h : JobOnly s t) : JobOnly s t.grantPass := by
  have h1 := h.setFlow (t.flow.pass (flowBudget t.items))
  have h2 := ite (c := t.flow.fill.state ≠ .granted ∧ (t.flow.pass (flowBudget t.items)).fill.state = .granted)
    h1.sqFillGranted h1
  have h3 := ite (c := t.flow.axle.state ≠ .granted ∧ (t.flow.pass (flowBudget t.items)).axle.state = .granted)
    h2.acuAxleGranted h2
  exact ite h3 h3.hrSync

theorem releaseFill (h : JobOnly s t) : JobOnly s t.releaseFill := ite h (h.setFlow _).grantPass

theorem releaseAxle (h : JobOnly s t) : JobOnly s t.releaseAxle := ite h (h.setFlow _).grantPass

theorem freeFill (h : JobOnly s t) : JobOnly s t.freeFill := ite h.releaseFill h

theorem freeAxle (h : JobOnly s t) : JobOnly s t.freeAxle := ite h.releaseAxle h

theorem putFill (h : JobOnly s t) (n : Nat) (c : Clutch) : JobOnly s (t.putFill n c) := (h.setFlow _).grantPass

theorem putAxle (h : JobOnly s t) (n : Nat) : JobOnly s (t.putAxle n) := (h.setFlow _).grantPass

theorem askFill (h : JobOnly s t) (n : Nat) (c : Clutch) : JobOnly s (t.askFill n c) := h.freeFill.putFill n c

theorem askAxle (h : JobOnly s t) (n : Nat) : JobOnly s (t.askAxle n) := h.freeAxle.putAxle n

theorem askLift (h : JobOnly s t) (n : Nat) : JobOnly s (t.askLift n) := ite h (h.setFlow _).grantPass

theorem followHold (h : JobOnly s t) : JobOnly s t.followHold :=
  ite h (ite (h.setFlow _).grantPass (h.setFlow _).grantPass)

theorem acuCoupling (h : JobOnly s t) (c : Coupling) : JobOnly s (t.acuCoupling c) := h.setAcu _

theorem acuEngage (h : JobOnly s t) : JobOnly s t.acuEngage := by
  unfold State.acuEngage
  split
  · exact (h.acuCoupling _).releaseAxle
  · exact (h.setAcu _).releaseAxle
  · exact h.setAcu _
  · exact h
  · exact h

theorem acuRelease (h : JobOnly s t) : JobOnly s t.acuRelease := by
  unfold State.acuRelease
  split
  · exact ite ((h.acuCoupling _).askAxle _) h
  · exact ite (h.acuCoupling _).releaseAxle h
  · exact h
  · exact h
  · exact h

theorem acuFollow (h : JobOnly s t) : JobOnly s t.acuFollow := ite h (ite h.acuRelease h.acuEngage)

theorem acuTake (h : JobOnly s t) : JobOnly s t.acuTake := (h.setAcu _).acuFollow

theorem acuPublish (h : JobOnly s t) (was : Bool) : JobOnly s (t.acuPublish was) := ite (h.setAcu _).acuFollow h

theorem acuEnableFall (h : JobOnly s t) : JobOnly s t.acuEnableFall := ite h.acuEngage h

theorem hrMove (h : JobOnly s t) (m : Motion) : JobOnly s (t.hrMove m) := ((h.setHr _).askLift _).hrSync

theorem hrRegulate (h : JobOnly s t) : JobOnly s t.hrRegulate := (h.setHr _).hrMove _

theorem hrCorrect (h : JobOnly s t) : JobOnly s t.hrCorrect := ite (h.setHr _) ((h.setHr _).hrMove _)

theorem hrTransport (h : JobOnly s t) : JobOnly s t.hrTransport := by
  unfold State.hrTransport
  exact ite (ite (h.setHr _).hrCorrect (h.setHr _)) (ite ((h.setHr _).hrMove _) ((h.setHr _).hrMove _))

theorem hrEnterHold (h : JobOnly s t) : JobOnly s t.hrEnterHold := (h.setHr _).hrMove _

theorem hrWork (h : JobOnly s t) : JobOnly s t.hrWork := ite ((h.setHr _).hrMove _) (h.setHr _).hrRegulate

theorem hrRefresh (h : JobOnly s t) : JobOnly s t.hrRefresh :=
  ite (ite h h.hrEnterHold) (ite (h.setHr _).hrWork (ite ((h.setHr _).hrMove _) h))

theorem hrFreeze (h : JobOnly s t) : JobOnly s t.hrFreeze := h.setHr _

theorem hrUnfreeze (h : JobOnly s t) : JobOnly s t.hrUnfreeze := h.setHr _

theorem hrPublish (h : JobOnly s t) (lowering : Bool) : JobOnly s (t.hrPublish lowering) := by
  unfold State.hrPublish
  refine ite h ?_
  have h1 := (h.setHr
    { t.hr.trimPublish t.now t.slipOver with
      frozenLost := t.hr.frozenLost || (t.sq.flags.draftFreeze && t.pub.draft.isNone) }).hrRefresh
  exact ite h1 ((ite h1.hrTransport (ite h1 h1.hrRegulate)).setHr _)

theorem hrTake (h : JobOnly s t) : JobOnly s t.hrTake := by
  unfold State.hrTake
  have h1 := fun x y => (h.setHr x).setHr y
  exact ite (ite (h1 _ _).hrEnterHold (ite ((h1 _ _).setHr _) (h1 _ _))) ((h1 _ _).setHr _).hrWork

theorem clearFlags (h : JobOnly s t) : JobOnly s t.clearFlags := by
  have h1 := ite (c := (t.sq.flags.draftFreeze : Prop)) (h.setSq { t.sq with flags := .clear }).hrUnfreeze
    (h.setSq { t.sq with flags := .clear })
  exact ite h1.acuFollow h1

theorem inchEntry (h : JobOnly s t) : JobOnly s t.inchEntry := by
  unfold State.inchEntry
  split
  · exact ite h (h.setSq _)
  · exact h

theorem abandonHead (h : JobOnly s t) : JobOnly s t.abandonHead := by
  unfold State.abandonHead
  split
  · exact (ite (h.setSq _).releaseFill (h.setSq _)).clearFlags.inchEntry
  · exact h

theorem setQueue (h : JobOnly s t) (l : List GearStep) : JobOnly s (t.setQueue l) := h.setSq _

theorem setHead (h : JobOnly s t) (st : GearStep) : JobOnly s (t.setHead st) := h.setSq _

theorem abandonRebuild (h : JobOnly s t) : JobOnly s t.abandonRebuild := h.abandonHead.setQueue _

theorem rebuild (h : JobOnly s t) : JobOnly s t.rebuild := by
  unfold State.rebuild
  refine ite h ?_
  split
  · exact h.setQueue _
  · refine ite (h.setQueue _) ?_
    split
    · exact ite (h.setQueue _) h.abandonRebuild
    · exact h.abandonRebuild

theorem rampOff (h : JobOnly s t) (cs : List Clutch) (n : Nat) : JobOnly s (t.rampOff cs n) := h.setSq _

theorem rampOn (h : JobOnly s t) (cs : List Clutch) (f : ClutchItem → Nat) (n : Nat) : JobOnly s (t.rampOn cs f n) :=
  h.setSq _

theorem endLoose (h : JobOnly s t) : JobOnly s t.endLoose := h.setSq _

theorem beginStep (h : JobOnly s t) (st : GearStep) : JobOnly s (t.beginStep st) := by
  unfold State.beginStep
  refine ite ((h.setHead _).endLoose.rampOff _ _) ?_
  have h1 := fun x q => (h.setHead x).setSq q
  dsimp only
  split
  · exact (ite (h1 _ _).hrFreeze (h1 _ _)).askFill _ _
  · exact ite (h1 _ _).hrFreeze (h1 _ _)

theorem startPlain (h : JobOnly s t) : JobOnly s t.startPlain := by
  unfold State.startPlain
  split
  · exact ite (h.beginStep _) h
  · exact h

theorem finishStep (h : JobOnly s t) (c : Bool) : JobOnly s (t.finishStep c) := by
  unfold State.finishStep
  split
  · exact (h.setSq _).clearFlags.inchEntry.rebuild
  · exact h

theorem zeroNeutral (h : JobOnly s t) (st : GearStep) : JobOnly s (t.zeroNeutral st) :=
  (h.setSq _).endLoose.finishStep _

theorem tryStart (h : JobOnly s t) : JobOnly s t.tryStart := by
  unfold State.tryStart
  split
  · exact ite (ite (h.zeroNeutral _).startPlain (h.beginStep _)) h
  · exact h

theorem endStep (h : JobOnly s t) (c : Bool) : JobOnly s (t.endStep c) := (h.finishStep c).tryStart

theorem replan (h : JobOnly s t) : JobOnly s t.replan := h.rebuild.tryStart

theorem fillDone (h : JobOnly s t) (st : GearStep) : JobOnly s (t.fillDone st) := ((h.setHead _).setSq _).releaseFill

theorem rampFlags (h : JobOnly s t) (st : GearStep) : JobOnly s (t.rampFlags st) := by
  unfold State.rampFlags
  exact ite (h.setSq _).acuFollow (h.setSq _)

theorem swapDirection (h : JobOnly s t) (st : GearStep) : JobOnly s (t.swapDirection st) := (h.setSq _).endStep _

theorem holdDone (h : JobOnly s t) (st : GearStep) : JobOnly s (t.holdDone st) := by
  unfold State.holdDone
  dsimp only
  split
  · refine ite (h.swapDirection _) ?_
    exact ((h.setSq _).setHead _).rampOn _ _ _
  · exact (((((h.rampOff _ _).endLoose).setHead _).rampOn _ _ _).rampFlags _)
  all_goals exact ((((h.rampOff _ _).setHead _).rampOn _ _ _).rampFlags _)

theorem rampDone (h : JobOnly s t) (st : GearStep) : JobOnly s (t.rampDone st) :=
  ite ((h.setSq _).endStep _) ((h.setHead _).setSq _)

theorem endDecel (h : JobOnly s t) (st : GearStep) : JobOnly s (t.endDecel st) := (h.setHead _).setSq _

theorem lockRamp (h : JobOnly s t) (cs : List Clutch) : JobOnly s (t.lockRamp cs) := h.setSq _

theorem lockStep (h : JobOnly s t) (st : GearStep) (c : Bool) : JobOnly s (t.lockStep st c) := (h.setSq _).endStep _

theorem lockLoose (h : JobOnly s t) (d : Dir) : JobOnly s (t.lockLoose d) := (h.setSq _).endLoose.tryStart

theorem heatUp (h : JobOnly s t) : JobOnly s t.heatUp := h.setSq _

theorem observe (h : JobOnly s t) : JobOnly s t.observe := by
  unfold State.observe
  split
  · exact h.setHead _
  · exact h

theorem pedalSync (h : JobOnly s t) (d : Bool) : JobOnly s (t.pedalSync d) := by
  unfold State.pedalSync
  split
  · exact h
  · have h1 := fun q => ite (c := (d : Prop)) (h.setSq q) h
    dsimp only
    split
    · exact ite (h1 _) ((h1 _).setHead _)
    · exact (h1 _).setSq _

theorem pedalChange (h : JobOnly s t) (old : Band) : JobOnly s (t.pedalChange old) := by
  unfold State.pedalChange
  refine ite h ?_
  have h1 := ite (c := old = .released) (h.pedalSync true) (ite (c := t.pub.band = .released) (h.pedalSync false) h)
  have h2 := fun c d => @ite s c d _ _ h1.inchEntry h1
  refine ite ?_ (h2 _ _)
  exact (ite (h2 _ _).abandonHead (h2 _ _)).rebuild

theorem standstill (h : JobOnly s t) : JobOnly s t.standstill := by
  unfold State.standstill
  split
  · exact ite (h.endDecel _) h
  · exact h

theorem lockStart (h : JobOnly s t) : JobOnly s t.lockStart := by
  unfold State.lockStart
  split
  · exact ite (h.lockRamp _) h
  · exact h

theorem looseStart (h : JobOnly s t) : JobOnly s t.looseStart := by
  unfold State.looseStart
  split
  · exact ite (h.lockRamp _) h
  · exact h

theorem retarget (h : JobOnly s t) (g : Nat) : JobOnly s (t.retarget g) := (h.setSq _).replan

theorem halt (h : JobOnly s t) : JobOnly s t.halt := (h.releaseFill.setSq _).clearFlags

theorem cutNeutral (h : JobOnly s t) : JobOnly s t.cutNeutral := by
  unfold State.cutNeutral
  split
  · exact ite (h.zeroNeutral _) h
  · exact h

theorem sqTake (h : JobOnly s t) : JobOnly s t.sqTake := (h.setSq _).cutNeutral.replan

theorem sqStart (h : JobOnly s t) : JobOnly s t.sqStart := (h.setSq _).sqTake

theorem sqStarved (h : JobOnly s t) : JobOnly s t.sqStarved := by
  unfold State.sqStarved
  split
  · exact ite h.abandonHead.replan h
  · exact h

theorem acuStarved (h : JobOnly s t) : JobOnly s t.acuStarved := ite (h.acuCoupling _).acuFollow h

theorem hrStart (h : JobOnly s t) : JobOnly s t.hrStart := (h.setHr _).hrTake

theorem unitsFollow (h : JobOnly s t) : JobOnly s t.unitsFollow :=
  ite h.followHold.acuFollow.hrRefresh h.followHold.acuFollow

theorem cool (h : JobOnly s t) : JobOnly s t.cool := h.setSq _

theorem upExpires (h : JobOnly s t) : JobOnly s t.upExpires := ite ((h.setSq _).retarget _) ((h.setSq _).setSq _)

theorem downExpires (h : JobOnly s t) : JobOnly s t.downExpires := ite ((h.setSq _).retarget _) ((h.setSq _).setSq _)

end JobOnly

end Sys2Proof.Machine
end

