-- ==== Sys2Proof/Laws/Detections.lean ====
section
/-! SUPPORT. What a detection and an unlatch leave alone, and what they do to the fault table. -/

namespace Sys2Proof.Machine

theorem PortRec.attend_changed (r : PortRec) (now : Time) (n : Nat) : (r.attend now n).changed = r.changed := by
  unfold PortRec.attend PortRec.deassert
  split <;> split <;> rfl

theorem PortRec.attend_causes (r : PortRec) (now : Time) (n : Nat) : (r.attend now n).causes = r.causes := by
  unfold PortRec.attend PortRec.deassert
  split <;> split <;> rfl

/-- The line after `attend` follows the unmasked causes, whatever it was before. -/
theorem PortRec.attends_attend (r : PortRec) (now : Time) (n : Nat) : (r.attend now n).Attends := by
  unfold PortRec.attend PortRec.deassert PortRec.Attends PortRec.unmasked
  cases ha : r.asserted <;> cases hu : r.causes &&& ~~~ r.causeMask != 0 <;> cases ht : r.throttle <;>
    simp_all [bne_iff_ne]

namespace PortOnly

theorem refl (r : PortRec) : PortOnly r r :=
  ⟨rfl, rfl, rfl, rfl, rfl, rfl, rfl, rfl, fun _ => id, fun h g => absurd h g, id⟩

theorem trans {a b c : PortRec} (h : PortOnly a b) (g : PortOnly b c) : PortOnly a c :=
  ⟨g.slot.trans h.slot, g.dataOut.trans h.dataOut, g.inFlight.trans h.inFlight, g.txn.trans h.txn,
   g.resetHeld.trans h.resetHeld, g.causeMask.trans h.causeMask, g.badFrames.trans h.badFrames, g.busys.trans h.busys,
   fun i => g.causes i ∘ h.causes i,
   fun ha hc => if hb : b.changed = [] then g.orders hb hc else g.causes 0 (h.orders ha hb),
   g.attends ∘ h.attends⟩

theorem attend (r : PortRec) (now : Time) (n : Nat) : PortOnly r (r.attend now n) := by
  have h := r.attends_attend now n
  unfold PortRec.attend PortRec.deassert at *
  split at h <;> split at h <;> simp_all only [if_true, if_false, Bool.false_eq_true] <;>
    exact ⟨rfl, rfl, rfl, rfl, rfl, rfl, rfl, rfl, fun _ => id, fun h g => absurd h g, fun _ => h⟩

/-- A cause added, and the line after it. -/
theorem addCause (r : PortRec) (c : BitVec 4) (now : Time) (n : Nat) :
    PortOnly r (({ r with causes := r.causes ||| c } : PortRec).attend now n) := by
  have h := attend { r with causes := r.causes ||| c } now n
  exact ⟨h.slot, h.dataOut, h.inFlight, h.txn, h.resetHeld, h.causeMask, h.badFrames, h.busys,
    fun i hi => h.causes i (by rw [BitVec.getLsbD_or, hi]; rfl),
    fun e g => absurd (by rw [PortRec.attend_changed]; exact e) g, fun _ => PortRec.attends_attend _ _ _⟩

/-- A first slot in the changed-order set brings ORDERS, and the line follows. -/
theorem firstChanged (r : PortRec) (l : List Nat) (now : Time) (n : Nat) :
    PortOnly r (({ r with changed := l, causes := r.causes ||| Cause.orders.bit } : PortRec).attend now n) := by
  have h := attend { r with changed := l, causes := r.causes ||| Cause.orders.bit } now n
  exact ⟨h.slot, h.dataOut, h.inFlight, h.txn, h.resetHeld, h.causeMask, h.badFrames, h.busys,
    fun i hi => h.causes i (by rw [BitVec.getLsbD_or, hi]; rfl),
    fun _ _ => h.causes 0 (by rw [BitVec.getLsbD_or]; simp [Cause.bit]), fun _ => PortRec.attends_attend _ _ _⟩

/-- A new changed-order set that is empty where the old one is. -/
theorem setChanged (r : PortRec) (l : List Nat) (h : r.changed = [] → l = []) : PortOnly r { r with changed := l } :=
  ⟨rfl, rfl, rfl, rfl, rfl, rfl, rfl, rfl, fun _ => id, fun e g => absurd (h e) g, id⟩

end PortOnly

/-- A cause set at a port is one write of the port. -/
theorem State.setCause_eq (s : State) (p : Port) (c : Cause) :
    s.setCause p c =
      s.setPort p
        (({ s.port p with causes := (s.port p).causes ||| c.bit } : PortRec).attend s.now (throttleMs s.items p)) := by
  unfold State.setCause State.attend
  simp only [State.port_setPort, if_true, State.setPort_setPort]
  rfl

namespace CausesOnly

theorem refl (s : State) : CausesOnly s s :=
  ⟨rfl, rfl, rfl, rfl, rfl, rfl, rfl, rfl, rfl, rfl, rfl, rfl, rfl, fun _ => .refl _⟩

theorem trans {s t u : State} (h : CausesOnly s t) (g : CausesOnly t u) : CausesOnly s u :=
  ⟨g.pending.trans h.pending, g.inputs.trans h.inputs, g.cs.trans h.cs, g.otu.trans h.otu, g.lcu.trans h.lcu,
   g.mu.trans h.mu, g.flow.trans h.flow, g.sq.trans h.sq, g.acu.trans h.acu, g.hr.trans h.hr, g.tbu.trans h.tbu,
   g.os.trans h.os, g.fu.trans h.fu, fun p => (h.ports p).trans (g.ports p)⟩

variable {s t : State}

theorem setPort (h : CausesOnly s t) (p : Port) (r : PortRec) (g : PortOnly (t.port p) r) :
    CausesOnly s (t.setPort p r) := by
  refine h.trans ⟨rfl, rfl, rfl, rfl, rfl, rfl, rfl, rfl, rfl, rfl, rfl, rfl, rfl, fun q => ?_⟩
  rw [State.port_setPort]
  split
  · next e =>
    subst e
    exact g
  · exact .refl _

theorem attend (h : CausesOnly s t) (p : Port) : CausesOnly s (t.attend p) := h.setPort p _ (.attend _ _ _)

theorem setCause (h : CausesOnly s t) (p : Port) (c : Cause) : CausesOnly s (t.setCause p c) := by
  rw [State.setCause_eq]
  exact h.setPort p _ (.addCause _ _ _ _)

theorem setCauseBoth (h : CausesOnly s t) (c : Cause) : CausesOnly s (t.setCauseBoth c) :=
  (h.setCause .cab c).setCause .implement c

theorem ite {c : Prop} [Decidable c] {a b : State} (ha : CausesOnly s a) (hb : CausesOnly s b) :
    CausesOnly s (if c then a else b) := by
  split
  · exact ha
  · exact hb

theorem enterSet (h : CausesOnly s t) (p : Port) (k : Nat) : CausesOnly s (t.enterSet p k) := by
  unfold State.enterSet
  dsimp only
  split
  · rw [State.setCause_eq, State.port_setPort_self, State.setPort_setPort]
    exact h.setPort p _ (.firstChanged _ _ _ _)
  · next he => exact h.setPort p _ (.setChanged _ _ fun e => absurd (List.isEmpty_iff.mpr e) he)

theorem leaveSet (h : CausesOnly s t) (p : Port) (k : Nat) : CausesOnly s (t.leaveSet p k) :=
  h.setPort p _ (.setChanged _ _ fun e => by rw [e]; rfl)

theorem noteChange (h : CausesOnly s t) (k : Nat) (o : Order) : CausesOnly s (t.noteChange k o) := h.enterSet _ _

theorem reportFault (h : CausesOnly s t) (k : FaultKind) : CausesOnly s (t.reportFault k) := by
  have told : ∀ {u : State}, CausesOnly s u → ∀ p,
      CausesOnly s (if (u.fu.mask.get p).getLsbD k.code then u else u.setCause p .fault) :=
    fun hu p => ite hu (hu.setCause p .fault)
  exact ite ((told (told h .cab) .implement).setCauseBoth _) (told (told h .cab) .implement)

end CausesOnly

namespace DetectOnly

theorem refl (s : State) : DetectOnly s s := ⟨rfl, rfl, rfl, rfl, rfl, fun _ => .refl _⟩

theorem trans {s t u : State} (h : DetectOnly s t) (g : DetectOnly t u) : DetectOnly s u :=
  ⟨g.pending.trans h.pending, g.inputs.trans h.inputs, g.cs.trans h.cs, g.otu.trans h.otu, g.lcu.trans h.lcu,
   fun p => (h.ports p).trans (g.ports p)⟩

variable {s t u : State}

theorem ofJob (h : JobOnly s t) : DetectOnly s t :=
  ⟨h.pending, h.inputs, h.cs, h.otu, h.lcu, fun p => by
    have e : t.port p = s.port p := by
      unfold State.port
      rw [h.rp]
    rw [e]
    exact .refl _⟩

theorem ofCauses (h : CausesOnly s t) : DetectOnly s t := ⟨h.pending, h.inputs, h.cs, h.otu, h.lcu, h.ports⟩

theorem job (h : DetectOnly s t) (g : JobOnly t u) : DetectOnly s u := h.trans (ofJob g)

theorem causes (h : DetectOnly s t) (g : CausesOnly t u) : DetectOnly s u := h.trans (ofCauses g)

theorem ite {c : Prop} [Decidable c] {a b : State} (ha : DetectOnly s a) (hb : DetectOnly s b) :
    DetectOnly s (if c then a else b) := by
  split
  · exact ha
  · exact hb

theorem setFu (h : DetectOnly s t) (f : Fu) : DetectOnly s { t with fu := f } := { h with }

theorem setMu (h : DetectOnly s t) (m : Mu) : DetectOnly s { t with mu := m } := { h with }

theorem setAcu (h : DetectOnly s t) (a : Acu) : DetectOnly s { t with acu := a } := { h with }

theorem setHr (h : DetectOnly s t) (r : Hr) : DetectOnly s { t with hr := r } := { h with }

theorem setTbu (h : DetectOnly s t) (b : Tbu) : DetectOnly s { t with tbu := b } := { h with }

theorem setSq (h : DetectOnly s t) (q : Sq) : DetectOnly s { t with sq := q } := { h with }

theorem setOs (h : DetectOnly s t) (o : ByOut OutRec) : DetectOnly s { t with os := o } := { h with }

theorem fuConditions (h : DetectOnly s t) : DetectOnly s t.fuConditions := h.setFu _

theorem markUnits (h : DetectOnly s t) (k : FaultKind) (site : Word) : DetectOnly s (t.markUnits k site) := by
  unfold State.markUnits
  dsimp only
  split
  · split
    · exact ite (h.setMu _) h
    · exact h
  · exact ite (ite (h.setFu _) h) (ite (ite (h.setAcu _) h) (ite (ite (h.setHr _) h) (h.setTbu _)))
  · exact ite (ite (h.setFu _) h) (ite (h.setAcu _) (ite (h.setHr _) (h.setTbu _)))
  · exact ite (h.setHr _) h
  all_goals exact h

theorem unitsFollow (h : DetectOnly s t) : DetectOnly s t.unitsFollow := h.job (JobOnly.refl t).unitsFollow

theorem detect (h : DetectOnly s t) (k : FaultKind) (site : Word) : DetectOnly s (t.detect k site) :=
  (((h.setFu _).causes ((CausesOnly.refl _).reportFault k)).markUnits k site).unitsFollow.fuConditions

theorem unmarkUnits (h : DetectOnly s t) (k : FaultKind) : DetectOnly s (t.unmarkUnits k) := by
  unfold State.unmarkUnits
  split
  · exact h.setMu _
  · exact h.setMu _
  · exact { h with }
  · exact { h with }
  · exact h.setHr _
  all_goals exact h

theorem unlatch (h : DetectOnly s t) (k : FaultKind) : DetectOnly s (t.unlatch k) :=
  ((h.setFu _).unmarkUnits k).unitsFollow.fuConditions

theorem hotTest (h : DetectOnly s t) (c : Clutch) : DetectOnly s (t.hotTest c) :=
  ite ((h.setSq _).detect _ _) (ite (h.setSq _) h)

theorem hotTests (h : DetectOnly s t) : DetectOnly s t.hotTests := by
  unfold State.hotTests
  have : ∀ (l : List Clutch) (u : State), DetectOnly s u → DetectOnly s (l.foldl State.hotTest u) := by
    intro l
    induction l with
    | nil => exact fun _ hu => hu
    | cons c l ih => exact fun u hu => ih _ (hu.hotTest c)
  exact this _ _ h

theorem sqPublish (h : DetectOnly s t) (old : Band) : DetectOnly s (t.sqPublish old) := by
  unfold State.sqPublish
  refine ite h ?_
  refine (h.job (JobOnly.refl t).heatUp).hotTests.job ?_
  exact ((((((JobOnly.refl _).observe).pedalChange old).standstill).lockStart).looseStart).tryStart

theorem starve (h : DetectOnly s t) (c : WaitClass) : DetectOnly s (t.starve c) := by
  unfold State.starve
  dsimp only
  split
  · exact ((h.job ((JobOnly.refl t).setFlow _)).detect _ _).job (JobOnly.refl _).grantPass.sqStarved
  · exact ((h.job ((JobOnly.refl t).setFlow _)).detect _ _).job (JobOnly.refl _).grantPass.acuStarved

theorem enableLost (h : DetectOnly s t) : DetectOnly s t.enableLost := ite h (h.detect _ _)

end DetectOnly

/-! The fault table. -/

/-- A fold of job work leaves the fault table alone. -/
theorem JobOnly.fault {s t : State} (h : JobOnly s t) : t.fu = s.fu := h.fu

/-- What `fuConditions` leaves alone of the Fault Unit. -/
@[simp] theorem State.fuConditions_entry (s : State) : s.fuConditions.fu.entry = s.fu.entry := rfl

@[simp] theorem State.fuConditions_record (s : State) : s.fuConditions.fu.record = s.fu.record := rfl

@[simp] theorem State.fuConditions_mask (s : State) : s.fuConditions.fu.mask = s.fu.mask := rfl

theorem State.markUnits_entry (s : State) (k : FaultKind) (site : Word) :
    (s.markUnits k site).fu.entry = s.fu.entry ∧ (s.markUnits k site).fu.record = s.fu.record ∧
      (s.markUnits k site).fu.mask = s.fu.mask := by
  unfold State.markUnits
  dsimp only
  split <;> (repeat' split) <;> exact ⟨rfl, rfl, rfl⟩

/-- A detection writes its own entry and no other, and the first-fault record where it is empty (R159, R163). -/
theorem State.detect_fu (s : State) (k : FaultKind) (site : Word) :
    (s.detect k site).fu.entry = s.fu.entry.set k ⟨true, some site⟩ ∧
      (s.detect k site).fu.record = s.recordFirst k site ∧ (s.detect k site).fu.mask = s.fu.mask := by
  unfold State.detect
  dsimp only
  generalize hs0 : ({ s with
      fu := { s.fu with record := s.recordFirst k site, entry := s.fu.entry.set k ⟨true, some site⟩ } } : State) = s0
  have h1 := (CausesOnly.refl s0).reportFault k
  have h2 := State.markUnits_entry (s0.reportFault k) k site
  have h3 := (JobOnly.refl ((s0.reportFault k).markUnits k site)).unitsFollow
  rw [State.fuConditions_entry, State.fuConditions_record, State.fuConditions_mask, h3.fu, h2.1, h2.2.1, h2.2.2, h1.fu]
  subst hs0
  exact ⟨rfl, rfl, rfl⟩

theorem State.unmarkUnits_entry (s : State) (k : FaultKind) :
    (s.unmarkUnits k).fu.entry = s.fu.entry ∧ (s.unmarkUnits k).fu.record = s.fu.record ∧
      (s.unmarkUnits k).fu.mask = s.fu.mask := by
  unfold State.unmarkUnits
  split <;> exact ⟨rfl, rfl, rfl⟩

/-- An unlatch clears LATCHED of its kind, keeps its site, and empties the record that holds the kind (R166). -/
theorem State.unlatch_fu (s : State) (k : FaultKind) :
    (s.unlatch k).fu.entry = s.fu.entry.set k { s.fu.entry.get k with latched := false } ∧
      (s.unlatch k).fu.record = recordAfter s.fu.record k ∧ (s.unlatch k).fu.mask = s.fu.mask := by
  unfold State.unlatch
  dsimp only
  generalize hs0 : ({ s with
      fu := { s.fu with
        record := recordAfter s.fu.record k,
        entry := s.fu.entry.set k { s.fu.entry.get k with latched := false } } } : State) = s0
  have h2 := State.unmarkUnits_entry s0 k
  have h3 := (JobOnly.refl (s0.unmarkUnits k)).unitsFollow
  rw [State.fuConditions_entry, State.fuConditions_record, State.fuConditions_mask, h3.fu, h2.1, h2.2.1, h2.2.2]
  subst hs0
  exact ⟨rfl, rfl, rfl⟩

end Sys2Proof.Machine
end

