-- ==== Sys2Proof/Laws/Claims.lean ====
section
/-! SUPPORT. What claims on the order table leave alone, and the states a resolution gives. -/

namespace Sys2Proof.Machine

namespace SameOrders

theorem refl (s : State) : SameOrders s s := ⟨rfl, fun _ => rfl, fun _ => rfl, rfl, rfl⟩

theorem trans {s t u : State} (h : SameOrders s t) (g : SameOrders t u) : SameOrders s u :=
  ⟨g.size.trans h.size, fun k => (g.inc k).trans (h.inc k), fun k => (g.body k).trans (h.body k),
   g.lists.trans h.lists, g.live.trans h.live⟩

variable {s t : State}

theorem ofOtu (h : t.otu = s.otu) : SameOrders s t :=
  ⟨by rw [h], fun k => by unfold State.incarnation; rw [h], fun k => by unfold State.order; rw [h], by rw [h],
   by rw [h]⟩

/-- A write of a live slot that keeps the order's body. -/
theorem setOrder (h : SameOrders s t) {k : Nat} {o o' : Order} (e : t.order k = some o) (b : o'.body = o.body) :
    SameOrders s (t.setOrder k o') := by
  refine h.trans ⟨State.length_setOrder t k o', fun j => State.incarnation_setOrder t k j o', fun j => ?_, rfl, rfl⟩
  rw [State.order_setOrder_live e]
  split
  · next hj =>
    subst hj
    simp [e, b]
  · rfl

theorem causes {u : State} (h : SameOrders s t) (g : CausesOnly t u) : SameOrders s u := h.trans (ofOtu g.otu)

theorem job {u : State} (h : SameOrders s t) (g : JobOnly t u) : SameOrders s u := h.trans (ofOtu g.otu)

theorem detected {u : State} (h : SameOrders s t) (g : DetectOnly t u) : SameOrders s u := h.trans (ofOtu g.otu)

end SameOrders

namespace ClaimOnly

theorem refl (s : State) : ClaimOnly s s := ⟨rfl, rfl, rfl, rfl, rfl, rfl, rfl, rfl, fun _ => .refl _⟩

theorem trans {s t u : State} (h : ClaimOnly s t) (g : ClaimOnly t u) : ClaimOnly s u :=
  ⟨g.pending.trans h.pending, g.inputs.trans h.inputs, g.cs.trans h.cs, g.mu.trans h.mu, g.os.trans h.os,
   g.fu.trans h.fu, g.now.trans h.now, g.size.trans h.size, fun p => (h.ports p).trans (g.ports p)⟩

variable {s t u : State}

theorem ofJob (h : JobOnly s t) : ClaimOnly s t :=
  ⟨h.pending, h.inputs, h.cs, h.mu, h.os, h.fu, by rw [h.lcu], by rw [h.otu], (DetectOnly.ofJob h).ports⟩

theorem ofCauses (h : CausesOnly s t) : ClaimOnly s t :=
  ⟨h.pending, h.inputs, h.cs, h.mu, h.os, h.fu, by rw [h.lcu], by rw [h.otu], h.ports⟩

theorem job (h : ClaimOnly s t) (g : JobOnly t u) : ClaimOnly s u := h.trans (ofJob g)

theorem causes (h : ClaimOnly s t) (g : CausesOnly t u) : ClaimOnly s u := h.trans (ofCauses g)

theorem ite {c : Prop} [Decidable c] {a b : State} (ha : ClaimOnly s a) (hb : ClaimOnly s b) :
    ClaimOnly s (if c then a else b) := by
  split
  · exact ha
  · exact hb

theorem setTbu (h : ClaimOnly s t) (b : Tbu) : ClaimOnly s { t with tbu := b } := { h with }

theorem setLcu (h : ClaimOnly s t) (l : Lcu) (e : l.now = t.lcu.now) : ClaimOnly s { t with lcu := l } :=
  { h with now := e.trans h.now }

theorem setSlot (h : ClaimOnly s t) (k : Nat) (sl : Slot) : ClaimOnly s (t.setSlot k sl) :=
  h.trans ⟨rfl, rfl, rfl, rfl, rfl, rfl, rfl, State.length_setSlot t k sl, fun _ => .refl _⟩

theorem setOrder (h : ClaimOnly s t) (k : Nat) (o : Order) : ClaimOnly s (t.setOrder k o) := h.setSlot k _

theorem setList (h : ClaimOnly s t) (ch : Channel) (l : List Nat) : ClaimOnly s (t.setList ch l) := { h with }

theorem setLive (h : ClaimOnly s t) (p : Port) (n : Nat) : ClaimOnly s (t.setLive p n) := { h with }

theorem noteChange (h : ClaimOnly s t) (k : Nat) (o : Order) : ClaimOnly s (t.noteChange k o) :=
  h.causes ((CausesOnly.refl t).noteChange k o)

theorem tbuTake (h : ClaimOnly s t) : ClaimOnly s t.tbuTake := h.setTbu _

theorem handOver (h : ClaimOnly s t) (ch : Channel) : ClaimOnly s (t.handOver ch) := by
  unfold State.handOver
  refine ite h ?_
  split
  · exact h.job (JobOnly.refl t).sqTake
  · exact h.job (JobOnly.refl t).acuTake
  · exact h.job (JobOnly.refl t).hrTake
  · exact h.tbuTake

theorem resolveSlot (h : ClaimOnly s t) (q : Option Nat) (k : Nat) (o : Order) (st : OrderState) :
    ClaimOnly s (t.resolveSlot q k o st) := by
  unfold State.resolveSlot
  exact ite h (ite (h.setOrder _ _) ((h.setOrder _ _).noteChange _ _))

theorem resolveWalk (q : Option Nat) (l : List Nat) :
    ∀ (first : Bool) (u : State), ClaimOnly s u → ClaimOnly s (State.resolveWalk q l first u) := by
  induction l with
  | nil => exact fun _ _ h => h
  | cons k l ih =>
    intro first u h
    unfold State.resolveWalk
    split
    · exact ih _ _ (h.resolveSlot _ _ _ _)
    · exact ih _ _ h

theorem resolve (h : ClaimOnly s t) (ch : Channel) (q a : Option Nat) : ClaimOnly s (t.resolve ch q a) := by
  unfold State.resolve
  have h1 := resolveWalk q (t.list ch) true t h
  exact ite (h1.handOver ch) h1

theorem moveFront (h : ClaimOnly s t) (ch : Channel) (k : Nat) : ClaimOnly s (t.moveFront ch k) := h.setList _ _

theorem restartLease (h : ClaimOnly s t) (k : Nat) (w : Word) : ClaimOnly s (t.restartLease k w) := h.setLcu _ rfl

theorem lcuForget (h : ClaimOnly s t) (k : Nat) : ClaimOnly s (t.lcuForget k) := h.setLcu _ rfl

theorem lcuReport (h : ClaimOnly s t) (k : Nat) (o : Order) : ClaimOnly s (t.lcuReport k o) := by
  unfold State.lcuReport
  exact ite (h.setOrder _ _) ((h.setOrder _ _).setLcu _ rfl)

theorem setBrakeAxle (h : ClaimOnly s t) (b : Bool) : ClaimOnly s (t.setBrakeAxle b) := h.setLcu _ rfl

theorem leaveSet (h : ClaimOnly s t) (p : Port) (k : Nat) : ClaimOnly s (t.leaveSet p k) :=
  h.causes ((CausesOnly.refl t).leaveSet p k)

theorem freeOrder (h : ClaimOnly s t) (k : Nat) (o : Order) : ClaimOnly s (t.freeOrder k o) := by
  unfold State.freeOrder
  have h1 := ((h.setList o.channel ((t.list o.channel).filter (· ≠ k))).lcuForget k).leaveSet o.owner.port k
  dsimp only
  split
  · exact (h1.setLive _ _).setSlot _ _
  · exact h1.setSlot _ _

theorem freeIf (h : ClaimOnly s t) (who : Owner → Bool) (k : Nat) : ClaimOnly s (State.freeIf who t k) := by
  unfold State.freeIf
  split
  · exact ite (h.freeOrder _ _) h
  · exact h

theorem foldl {α : Type} (f : State → α → State) (hf : ∀ u a, ClaimOnly s u → ClaimOnly s (f u a)) :
    ∀ (l : List α) (u : State), ClaimOnly s u → ClaimOnly s (l.foldl f u) := by
  intro l
  induction l with
  | nil => exact fun _ h => h
  | cons a l ih => exact fun u h => ih _ (hf u a h)

theorem freeAll (h : ClaimOnly s t) (who : Owner → Bool) : ClaimOnly s (t.freeAll who) :=
  foldl _ (fun _ k hu => hu.freeIf who k) _ _ h

theorem resolveAll (h : ClaimOnly s t) (l : List Channel) : ClaimOnly s (t.resolveAll l) :=
  foldl _ (fun _ ch hu => hu.resolve ch none none) _ _ h

theorem freeAndResolve (h : ClaimOnly s t) (who : Owner → Bool) : ClaimOnly s (t.freeAndResolve who) :=
  (h.freeAll who).resolveAll _

theorem lapse (h : ClaimOnly s t) (k : Nat) : ClaimOnly s (t.lapse k) := by
  unfold State.lapse
  split
  · exact ((h.setOrder _ _).noteChange _ _).resolve _ _ _
  · exact h

theorem takeCondition (h : ClaimOnly s t) (k : Nat) (b : Bool) : ClaimOnly s (t.takeCondition k b) := by
  unfold State.takeCondition
  split
  · exact (h.setOrder _ _).resolve _ _ _
  · exact h

theorem placeAt (h : ClaimOnly s t) (p : Port) (k : Nat) (o : Order) : ClaimOnly s (t.placeAt p k o) := by
  unfold State.placeAt
  have h1 := ((h.setOrder k o).setLive p (t.live p + 1)).moveFront o.channel k
  exact (ite h1 (h1.restartLease _ _)).resolve _ _ _

theorem amendAt (h : ClaimOnly s t) (k : Nat) (o : Order) (first n : Nat) (front : Bool) :
    ClaimOnly s (t.amendAt k o first n front) := by
  unfold State.amendAt
  have h1 := fun o1 o2 => ite (c := o.termCount = 0) (h.setOrder k o1) (h.lcuReport k o2)
  have h2 := fun o1 o2 => ite (c := (inRun first n 5 : Prop)) ((h1 o1 o2).restartLease k o.lease) (h1 o1 o2)
  exact (ite ((h2 _ _).moveFront _ _) (h2 _ _)).resolve _ _ _

theorem writeKeeping (h : ClaimOnly s t) (ch : Channel) (v : Keeping) : ClaimOnly s (t.writeKeeping ch v) := by
  unfold State.writeKeeping
  split
  · exact h
  · split
    · exact h
    · exact ite h ((h.setOrder _ _).noteChange _ _)

theorem stopKeeping (h : ClaimOnly s t) (k : Nat) : ClaimOnly s (t.stopKeeping k) := by
  unfold State.stopKeeping
  split
  · exact ite h ((h.setOrder _ _).noteChange _ _)
  · exact h

theorem followLaw (h : ClaimOnly s t) : ClaimOnly s t.followLaw := by
  unfold State.followLaw
  split
  · exact ite h (h.setOrder _ _)
  · exact h

theorem dwellEnds (h : ClaimOnly s t) (k : Nat) (n : TermNo) : ClaimOnly s (t.dwellEnds k n) := by
  unfold State.dwellEnds
  split
  · exact h.lcuReport _ _
  · exact h

theorem sweepSlot (h : ClaimOnly s t) (about : Quantity → Bool) (k : Nat) : ClaimOnly s (State.sweepSlot about t k) := by
  unfold State.sweepSlot
  split
  · exact ite h (h.lcuReport _ _)
  · exact h

theorem sweep (h : ClaimOnly s t) (about : Quantity → Bool) : ClaimOnly s (t.sweep about) :=
  foldl _ (fun _ k hu => hu.sweepSlot about k) _ _ h

theorem brakeAxlePublish (h : ClaimOnly s t) : ClaimOnly s t.brakeAxlePublish := by
  unfold State.brakeAxlePublish
  exact ite (h.setLcu _ rfl) (ite (h.setBrakeAxle _) h)

theorem transportPublish (h : ClaimOnly s t) : ClaimOnly s t.transportPublish := by
  unfold State.transportPublish
  exact ite (ite (h.setLcu _ rfl) h) (ite (h.setLcu _ rfl) h)

theorem lcuPublish (h : ClaimOnly s t) : ClaimOnly s t.lcuPublish := (h.sweep _).brakeAxlePublish.transportPublish

end ClaimOnly

/-! Orders through claims that place and free nothing. -/

namespace SameOrders

variable {s t : State}

theorem handOver (h : SameOrders s t) (ch : Channel) : SameOrders s (t.handOver ch) := by
  refine h.trans (ofOtu ?_)
  unfold State.handOver
  split
  · rfl
  · split
    · exact (JobOnly.refl t).sqTake.otu
    · exact (JobOnly.refl t).acuTake.otu
    · exact (JobOnly.refl t).hrTake.otu
    · rfl

theorem resolveSlot (h : SameOrders s t) (q : Option Nat) {k : Nat} {o : Order} (e : t.order k = some o)
    (st : OrderState) : SameOrders s (t.resolveSlot q k o st) := by
  unfold State.resolveSlot
  split
  · exact h
  · have h1 := fun kp => h.setOrder (o' := { o with state := st, keeping := kp }) e rfl
    dsimp only
    split
    · exact h1 _
    · exact (h1 _).causes ((CausesOnly.refl _).noteChange _ _)

theorem resolveWalk (q : Option Nat) (l : List Nat) :
    ∀ (first : Bool) (u : State), SameOrders s u → SameOrders s (State.resolveWalk q l first u) := by
  induction l with
  | nil => exact fun _ _ h => h
  | cons k l ih =>
    intro first u h
    unfold State.resolveWalk
    split
    · next o e => exact ih _ _ (h.resolveSlot _ e _)
    · exact ih _ _ h

theorem resolve (h : SameOrders s t) (ch : Channel) (q a : Option Nat) : SameOrders s (t.resolve ch q a) := by
  have h1 := resolveWalk q (t.list ch) true t h
  unfold State.resolve
  dsimp only
  split
  · exact h1.handOver ch
  · exact h1

theorem resolveAll (h : SameOrders s t) (l : List Channel) : SameOrders s (t.resolveAll l) := by
  unfold State.resolveAll
  induction l generalizing t with
  | nil => exact h
  | cons ch l ih => exact ih (h.resolve ch none none)

theorem takeCondition (h : SameOrders s t) (k : Nat) (b : Bool) : SameOrders s (t.takeCondition k b) := by
  unfold State.takeCondition
  split
  · next o e => exact (h.setOrder (o' := { o with cond := b }) e rfl).resolve _ _ _
  · exact h

theorem lapse (h : SameOrders s t) (k : Nat) : SameOrders s (t.lapse k) := by
  unfold State.lapse
  split
  · next o e =>
    exact ((h.setOrder (k := k) e (by rfl)).causes ((CausesOnly.refl _).noteChange _ _)).resolve _ _ _
  · exact h

theorem lcuReport (h : SameOrders s t) {k : Nat} {o o' : Order} (e : t.order k = some o) (b : o'.body = o.body) :
    SameOrders s (t.lcuReport k o') := by
  unfold State.lcuReport
  dsimp only
  split
  · exact h.setOrder e b
  · refine (h.setOrder (o' := { o' with lcuCond := o'.termsTrue }) e (b ▸ rfl)).trans ⟨rfl, fun _ => rfl, fun _ => rfl, rfl, rfl⟩

theorem writeKeeping (h : SameOrders s t) (ch : Channel) (v : Keeping) : SameOrders s (t.writeKeeping ch v) := by
  unfold State.writeKeeping
  split
  · exact h
  · split
    · exact h
    · next o e =>
      split
      · exact h
      · exact (h.setOrder (o' := { o with keeping := v }) e rfl).causes ((CausesOnly.refl _).noteChange _ _)

end SameOrders

/-! The states of R10 after a walk. -/

/-- No eligible order stands before slot `k` on a list. -/
def State.noneBefore (s : State) (l : List Nat) (k : Nat) : Bool :=
  (l.takeWhile (· ≠ k)).all fun j => !(s.order j).any Order.eligible

theorem State.order_noteChange (s : State) (k j : Nat) (o : Order) : (s.noteChange k o).order j = s.order j := by
  unfold State.order
  rw [((CausesOnly.refl s).noteChange k o).otu]

/-- The order of the slot a walk visits takes its new state, with keeping NONE where it leaves GOVERNING. -/
def Order.resolved (o : Order) (first : Bool) : Order :=
  let st := o.stateBy first
  { o with state := st, keeping := if o.state = .governing ∧ st ≠ .governing then .none else o.keeping }

theorem State.order_resolveSlot {s : State} {k : Nat} {o : Order} (e : s.order k = some o) (q : Option Nat) (j : Nat)
    (first : Bool) :
    (s.resolveSlot q k o (o.stateBy first)).order j = if j = k then some (o.resolved first) else s.order j := by
  unfold State.resolveSlot Order.resolved
  by_cases hs : o.state = o.stateBy first
  · have hr : ({ o with
        state := o.stateBy first,
        keeping := if o.state = .governing ∧ o.stateBy first ≠ .governing then .none else o.keeping } : Order) = o := by
      rw [← hs]
      simp
    rw [if_pos hs, hr]
    split
    · next hj =>
      subst hj
      exact e
    · rfl
  · simp only [hs, if_false]
    have hk : ∀ kp, (s.setOrder k { o with state := o.stateBy first, keeping := kp }).order j =
        if j = k then some { o with state := o.stateBy first, keeping := kp } else s.order j :=
      fun kp => State.order_setOrder_live e _ j
    have hg : (o.state = .governing ∧ o.stateBy first ≠ .governing) ↔ o.state = .governing :=
      ⟨And.left, fun h => ⟨h, fun h' => hs (h.trans h'.symm)⟩⟩
    simp only [hg]
    split
    · exact hk _
    · rw [State.order_noteChange]
      exact hk _

/-- A walk of a list without repeats gives every order on it the state of R10, and leaves every other slot alone (R11). -/
theorem State.order_resolveWalk (q : Option Nat) (l : List Nat) (hl : l.Nodup) :
    ∀ (first : Bool) (s : State) (j : Nat),
      (State.resolveWalk q l first s).order j =
        if j ∈ l then (s.order j).map fun o => o.resolved (first && s.noneBefore l j) else s.order j := by
  induction l with
  | nil =>
    intro first s j
    simp [State.resolveWalk]
  | cons k l ih =>
    intro first s j
    have hk : k ∉ l := (List.nodup_cons.mp hl).1
    have hl' : l.Nodup := (List.nodup_cons.mp hl).2
    unfold State.resolveWalk
    split
    · next o e =>
      rw [ih hl']
      by_cases hj : j = k
      · subst hj
        simp only [hk, if_false, List.mem_cons, true_or, if_true]
        rw [State.order_resolveSlot e]
        simp [e, State.noneBefore]
      · have hne : ∀ i ∈ l.takeWhile (· ≠ j), i ≠ k := fun i hi h => hk (h ▸ (List.takeWhile_prefix _).subset hi)
        have hbefore : (s.resolveSlot q k o (o.stateBy first)).noneBefore l j = s.noneBefore l j := by
          unfold State.noneBefore
          rw [Bool.eq_iff_iff, List.all_eq_true, List.all_eq_true]
          refine forall₂_congr fun i hi => ?_
          rw [State.order_resolveSlot e, if_neg (hne i hi)]
        rw [hbefore, State.order_resolveSlot e, if_neg hj]
        have hcons : s.noneBefore (k :: l) j = (!o.eligible && s.noneBefore l j) := by
          simp [State.noneBefore, Ne.symm hj, e]
        rw [hcons]
        simp [hj, Bool.and_assoc]
    · next e =>
      rw [ih hl']
      by_cases hj : j = k
      · subst hj
        simp [hk, e]
      · have hcons : s.noneBefore (k :: l) j = s.noneBefore l j := by
          simp [State.noneBefore, Ne.symm hj, e]
        rw [hcons]
        simp [hj]

end Sys2Proof.Machine
end

