-- ==== Sys2Proof/Laws/Settling.lean ====
section
/-! SUPPORT. What the end of an event leaves alone, and the frame of an event. -/

namespace Sys2Proof.Machine

namespace SameStates

theorem refl (s : State) : SameStates s s := ⟨rfl, fun _ => rfl, fun _ => rfl, rfl, rfl⟩

theorem trans {s t u : State} (h : SameStates s t) (g : SameStates t u) : SameStates s u :=
  ⟨g.size.trans h.size, fun k => (g.inc k).trans (h.inc k), fun k => (g.still k).trans (h.still k),
   g.lists.trans h.lists, g.live.trans h.live⟩

variable {s t : State}

theorem ofOtu (h : t.otu = s.otu) : SameStates s t :=
  ⟨by rw [h], fun k => by unfold State.incarnation; rw [h], fun k => by unfold State.order; rw [h], by rw [h],
   by rw [h]⟩

theorem setOrder (h : SameStates s t) {k : Nat} {o o' : Order} (e : t.order k = some o) (b : o'.still = o.still) :
    SameStates s (t.setOrder k o') := by
  refine h.trans ⟨State.length_setOrder t k o', fun j => State.incarnation_setOrder t k j o', fun j => ?_, rfl, rfl⟩
  rw [State.order_setOrder_live e]
  split
  · next hj =>
    subst hj
    simp [e, b]
  · rfl

theorem otu {u : State} (h : SameStates s t) (g : u.otu = t.otu) : SameStates s u := h.trans (ofOtu g)

theorem lcuReport (h : SameStates s t) {k : Nat} {o o' : Order} (e : t.order k = some o) (b : o'.still = o.still) :
    SameStates s (t.lcuReport k o') := by
  unfold State.lcuReport
  dsimp only
  split
  · exact h.setOrder e b
  · exact (h.setOrder (o' := { o' with lcuCond := o'.termsTrue }) e (b ▸ rfl)).otu rfl

theorem take_still (t : Term) (now : Time) (v : Option Nat) :
    ({ t.take now v with eval := none } : Term) = { t with eval := none } := by
  unfold Term.take
  split <;> (try split) <;> rfl

theorem sweepTerm_still (s : State) (about : Quantity → Bool) (t : Term) :
    ({ s.sweepTerm about t with eval := none } : Term) = { t with eval := none } := by
  unfold State.sweepTerm
  split
  · split
    · exact take_still _ _ _
    · rfl
  · rfl

theorem sweepSlot (h : SameStates s t) (about : Quantity → Bool) (k : Nat) :
    SameStates s (State.sweepSlot about t k) := by
  unfold State.sweepSlot
  split
  · next o e =>
    split
    · exact h
    · refine h.lcuReport e ?_
      unfold Order.still
      simp only [sweepTerm_still]
  · exact h

theorem sweep (h : SameStates s t) (about : Quantity → Bool) : SameStates s (t.sweep about) := by
  unfold State.sweep
  generalize List.range 48 = l
  induction l generalizing t with
  | nil => exact h
  | cons k l ih => exact ih (h.sweepSlot about k)

theorem writeKeeping (h : SameStates s t) (ch : Channel) (v : Keeping) : SameStates s (t.writeKeeping ch v) := by
  unfold State.writeKeeping
  split
  · exact h
  · split
    · exact h
    · next o e =>
      split
      · exact h
      · exact (h.setOrder (o' := { o with keeping := v }) e rfl).otu ((CausesOnly.refl _).noteChange _ _).otu

/-- The same states are the same orders. -/
theorem orders (h : SameStates s t) : SameOrders s t := by
  refine ⟨h.size, h.inc, fun k => ?_, h.lists, h.live⟩
  have e : ∀ o : Option Order, o.map Order.body =
      (o.map Order.still).map fun o => { o with state := .dormant, cond := false } := by
    intro o
    cases o <;> rfl
  rw [e, e, h.still k]

end SameStates

namespace SettleOnly

theorem refl (s : State) : SettleOnly s s :=
  ⟨rfl, rfl, rfl, rfl, rfl, rfl, rfl, rfl, ⟨rfl, rfl, rfl⟩, rfl, fun _ => rfl, rfl, rfl, rfl, fun _ => rfl, fun _ => rfl,
   .refl _, fun _ => .refl _, [], (List.append_nil _).symm⟩

theorem trans {s t u : State} (h : SettleOnly s t) (g : SettleOnly t u) : SettleOnly s u where
  pending := g.pending.trans h.pending
  inputs := g.inputs.trans h.inputs
  cs := g.cs.trans h.cs
  flow := g.flow.trans h.flow
  hr := g.hr.trans h.hr
  fu := g.fu.trans h.fu
  now := g.now.trans h.now
  leases := g.leases.trans h.leases
  fixed := ⟨g.fixed.1.trans h.fixed.1, g.fixed.2.1.trans h.fixed.2.1, g.fixed.2.2.trans h.fixed.2.2⟩
  mu := by rw [g.mu, h.mu]
  speed := fun ch => by rw [g.speed ch, h.speed ch]
  acu := by rw [g.acu, h.acu]
  tbu := by rw [g.tbu, h.tbu]
  sq := by rw [g.sq, h.sq]
  clutch := fun c => by rw [g.clutch c, h.clutch c]
  os := fun ch => by rw [g.os ch, h.os ch]
  states := h.states.trans g.states
  ports := fun p => (h.ports p).trans (g.ports p)
  reports := by
    obtain ⟨l, hl⟩ := h.reports
    obtain ⟨m, hm⟩ := g.reports
    exact ⟨l ++ m, by rw [hm, hl, List.append_assoc]⟩

variable {s t : State}

theorem ofCauses (h : CausesOnly s t) : SettleOnly s t where
  pending := h.pending
  inputs := h.inputs
  cs := h.cs
  flow := h.flow
  hr := h.hr
  fu := h.fu
  now := by rw [h.lcu]
  leases := by rw [h.lcu]
  fixed := by rw [h.lcu]; exact ⟨rfl, rfl, rfl⟩
  mu := by rw [h.mu]
  speed := fun ch => by rw [h.mu]
  acu := by rw [h.acu]
  tbu := by rw [h.tbu]
  sq := by rw [h.sq]
  clutch := fun c => by rw [h.sq]
  os := fun ch => by rw [h.os]
  states := .ofOtu h.otu
  ports := h.ports
  reports := by rw [h.lcu]; exact (refl s).reports

theorem osGuard (h : SettleOnly s t) : SettleOnly s t.osGuard := by
  refine h.trans { refl t with states := .ofOtu rfl, ports := fun _ => .refl _, os := fun ch => ?_ }
  unfold State.osGuard
  rw [ByOut.get_tabulate]
  dsimp only
  split <;> rfl

theorem sqGuard (h : SettleOnly s t) : SettleOnly s t.sqGuard := h.trans { refl t with states := .ofOtu rfl, ports := fun _ => .refl _, sq := rfl }

theorem lcuReport (h : SettleOnly s t) {k : Nat} {o o' : Order} (e : t.order k = some o) (b : o'.still = o.still) :
    SettleOnly s (t.lcuReport k o') := by
  have g := SameStates.lcuReport (SameStates.refl t) e b
  refine h.trans ?_
  unfold State.lcuReport at g ⊢
  dsimp only at g ⊢
  by_cases hc : o'.termsTrue = o'.lcuCond
  · rw [if_pos hc] at g ⊢
    exact { refl t with states := g }
  · rw [if_neg hc] at g ⊢
    exact { refl t with states := g, reports := ⟨_, rfl⟩ }

theorem sweepSlot (h : SettleOnly s t) (about : Quantity → Bool) (k : Nat) :
    SettleOnly s (State.sweepSlot about t k) := by
  unfold State.sweepSlot
  split
  · next o e =>
    split
    · exact h
    · refine h.lcuReport e ?_
      unfold Order.still
      simp only [SameStates.sweepTerm_still]
  · exact h

theorem sweep (h : SettleOnly s t) (about : Quantity → Bool) : SettleOnly s (t.sweep about) := by
  unfold State.sweep
  generalize List.range 48 = l
  induction l generalizing t with
  | nil => exact h
  | cons k l ih => exact ih (h.sweepSlot about k)

theorem gearReport (h : SettleOnly s t) (old : Sq) : SettleOnly s (t.gearReport old) := by
  unfold State.gearReport
  have h1 : SettleOnly s (if t.sq.record = old.record then t else t.setCauseBoth .gear) := by
    split
    · exact h
    · exact h.trans (ofCauses ((CausesOnly.refl t).setCauseBoth .gear))
  dsimp only
  split
  · exact h1
  · exact h1.sweep _

theorem followLost (h : SettleOnly s t) : SettleOnly s t.followLost := by
  refine h.trans { refl t with states := .ofOtu rfl, ports := fun _ => .refl _, mu := rfl, speed := fun ch => ?_ }
  unfold State.followLost
  rw [BySpeed.get_tabulate]

theorem followMismatch (h : SettleOnly s t) : SettleOnly s t.followMismatch :=
  h.trans { refl t with states := .ofOtu rfl, ports := fun _ => .refl _, mu := rfl }

theorem unitGuards (h : SettleOnly s t) : SettleOnly s t.unitGuards :=
  h.trans { refl t with states := .ofOtu rfl, ports := fun _ => .refl _, acu := rfl, tbu := rfl }

theorem clutchCurrents (h : SettleOnly s t) : SettleOnly s t.clutchCurrents := by
  refine h.trans { refl t with states := .ofOtu rfl, ports := fun _ => .refl _, sq := rfl, clutch := fun c => ?_ }
  unfold State.clutchCurrents
  rw [ByClutch.get_tabulate]

theorem handSetpoints (h : SettleOnly s t) : SettleOnly s t.handSetpoints := by
  unfold State.handSetpoints
  split
  · refine h.trans { refl t with states := .ofOtu rfl, ports := fun _ => .refl _, os := fun ch => ?_ }
    rw [ByOut.get_tabulate]
  · exact h

theorem writeKeeping (h : SettleOnly s t) (ch : Channel) (v : Keeping) : SettleOnly s (t.writeKeeping ch v) := by
  unfold State.writeKeeping
  split
  · exact h
  · next k _ =>
    split
    · exact h
    · next o e =>
      split
      · exact h
      · refine h.trans ?_
        have h1 : SettleOnly t (t.setOrder k { o with keeping := v }) :=
          { refl t with states := SameStates.setOrder (SameStates.refl t) e rfl }
        exact h1.trans (ofCauses ((CausesOnly.refl _).noteChange k o))

theorem keepAll (h : SettleOnly s t) : SettleOnly s t.keepAll := by
  unfold State.keepAll
  split
  · exact (((h.writeKeeping _ _).writeKeeping _ _).writeKeeping _ _).writeKeeping _ _
  · exact h

/-- All that `settle` can do. -/
theorem settle (h : SettleOnly s t) (old : Sq) : SettleOnly s (t.settle old) :=
  (((((((h.osGuard.sqGuard).gearReport old).followLost).followMismatch).unitGuards).clutchCurrents).handSetpoints).keepAll

end SettleOnly

namespace EventOnly

theorem refl (s : State) : EventOnly s s := ⟨rfl, rfl, rfl, rfl, fun _ => .refl _⟩

theorem trans {s t u : State} (h : EventOnly s t) (g : EventOnly t u) : EventOnly s u :=
  ⟨g.pending.trans h.pending, g.inputs.trans h.inputs, g.cs.trans h.cs, g.now.trans h.now,
   fun p => (h.ports p).trans (g.ports p)⟩

variable {s t u : State}

theorem ofClaim (h : ClaimOnly s t) : EventOnly s t := ⟨h.pending, h.inputs, h.cs, h.now, h.ports⟩

theorem ofDetect (h : DetectOnly s t) : EventOnly s t := ⟨h.pending, h.inputs, h.cs, by rw [h.lcu], h.ports⟩

theorem ofJob (h : JobOnly s t) : EventOnly s t := ofDetect (.ofJob h)

theorem ofSettle (h : SettleOnly s t) : EventOnly s t := ⟨h.pending, h.inputs, h.cs, h.now, h.ports⟩

theorem claim (h : EventOnly s t) (g : ClaimOnly t u) : EventOnly s u := h.trans (ofClaim g)

theorem detected (h : EventOnly s t) (g : DetectOnly t u) : EventOnly s u := h.trans (ofDetect g)

theorem job (h : EventOnly s t) (g : JobOnly t u) : EventOnly s u := h.trans (ofJob g)

theorem causes (h : EventOnly s t) (g : CausesOnly t u) : EventOnly s u := h.claim (.ofCauses g)

theorem settle (h : EventOnly s t) (old : Sq) : EventOnly s (t.settle old) :=
  h.trans (ofSettle ((SettleOnly.refl t).settle old))

/-- An event keeps what its effect keeps. -/
theorem event {f : State → State} (hf : EventOnly s (f s)) (c : Bool) : EventOnly s (s.event c f) := by
  unfold State.event
  split
  · exact hf.settle _
  · exact refl s

end EventOnly

/-- An event whose condition holds has its effect and is settled. -/
theorem State.event_pos {s : State} {c : Bool} (h : c = true) (f : State → State) :
    s.event c f = (f s).settle s.sq := by
  simp [State.event, h]

/-- An event whose condition does not hold changes nothing (log 4). -/
theorem State.event_neg {s : State} {c : Bool} (h : c = false) (f : State → State) : s.event c f = s := by
  simp [State.event, h]

/-! Ends of times (log 3). -/

/-- A time that has come is taken in the state as it stands. -/
theorem State.reach_due {s : State} {due : State → Bool} (h : due s = true) : s.reach due = s := by
  simp [State.reach, h]

/-- All that `reach` can do: nothing, or the turn of the timebase that brings the time. -/
theorem State.reach_cases (s : State) (due : State → Bool) :
    s.reach due = s ∨
      due s = false ∧ s.mu.published = true ∧ due s.turned = true ∧ s.reach due = s.turned := by
  unfold State.reach
  split
  · next h =>
    simp only [Bool.and_eq_true, Bool.not_eq_true'] at h
    exact .inr ⟨h.1.1, h.1.2, h.2, rfl⟩
  · exact .inl rfl

/-- The end of a time that has come has its effect and is settled. -/
theorem State.expire_due {s : State} {due : State → Bool} (h : due s = true) (f : State → State) :
    s.expire due f = (f s).settle s.sq := by
  unfold State.expire
  rw [State.reach_due h]
  exact State.event_pos h f

/-- The end of a time that comes with the next millisecond is taken as in the state in which that millisecond has come. -/
theorem State.expire_turned {s : State} {due : State → Bool} (now : due s = false) (published : s.mu.published = true)
    (next : due s.turned = true) (f : State → State) : s.expire due f = s.turned.expire due f := by
  unfold State.expire
  rw [State.reach_due next]
  simp [State.reach, now, published, next]

/-- The end of a time that has not come and does not come with the next millisecond changes nothing (log 4). -/
theorem State.expire_none {s : State} {due : State → Bool} (now : due s = false)
    (next : (s.mu.published && due s.turned) = false) (f : State → State) : s.expire due f = s := by
  unfold State.expire
  have h : s.reach due = s := by
    unfold State.reach
    simp [now, next]
  rw [h, State.event_neg now]

/-- The turn of the timebase, but for what follows from it. -/
theorem State.turned_settled (s : State) : SettleOnly s.tick s.turned := (SettleOnly.refl s.tick).settle s.sq

@[simp] theorem State.turned_now (s : State) : s.turned.now = s.now + 1 := s.turned_settled.now

@[simp] theorem State.turned_published (s : State) : s.turned.mu.published = false := by
  rw [s.turned_settled.mu]
  rfl

end Sys2Proof.Machine
end

