-- ==== Sys2Proof/Laws/Flow.lean ====
section
/-! SUPPORT. The Flow Arbiter keeps its budget: a grant pass, and each operation that runs one. -/

namespace Sys2Proof.Machine

/-- What is granted in all. -/
def Flow.granted (f : Flow) : Nat := f.fill.granted + f.axle.granted + f.liftGranted

theorem Flow.serveFill_fits (f : Flow) (b : Nat) (h : f.granted ≤ b) : (f.serveFill b).granted ≤ b := by
  unfold Flow.serveFill serve Flow.available
  unfold Flow.granted at *
  split
  · dsimp only
    split
    · next hs =>
      simp only [decide_eq_true_eq] at hs
      simp only [FlowEntry.grant]
      omega
    · omega
  · exact h

theorem Flow.serveAxle_fits (f : Flow) (b : Nat) (h : f.granted ≤ b) : (f.serveAxle b).granted ≤ b := by
  unfold Flow.serveAxle serve Flow.available
  unfold Flow.granted at *
  split
  · dsimp only
    split
    · next hs =>
      simp only [decide_eq_true_eq] at hs
      simp only [FlowEntry.grant]
      omega
    · omega
  · exact h

theorem Flow.serveLift_fits (f : Flow) (b : Nat) (h : f.granted ≤ b) : (f.serveLift b).granted ≤ b := by
  unfold Flow.serveLift
  unfold Flow.granted at *
  split
  · exact h
  · dsimp only
    omega

/-- A grant pass never grants more than its budget (R61, R65, R66). -/
theorem Flow.pass_fits (f : Flow) (b : Nat) (h : f.granted ≤ b) : (f.pass b).granted ≤ b := by
  unfold Flow.pass
  dsimp only
  split
  · exact Flow.serveLift_fits _ _ h
  · exact Flow.serveLift_fits _ _ (Flow.serveAxle_fits _ _ (Flow.serveFill_fits _ _ h))

/-- A pass over nothing asked grants nothing. -/
theorem Flow.pass_idle (f : Flow) (b : Nat) (h1 : f.fill.state = .idle) (h2 : f.axle.state = .idle)
    (h3 : f.liftAsked = 0) : f.pass b = { f with liftGranted := 0 } := by
  have e1 : f.serveFill b = f := by simp [Flow.serveFill, h1]
  have e2 : f.serveAxle b = f := by simp [Flow.serveAxle, h2]
  unfold Flow.pass
  rw [e1, e2]
  simp [Flow.serveLift, h1, h2, h3]

/-- An idle fill entry stays as it is through a pass. -/
theorem Flow.pass_fill_idle (f : Flow) (b : Nat) (h : f.fill.state = .idle) : (f.pass b).fill = f.fill := by
  have e1 : f.serveFill b = f := by simp [Flow.serveFill, h]
  have e2 : (f.serveAxle b).fill = f.fill := by
    unfold Flow.serveAxle
    split <;> rfl
  have e3 : ∀ g : Flow, (g.serveLift b).fill = g.fill := by
    intro g
    unfold Flow.serveLift
    split <;> rfl
  unfold Flow.pass
  dsimp only
  split
  · exact e3 f
  · rw [e1, e3, e2]

/-- An idle axle entry stays as it is through a pass. -/
theorem Flow.pass_axle_idle (f : Flow) (b : Nat) (h : f.axle.state = .idle) : (f.pass b).axle = f.axle := by
  have e1 : (f.serveFill b).axle = f.axle := by
    unfold Flow.serveFill
    split <;> rfl
  have e2 : ((f.serveFill b).serveAxle b).axle = f.axle := by
    unfold Flow.serveAxle
    rw [e1, h]
    simp [e1]
  have e3 : ∀ g : Flow, (g.serveLift b).axle = g.axle := by
    intro g
    unfold Flow.serveLift
    split <;> rfl
  unfold Flow.pass
  dsimp only
  split
  · exact e3 f
  · rw [e3, e2]

/-! The fields a grant pass moves. -/

/-- A pass sets the flow by `Flow.pass` and nothing else of it. -/
theorem State.grantPass_flow (s : State) : s.grantPass.flow = s.flow.pass (flowBudget s.items) := by
  have fillFlow : ∀ t : State, t.sqFillGranted.flow = t.flow := by
    intro t
    unfold State.sqFillGranted
    split
    · split <;> rfl
    · rfl
  have axleFlow : ∀ t : State, t.acuAxleGranted.flow = t.flow := by
    intro t
    unfold State.acuAxleGranted
    split <;> rfl
  unfold State.grantPass
  dsimp only
  repeat' split
  all_goals simp only [State.hrSync, axleFlow, fillFlow]

theorem Hr.followStall_mode (h : Hr) (now : Time) (p : Option Nat) : (h.followStall now p).mode = h.mode := by
  unfold Hr.followStall
  split <;> rfl

/-- In HOLD a pass leaves the mode alone. -/
theorem State.grantPass_hold (s : State) (h : s.hr.mode = .hold) : s.grantPass.hr.mode = .hold := by
  have fillHr : ∀ t : State, t.sqFillGranted.hr = t.hr := by
    intro t
    unfold State.sqFillGranted
    split
    · split <;> rfl
    · rfl
  have axleHr : ∀ t : State, t.acuAxleGranted.hr = t.hr := by
    intro t
    unfold State.acuAxleGranted
    split <;> rfl
  have sync : ∀ t : State, t.hr.mode = .hold → t.hrSync.hr.mode = .hold := by
    intro t ht
    unfold State.hrSync
    dsimp only
    rw [Hr.followStall_mode]
    simp [ht]
  unfold State.grantPass
  dsimp only
  repeat' split
  all_goals first | apply sync | skip
  all_goals simp only [axleHr, fillHr, h]

/-! The invariant through the job units' work. -/

namespace State.FlowSafe

variable {s : State}

/-- The invariant depends on the store, the flow and the mode of the Hitch Regulator alone. -/
theorem congr {t : State} (h : s.FlowSafe) (cs : t.cs = s.cs) (flow : t.flow = s.flow)
    (mode : s.running = false → t.hr.mode = s.hr.mode) : t.FlowSafe := by
  have hi : t.items = s.items := by
    unfold State.items
    rw [cs]
  have hr : t.running = s.running := by
    unfold State.running
    rw [cs]
  refine ⟨?_, ?_, ?_, fun hc => ?_⟩
  · rw [flow, hi]
    exact h.fits
  · rw [hi]
    exact h.reserve
  · rw [hi]
    exact h.capacity
  · rw [hr] at hc
    rw [flow, mode hc]
    exact h.config hc

theorem budget (h : s.FlowSafe) : s.flow.granted ≤ flowBudget s.items := by
  have := h.fits
  unfold flowBudget Flow.granted
  omega

/-- A flow that grants no more, and in CONFIG asks nothing either. -/
theorem setFlow (h : s.FlowSafe) (f : Flow) (g : f.granted ≤ flowBudget s.items)
    (c : s.running = false → f.fill.granted = 0 ∧ f.axle.granted = 0 ∧ f.liftGranted = 0 ∧ f.liftAsked = 0 ∧
      f.fill.state = .idle ∧ f.axle.state = .idle) : ({ s with flow := f } : State).FlowSafe := by
  refine ⟨?_, h.reserve, h.capacity, fun hc => ?_⟩
  · have := h.capacity
    have := h.reserve
    unfold flowBudget Flow.granted at g
    show f.fill.granted + f.axle.granted + f.liftGranted + flowReserve s.items ≤ flowCapacity s.items
    omega
  · obtain ⟨a1, a2, a3, a4, a5, a6⟩ := c hc
    exact ⟨a1, a2, a3, a4, a5, a6, (h.config hc).2.2.2.2.2.2⟩

theorem setSq (h : s.FlowSafe) (q : Sq) : ({ s with sq := q } : State).FlowSafe := h.congr rfl rfl fun _ => rfl

theorem setAcu (h : s.FlowSafe) (a : Acu) : ({ s with acu := a } : State).FlowSafe := h.congr rfl rfl fun _ => rfl

theorem setHr (h : s.FlowSafe) (r : Hr) (m : s.running = true ∨ r.mode = s.hr.mode) :
    ({ s with hr := r } : State).FlowSafe :=
  h.congr rfl rfl fun hc => m.elim (fun e => absurd (e.symm.trans hc) Bool.noConfusion) id

theorem ite {c : Prop} [Decidable c] {a b : State} (ha : a.FlowSafe) (hb : b.FlowSafe) :
    (if c then a else b).FlowSafe := by
  split
  · exact ha
  · exact hb

/-- A grant pass. -/
theorem grantPass (h : s.FlowSafe) : s.grantPass.FlowSafe := by
  have j := (JobOnly.refl s).grantPass
  have hf := State.grantPass_flow s
  have hb := Flow.pass_fits s.flow (flowBudget s.items) h.budget
  have h1 : ({ s with flow := s.flow.pass (flowBudget s.items) } : State).FlowSafe := by
    refine h.setFlow _ hb fun hc => ?_
    obtain ⟨c1, c2, c3, c4, c5, c6, _⟩ := h.config hc
    rw [Flow.pass_idle _ _ c5 c6 c4]
    exact ⟨c1, c2, rfl, c4, c5, c6⟩
  refine h1.congr j.cs hf fun hc => ?_
  have hm := (h.config hc).2.2.2.2.2.2
  rw [State.grantPass_hold s hm]
  exact hm.symm

/-- The flow with its fill entry idle. -/
theorem idleFill (h : s.FlowSafe) :
    ({ s with flow := { s.flow with fill := .idle, fillSite := none } } : State).FlowSafe := by
  refine h.setFlow _ ?_ fun hc => ?_
  · have := h.budget
    unfold Flow.granted FlowEntry.idle at *
    dsimp only at *
    omega
  · obtain ⟨_, c2, c3, c4, _, c6, _⟩ := h.config hc
    exact ⟨rfl, c2, c3, c4, rfl, c6⟩

/-- The flow with its axle entry idle. -/
theorem idleAxle (h : s.FlowSafe) : ({ s with flow := { s.flow with axle := .idle } } : State).FlowSafe := by
  refine h.setFlow _ ?_ fun hc => ?_
  · have := h.budget
    unfold Flow.granted FlowEntry.idle at *
    dsimp only at *
    omega
  · obtain ⟨c1, _, c3, c4, c5, _, _⟩ := h.config hc
    exact ⟨c1, rfl, c3, c4, c5, rfl⟩

theorem releaseFill (h : s.FlowSafe) : s.releaseFill.FlowSafe := ite h h.idleFill.grantPass

theorem releaseAxle (h : s.FlowSafe) : s.releaseAxle.FlowSafe := ite h h.idleAxle.grantPass

theorem freeFill (h : s.FlowSafe) : s.freeFill.FlowSafe := ite h.releaseFill h

theorem freeAxle (h : s.FlowSafe) : s.freeAxle.FlowSafe := ite h.releaseAxle h

theorem putFill (h : s.FlowSafe) (r : s.running = true) (n : Nat) (c : Clutch) : (s.putFill n c).FlowSafe := by
  refine grantPass (h.setFlow _ ?_ fun hc => absurd (r.symm.trans hc) Bool.noConfusion)
  have := h.budget
  unfold Flow.granted at *
  unfold Flow.request
  dsimp only
  omega

theorem putAxle (h : s.FlowSafe) (r : s.running = true) (n : Nat) : (s.putAxle n).FlowSafe := by
  refine grantPass (h.setFlow _ ?_ fun hc => absurd (r.symm.trans hc) Bool.noConfusion)
  have := h.budget
  unfold Flow.granted at *
  unfold Flow.request
  dsimp only
  omega

theorem askFill (h : s.FlowSafe) (r : s.running = true) (n : Nat) (c : Clutch) : (s.askFill n c).FlowSafe :=
  putFill h.freeFill (((JobOnly.refl s).freeFill).running.trans r) n c

theorem askAxle (h : s.FlowSafe) (r : s.running = true) (n : Nat) : (s.askAxle n).FlowSafe :=
  putAxle h.freeAxle (((JobOnly.refl s).freeAxle).running.trans r) n

theorem askLift (h : s.FlowSafe) (n : Nat) (r : s.running = true ∨ n = 0) : (s.askLift n).FlowSafe := by
  unfold State.askLift
  refine ite h (grantPass (h.setFlow _ ?_ fun hc => ?_))
  · have := h.budget
    unfold Flow.granted at *
    dsimp only
    omega
  · obtain ⟨c1, c2, c3, _, c5, c6, _⟩ := h.config hc
    have hn : n = 0 := r.elim (fun e => absurd (e.symm.trans hc) Bool.noConfusion) id
    subst hn
    exact ⟨c1, c2, Nat.min_zero _, rfl, c5, c6⟩

theorem followHold (h : s.FlowSafe) : s.followHold.FlowSafe := by
  unfold State.followHold
  refine ite h (ite ?_ ?_)
  · refine grantPass (h.setFlow _ h.budget fun hc => ?_)
    obtain ⟨c1, c2, c3, c4, c5, c6, _⟩ := h.config hc
    exact ⟨c1, c2, c3, c4, c5, c6⟩
  · have e : ∀ (x : FlowEntry) (n : Time), (x.rewait n).granted = x.granted ∧ (x.rewait n).state = x.state := by
      intro x n
      unfold FlowEntry.rewait
      split <;> exact ⟨rfl, rfl⟩
    refine grantPass (h.setFlow _ ?_ fun hc => ?_)
    · have := h.budget
      unfold Flow.granted at *
      simp only [e]
      exact this
    · obtain ⟨c1, c2, c3, c4, c5, c6, _⟩ := h.config hc
      simp only [e]
      exact ⟨c1, c2, c3, c4, c5, c6⟩

theorem acuCoupling (h : s.FlowSafe) (c : Coupling) : (s.acuCoupling c).FlowSafe := h.setAcu _

theorem acuEngage (h : s.FlowSafe) : s.acuEngage.FlowSafe := by
  unfold State.acuEngage
  split
  · exact (h.acuCoupling _).releaseAxle
  · exact (h.setAcu _).releaseAxle
  · exact h.setAcu _
  · exact h
  · exact h

theorem acuRelease (h : s.FlowSafe) : s.acuRelease.FlowSafe := by
  unfold State.acuRelease
  split
  · split
    · next hc =>
      simp only [Bool.and_eq_true] at hc
      exact askAxle (h.acuCoupling .releaseWait) hc.1.1 _
    · exact h
  · exact ite (h.acuCoupling _).releaseAxle h
  · exact h
  · exact h
  · exact h

theorem acuFollow (h : s.FlowSafe) : s.acuFollow.FlowSafe := ite h (ite h.acuRelease h.acuEngage)

theorem acuTake (h : s.FlowSafe) : s.acuTake.FlowSafe := (h.setAcu _).acuFollow

theorem acuPublish (h : s.FlowSafe) (was : Bool) : (s.acuPublish was).FlowSafe := ite (h.setAcu _).acuFollow h

theorem acuEnableFall (h : s.FlowSafe) : s.acuEnableFall.FlowSafe := ite h.acuEngage h

theorem hrSync (h : s.FlowSafe) : s.hrSync.FlowSafe := by
  by_cases hr : s.running = true
  · exact h.setHr _ (.inl hr)
  · refine h.setHr _ (.inr ?_)
    have hm := (h.config (Bool.eq_false_iff.mpr hr)).2.2.2.2.2.2
    dsimp only
    rw [Hr.followStall_mode]
    simp [hm]

theorem move_mode (r : Hr) (items : List (List Word)) (now : Time) (p : Nat) (m : Motion) :
    (r.move items now p m).mode = r.mode := by
  unfold Hr.move
  split
  · split <;> rfl
  · rfl

theorem hrMove {m : Motion} (h : s.FlowSafe) (r : s.running = true ∨ m ≠ .raise) : (s.hrMove m).FlowSafe := by
  unfold State.hrMove
  refine hrSync (askLift (h.setHr _ (.inr ?_)) _ ?_)
  · exact move_mode _ _ _ _ _
  · exact r.imp id fun hm => by simp [hm]

theorem hrEnterHold (h : s.FlowSafe) : s.hrEnterHold.FlowSafe := by
  unfold State.hrEnterHold
  refine hrMove (m := .idle) (h.congr rfl rfl fun hc => ?_) (.inr (by decide))
  exact (h.config hc).2.2.2.2.2.2.symm

theorem hrRegulate (h : s.FlowSafe) (r : s.running = true) : s.hrRegulate.FlowSafe :=
  hrMove (h.setHr _ (.inl r)) (.inl r)

theorem hrCorrect (h : s.FlowSafe) (r : s.running = true) : s.hrCorrect.FlowSafe :=
  ite (h.setHr _ (.inl r)) (hrMove (h.setHr _ (.inl r)) (.inl r))

theorem hrTransport (h : s.FlowSafe) (r : s.running = true) : s.hrTransport.FlowSafe := by
  unfold State.hrTransport
  exact ite (ite (hrCorrect (h.setHr _ (.inl r)) r) (h.setHr _ (.inl r)))
    (ite (hrMove (h.setHr _ (.inl r)) (.inl r)) (hrMove (h.setHr _ (.inl r)) (.inl r)))

theorem hrWork (h : s.FlowSafe) (r : s.running = true) : s.hrWork.FlowSafe :=
  ite (hrMove (h.setHr _ (.inl r)) (.inl r)) (hrRegulate (h.setHr _ (.inl r)) r)

/-- Outside HOLD the device is in RUN. -/
theorem running_of_work (h : ¬ s.hrHold = true) : s.running = true := by
  unfold State.hrHold at h
  simp only [Bool.or_eq_true, not_or] at h
  simpa using h.1.1.1.1.1.1.1

theorem hrRefresh (h : s.FlowSafe) : s.hrRefresh.FlowSafe := by
  unfold State.hrRefresh
  split
  · exact ite h h.hrEnterHold
  · next hh =>
    have r := running_of_work hh
    exact ite (hrWork (h.setHr _ (.inl r)) r) (ite (hrMove (h.setHr _ (.inl r)) (.inl r)) h)

theorem hrFreeze (h : s.FlowSafe) : s.hrFreeze.FlowSafe := h.setHr _ (.inr rfl)

theorem hrUnfreeze (h : s.FlowSafe) : s.hrUnfreeze.FlowSafe := h.setHr _ (.inr rfl)

theorem hrPublish (h : s.FlowSafe) (lowering : Bool) : (s.hrPublish lowering).FlowSafe := by
  unfold State.hrPublish
  split
  · exact h
  · next hr =>
    have r : s.running = true := by simpa using hr
    have h1 := hrRefresh (h.setHr
      { s.hr.trimPublish s.now s.slipOver with
        frozenLost := s.hr.frozenLost || (s.sq.flags.draftFreeze && s.pub.draft.isNone) } (.inl r))
    have r1 := ((JobOnly.refl { s with
      hr := { s.hr.trimPublish s.now s.slipOver with
        frozenLost := s.hr.frozenLost || (s.sq.flags.draftFreeze && s.pub.draft.isNone) } }).hrRefresh).running.trans r
    dsimp only
    refine ite h1 ?_
    split
    · exact setHr (hrTransport h1 r1) _ (.inl (((JobOnly.refl _).hrTransport).running.trans r1))
    · split
      · exact setHr h1 _ (.inl r1)
      · exact setHr (hrRegulate h1 r1) _ (.inl (((JobOnly.refl _).hrRegulate).running.trans r1))

theorem trimTake_mode (r : Hr) (now : Time) (b : Bool) : (r.trimTake now b).mode = r.mode := by
  unfold Hr.trimTake Hr.fall
  split
  · split <;> rfl
  · rfl

/-- The hand-over from the point where the order and the trim are taken: in HOLD the mode is as it was. -/
theorem hrTaken (r : Hr) (other : Bool) (h : ({ s with hr := r } : State).FlowSafe) :
    (let t : State := { s with hr := r }
     if t.hrHold then
       if t.hr.mode ≠ .hold then t.hrEnterHold
       else if other && t.hr.holdMode then { t with hr := { t.hr with holdPos := t.pub.position } } else t
     else ({ t with hr := { t.hr with holdPos := none } }).hrWork).FlowSafe := by
  dsimp only
  split
  · exact ite h.hrEnterHold (ite (h.setHr _ (.inr rfl)) h)
  · next hh =>
    have r1 := running_of_work hh
    exact hrWork (h.setHr _ (.inl r1)) r1

theorem hrTake (h : s.FlowSafe) : s.hrTake.FlowSafe := by
  have e : ∀ r : Hr, r.mode = s.hr.mode → ({ s with hr := r } : State).FlowSafe := fun r he => h.setHr _ (.inr he)
  unfold State.hrTake
  dsimp only
  refine hrTaken _ _ (e _ ?_)
  rw [trimTake_mode]
  repeat' split
  all_goals rfl

theorem clearFlags (h : s.FlowSafe) : s.clearFlags.FlowSafe := by
  have h1 := ite (c := (s.sq.flags.draftFreeze : Prop)) (h.setSq { s.sq with flags := .clear }).hrUnfreeze
    (h.setSq { s.sq with flags := .clear })
  exact ite h1.acuFollow h1

theorem inchEntry (h : s.FlowSafe) : s.inchEntry.FlowSafe := by
  unfold State.inchEntry
  split
  · exact ite h (h.setSq _)
  · exact h

theorem abandonHead (h : s.FlowSafe) : s.abandonHead.FlowSafe := by
  unfold State.abandonHead
  split
  · exact inchEntry (clearFlags (ite (h.setSq _).releaseFill (h.setSq _)))
  · exact h

theorem setQueue (h : s.FlowSafe) (l : List GearStep) : (s.setQueue l).FlowSafe := h.setSq _

theorem setHead (h : s.FlowSafe) (st : GearStep) : (s.setHead st).FlowSafe := h.setSq _

theorem abandonRebuild (h : s.FlowSafe) : s.abandonRebuild.FlowSafe := h.abandonHead.setQueue _

theorem rebuild (h : s.FlowSafe) : s.rebuild.FlowSafe := by
  unfold State.rebuild
  refine ite h ?_
  split
  · exact h.setQueue _
  · refine ite (h.setQueue _) ?_
    split
    · exact ite (h.setQueue _) h.abandonRebuild
    · exact h.abandonRebuild

theorem endLoose (h : s.FlowSafe) : s.endLoose.FlowSafe := h.setSq _

/-- A step that nothing holds back starts in RUN. -/
theorem running_of_free {st : GearStep} (h : s.heldBy st = .no) : s.running = true := by
  unfold State.heldBy at h
  split at h
  · exact absurd h (by decide)
  · next hh =>
    simp only [Bool.not_eq_true, Bool.not_eq_false', Bool.and_eq_true] at hh
    exact hh.1

theorem beginStep (h : s.FlowSafe) (st : GearStep) (r : s.running = true) : (s.beginStep st).FlowSafe := by
  unfold State.beginStep
  refine ite (((h.setHead _).endLoose).setSq _) ?_
  dsimp only
  split
  · split
    · refine askFill (hrFreeze (setSq (h.setHead _) _)) ?_ _ _
      exact r
    · refine askFill (setSq (h.setHead _) _) ?_ _ _
      exact r
  · exact ite (hrFreeze (setSq (h.setHead _) _)) (setSq (h.setHead _) _)

theorem startPlain (h : s.FlowSafe) : s.startPlain.FlowSafe := by
  unfold State.startPlain
  split
  · split
    · next hh => exact h.beginStep _ (running_of_free hh)
    · exact h
  · exact h

theorem finishStep (h : s.FlowSafe) (c : Bool) : (s.finishStep c).FlowSafe := by
  unfold State.finishStep
  split
  · exact rebuild (inchEntry (clearFlags (h.setSq _)))
  · exact h

theorem zeroNeutral (h : s.FlowSafe) (st : GearStep) : (s.zeroNeutral st).FlowSafe :=
  finishStep (endLoose (h.setSq _)) _

theorem tryStart (h : s.FlowSafe) : s.tryStart.FlowSafe := by
  unfold State.tryStart
  split
  · split
    · next hh => exact ite (h.zeroNeutral _).startPlain (h.beginStep _ (running_of_free hh))
    · exact h
  · exact h

theorem endStep (h : s.FlowSafe) (c : Bool) : (s.endStep c).FlowSafe := (h.finishStep c).tryStart

theorem replan (h : s.FlowSafe) : s.replan.FlowSafe := h.rebuild.tryStart

theorem fillDone (h : s.FlowSafe) (st : GearStep) : (s.fillDone st).FlowSafe := releaseFill (setSq (h.setHead _) _)

theorem rampFlags (h : s.FlowSafe) (st : GearStep) : (s.rampFlags st).FlowSafe := by
  unfold State.rampFlags
  exact ite (h.setSq _).acuFollow (h.setSq _)

theorem holdDone (h : s.FlowSafe) (st : GearStep) : (s.holdDone st).FlowSafe := by
  unfold State.holdDone
  dsimp only
  split
  · exact ite (endStep (h.setSq _) _) (setSq (setHead (h.setSq _) _) _)
  · exact rampFlags (setSq (setHead (endLoose (h.setSq _)) _) _) _
  all_goals exact rampFlags (setSq (setHead (h.setSq _) _) _) _

theorem rampDone (h : s.FlowSafe) (st : GearStep) : (s.rampDone st).FlowSafe :=
  ite (endStep (h.setSq _) _) (setSq (h.setHead _) _)

theorem endDecel (h : s.FlowSafe) (st : GearStep) : (s.endDecel st).FlowSafe := setSq (h.setHead _) _

theorem lockStep (h : s.FlowSafe) (st : GearStep) (c : Bool) : (s.lockStep st c).FlowSafe := endStep (h.setSq _) _

theorem lockLoose (h : s.FlowSafe) (d : Dir) : (s.lockLoose d).FlowSafe := tryStart (endLoose (h.setSq _))

theorem retarget (h : s.FlowSafe) (g : Nat) : (s.retarget g).FlowSafe := replan (h.setSq _)

theorem halt (h : s.FlowSafe) : s.halt.FlowSafe := clearFlags (setSq h.releaseFill _)

theorem cutNeutral (h : s.FlowSafe) : s.cutNeutral.FlowSafe := by
  unfold State.cutNeutral
  split
  · exact ite (h.zeroNeutral _) h
  · exact h

theorem sqTake (h : s.FlowSafe) : s.sqTake.FlowSafe := replan (cutNeutral (h.setSq _))

theorem unitsFollow (h : s.FlowSafe) : s.unitsFollow.FlowSafe :=
  ite h.followHold.acuFollow.hrRefresh h.followHold.acuFollow

/-! Claims, detections and the end of an event. -/

theorem causes {t : State} (h : s.FlowSafe) (g : CausesOnly s t) : t.FlowSafe := h.congr g.cs g.flow fun _ => by rw [g.hr]

theorem settle (h : s.FlowSafe) (old : Sq) : (s.settle old).FlowSafe := by
  have g := (SettleOnly.refl s).settle old
  exact h.congr g.cs g.flow fun _ => by rw [g.hr]

theorem detect (h : s.FlowSafe) (k : FaultKind) (site : Word) : (s.detect k site).FlowSafe := by
  have mark : ∀ {t : State}, t.FlowSafe → (t.markUnits k site).FlowSafe := by
    intro t ht
    unfold State.markUnits
    dsimp only
    split <;> (repeat' split) <;> first | exact ht | exact ht.congr rfl rfl fun _ => rfl
  have h0 : ({ s with
      fu := { s.fu with
        record := s.recordFirst k site, entry := s.fu.entry.set k ⟨true, some site⟩ } } : State).FlowSafe :=
    h.congr rfl rfl fun _ => rfl
  exact (mark (h0.causes ((CausesOnly.refl _).reportFault k))).unitsFollow.congr rfl rfl fun _ => rfl

theorem unlatch (h : s.FlowSafe) (k : FaultKind) : (s.unlatch k).FlowSafe := by
  have mark : ∀ {t : State}, t.FlowSafe → (t.unmarkUnits k).FlowSafe := by
    intro t ht
    unfold State.unmarkUnits
    split <;> first | exact ht | exact ht.congr rfl rfl fun _ => rfl
  have h0 : ({ s with
      fu := { s.fu with
        record := recordAfter s.fu.record k,
        entry := s.fu.entry.set k { s.fu.entry.get k with latched := false } } } : State).FlowSafe :=
    h.congr rfl rfl fun _ => rfl
  exact (mark h0).unitsFollow.congr rfl rfl fun _ => rfl

theorem handOver (h : s.FlowSafe) (ch : Channel) : (s.handOver ch).FlowSafe := by
  unfold State.handOver
  refine ite h ?_
  split
  · exact h.sqTake
  · exact h.acuTake
  · exact h.hrTake
  · exact h.congr rfl rfl fun _ => rfl

theorem resolveWalk (q : Option Nat) (l : List Nat) :
    ∀ (first : Bool) (u : State), u.FlowSafe → (State.resolveWalk q l first u).FlowSafe := by
  have slot : ∀ (u : State) (k : Nat) (o : Order) (st : OrderState), u.FlowSafe → (u.resolveSlot q k o st).FlowSafe := by
    intro u k o st hu
    have h1 : ∀ o', (u.setOrder k o').FlowSafe := fun o' => hu.congr rfl rfl fun _ => rfl
    unfold State.resolveSlot
    exact ite hu (ite (h1 _) ((h1 _).causes ((CausesOnly.refl _).noteChange k o)))
  induction l with
  | nil => exact fun _ _ h => h
  | cons k l ih =>
    intro first u h
    unfold State.resolveWalk
    split
    · exact ih _ _ (slot _ _ _ _ h)
    · exact ih _ _ h

theorem resolve (h : s.FlowSafe) (ch : Channel) (q a : Option Nat) : (s.resolve ch q a).FlowSafe := by
  have h1 := resolveWalk q (s.list ch) true s h
  unfold State.resolve
  exact ite (h1.handOver ch) h1

end State.FlowSafe

end Sys2Proof.Machine
end

