-- ==== Sys2Proof/Laws/Gearbox.lean ====
section
/-! SUPPORT. Plans lead on from their base, step by step, and a configuration has at most one clutch of each group. -/

namespace Sys2Proof.Machine

/-! Checks of finitely many configurations. -/

/-- Every configuration of the gearbox. -/
def confs : List Conf :=
  [none, some Dir.forward, some .reverse].flatMap fun d =>
    [none, some Range.a, some .b, some .c].flatMap fun r =>
      [none, some StepNo.s1, some .s2, some .s3, some .s4].map fun t => ⟨d, r, t⟩

theorem mem_confs (b : Conf) : b ∈ confs := by
  obtain ⟨d, r, t⟩ := b
  have hd : d ∈ [none, some Dir.forward, some .reverse] := by
    match d with
    | none | some .forward | some .reverse => decide
  have hr : r ∈ [none, some Range.a, some .b, some .c] := by
    match r with
    | none | some .a | some .b | some .c => decide
  have ht : t ∈ [none, some StepNo.s1, some .s2, some .s3, some .s4] := by
    match t with
    | none | some .s1 | some .s2 | some .s3 | some .s4 => decide
  exact List.mem_flatMap.2 ⟨d, hd, List.mem_flatMap.2 ⟨r, hr, List.mem_map.2 ⟨t, ht, rfl⟩⟩⟩

theorem Clutch.mem_all (c : Clutch) : c ∈ Clutch.all := by cases c <;> decide

/-- A configuration is carried by at most one clutch of each group. -/
theorem Conf.clutches_group {b : Conf} {c d : Clutch} (hc : c ∈ b.clutches) (hd : d ∈ b.clutches)
    (h : groupOf c = groupOf d) : c = d := by
  have all : ∀ b ∈ confs, ∀ c ∈ b.clutches, ∀ d ∈ b.clutches, groupOf c = groupOf d → c = d := by decide +kernel
  exact all b (mem_confs b) c hc d hd h

/-- `GearStep.leadsFrom` as a check. -/
def GearStep.leads (st : GearStep) (b : Conf) : Bool :=
  Clutch.all.all fun c =>
    decide ((c ∈ st.on ↔ c ∈ st.result.clutches ∧ c ∉ b.clutches) ∧
      (c ∈ st.off ↔ c ∈ b.clutches ∧ c ∉ st.result.clutches))

theorem GearStep.leadsFrom_of_leads {st : GearStep} {b : Conf} (h : st.leads b = true) : st.leadsFrom b :=
  fun c => of_decide_eq_true (List.all_eq_true.1 h c (Clutch.mem_all c))

/-- The configuration that steps end in. -/
def endOf : Conf → List GearStep → Conf
  | b, [] => b
  | _, st :: rest => endOf st.result rest

theorem chained_append {l m : List GearStep} : ∀ {b : Conf}, chained b l → chained (endOf b l) m → chained b (l ++ m) := by
  induction l with
  | nil => exact fun _ h => h
  | cons st rest ih => exact fun h hm => ⟨h.1, ih h.2 hm⟩

/-- Of steps that lead on, the first ones do: a queue cut at four steps (R79). -/
theorem chained_take {l : List GearStep} : ∀ {b : Conf} (n : Nat), chained b l → chained b (l.take n) := by
  induction l with
  | nil => intro b n _; simp [chained]
  | cons st rest ih =>
    intro b n h
    cases n with
    | zero => exact trivial
    | succ n => exact ⟨h.1, ih n h.2⟩

theorem gearOf_gearRange {g : Nat} (h1 : 1 ≤ g) (h2 : g ≤ 12) : gearOf (gearRange g) (gearStepNo g) = g := by
  have h : ∀ g < 13, 1 ≤ g → gearOf (gearRange g) (gearStepNo g) = g := by decide
  exact h g (by omega) h1

theorem gearOf_bounds (r : Range) (t : StepNo) : 1 ≤ gearOf r t ∧ gearOf r t ≤ 12 := by
  cases r <;> cases t <;> decide

/-- One change of gear leads from its gear to another one. -/
theorem gearChange_leadsFrom (d : Dir) (r0 : Range) (t0 : StepNo) {g : Nat} (h1 : 1 ≤ g) (h2 : g ≤ 12)
    (h : g ≠ gearOf r0 t0) :
    (gearChange d r0 t0 g).leadsFrom ⟨some d, some r0, some t0⟩ := by
  have all : ∀ b ∈ confs, ∀ g < 13, 1 ≤ g → (match b with
      | ⟨some d, some r, some t⟩ => g = gearOf r t || (gearChange d r t g).leads b
      | _ => true) = true := by decide +kernel
  have := all ⟨some d, some r0, some t0⟩ (mem_confs _) g (by omega) h1
  simp only [h, decide_false, Bool.false_or] at this
  exact GearStep.leadsFrom_of_leads this

theorem gearChange_result (d : Dir) (r : Range) (t : StepNo) (g : Nat) :
    (gearChange d r t g).result = ⟨some d, some (gearRange g), some (gearStepNo g)⟩ := by
  unfold gearChange
  dsimp only
  split <;> [rfl; (split <;> rfl)]

/-- The gears passed on a way lead on, each from the one before. -/
theorem chained_gearWalk (d : Dir) {g : Nat} (h1 : 1 ≤ g) (h2 : g ≤ 12) (n : Nat) :
    ∀ r t, chained ⟨some d, some r, some t⟩ (gearChanges d r t (gearWalk n (gearOf r t) g)) := by
  induction n with
  | zero => intro r t; exact trivial
  | succ n ih =>
    intro r t
    have hb := gearOf_bounds r t
    unfold gearWalk
    split
    · have := ih (gearRange (gearOf r t + 1)) (gearStepNo (gearOf r t + 1))
      rw [gearOf_gearRange (by omega) (by omega)] at this
      exact ⟨gearChange_leadsFrom d r t (by omega) (by omega) (by omega), by rw [gearChange_result]; exact this⟩
    · split
      · have := ih (gearRange (gearOf r t - 1)) (gearStepNo (gearOf r t - 1))
        rw [gearOf_gearRange (by omega) (by omega)] at this
        exact ⟨gearChange_leadsFrom d r t (by omega) (by omega) (by omega), by rw [gearChange_result]; exact this⟩
      · exact trivial

/-- The FREE steps lead to their range and step. -/
theorem chained_freeSteps (b : Conf) (r : Range) (t : StepNo) :
    chained b (freeSteps b r t) ∧ endOf b (freeSteps b r t) = ⟨b.dir, some r, some t⟩ := by
  obtain ⟨dir, range, step⟩ := b
  have range' : ∀ b ∈ confs, ∀ r ∈ [Range.a, .b, .c], b.range = some r ||
      (GearStep.fresh .free [r.clutch] ((b.range.map Range.clutch).toList) { b with range := some r }).leads b := by
    decide +kernel
  have step' : ∀ b ∈ confs, ∀ t ∈ [StepNo.s1, .s2, .s3, .s4], b.step = some t ||
      (GearStep.fresh .free [t.clutch] ((b.step.map StepNo.clutch).toList) { b with step := some t }).leads b := by
    decide +kernel
  have hr := range' ⟨dir, range, step⟩ (mem_confs _) r (by cases r <;> decide)
  have ht := step' ⟨dir, some r, step⟩ (mem_confs _) t (by cases t <;> decide)
  simp only [Bool.or_eq_true, decide_eq_true_eq] at hr ht
  unfold freeSteps
  by_cases h1 : range = some r <;> by_cases h2 : step = some t <;>
    simp only [h1, h2, if_true, if_false, false_or, List.append_nil, List.nil_append, List.cons_append] at hr ht ⊢
  · exact ⟨trivial, rfl⟩
  · exact ⟨⟨GearStep.leadsFrom_of_leads ht, trivial⟩, rfl⟩
  · exact ⟨⟨GearStep.leadsFrom_of_leads hr, trivial⟩, rfl⟩
  · exact ⟨⟨GearStep.leadsFrom_of_leads hr, GearStep.leadsFrom_of_leads ht, trivial⟩, rfl⟩

/-- The steps of the gear lead on. -/
theorem chained_gearSteps (b : Conf) (wishes pressed auto : Bool) {g : Nat} (h1 : 1 ≤ g) (h2 : g ≤ 12) :
    chained b (gearSteps b wishes pressed auto g) := by
  have free := (chained_freeSteps b (gearRange g) (gearStepNo g)).1
  obtain ⟨dir, range, step⟩ := b
  unfold gearSteps
  split
  · rename_i d r t hd hr ht
    obtain ⟨rfl, rfl, rfl⟩ : dir = some d ∧ range = some r ∧ step = some t := ⟨hd, hr, ht⟩
    split
    · exact free
    · split
      · exact chained_gearWalk d h1 h2 11 r t
      · split
        · exact trivial
        · exact ⟨gearChange_leadsFrom d r t h1 h2 (Ne.symm ‹_›), trivial⟩
  · exact free

/-- A step that changes the direction alone. -/
theorem leadsFrom_direction (kind : StepKind) (b : Conf) (w : Option Dir) (h : b.dir ≠ w) :
    (GearStep.fresh kind (w.map Dir.clutch).toList (b.dir.map Dir.clutch).toList { b with dir := w }).leadsFrom b := by
  have all : ∀ b ∈ confs, ∀ w ∈ [none, some Dir.forward, some .reverse], b.dir = w ||
      (GearStep.fresh .free (w.map Dir.clutch).toList (b.dir.map Dir.clutch).toList { b with dir := w }).leads b := by
    decide +kernel
  have := all b (mem_confs b) w (by match w with | none | some .forward | some .reverse => decide)
  simp only [h, decide_false, Bool.false_or] at this
  exact GearStep.leadsFrom_of_leads this

/-- The plan to a gear from 1 to 12 leads on from its base. -/
theorem chained_plan (q : Sq) (band : Band) (b : Conf) (h1 : 1 ≤ q.wish.2) (h2 : q.wish.2 ≤ 12) :
    chained b (q.plan band b) := by
  have gears (b : Conf) (wishes pressed auto : Bool) := chained_gearSteps b wishes pressed auto h1 h2
  have ends (b : Conf) := chained_freeSteps b (gearRange q.wish.2) (gearStepNo q.wish.2)
  obtain ⟨dir, range, step⟩ := b
  unfold Sq.plan
  dsimp only
  generalize hw : q.wish.1 = w at *
  cases dir with
  | none =>
    cases w with
    | none => simpa using gears _ _ _ _
    | some w =>
      simp only [gearSteps, List.nil_append]
      refine chained_append (ends _).1 ⟨?_, trivial⟩
      rw [(ends _).2]
      exact leadsFrom_direction .engage ⟨none, _, _⟩ (some w) (by simp)
  | some d =>
    cases w with
    | none =>
      have rest : chained ⟨none, range, step⟩
          (gearSteps ⟨none, range, step⟩ false (decide (band = .pressed)) q.auto q.wish.2 ++ []) := by
        rw [List.append_nil]
        exact gears _ _ _ _
      exact ⟨leadsFrom_direction .neutralize ⟨some d, range, step⟩ none (by simp), rest⟩
    | some w =>
      by_cases h : d = w
      · simpa [h] using gears _ _ _ _
      · simp only [h, if_false, List.append_nil]
        exact ⟨leadsFrom_direction _ ⟨some d, range, step⟩ (some w) (by simpa using h), gears _ _ _ _⟩

end Sys2Proof.Machine
end

