-- ==== Sys2Proof/Laws/Hitch.lean ====
section
/-! SUPPORT. What a motion does to the regulator: all that `State.hrMove` changes, said once. -/

namespace Sys2Proof.Machine

/-- The regulator without what a grant moves. -/
def Hr.still (h : Hr) : Hr := { h with mode := .hold, granted := 0, stall := none, stallActive := none }

theorem State.still_hrSync (s : State) : s.hrSync.hr.still = s.hr.still := by
  unfold State.hrSync Hr.followStall
  dsimp only
  repeat' split
  all_goals rfl

theorem State.hr_sqFillGranted (s : State) : s.sqFillGranted.hr = s.hr := by
  unfold State.sqFillGranted
  repeat' split
  all_goals rfl

theorem State.hr_acuAxleGranted (s : State) : s.acuAxleGranted.hr = s.hr := by
  unfold State.acuAxleGranted
  split <;> rfl

/-- A pass changes the regulator by `State.hrSync` or not at all. -/
theorem State.hr_grantPass (s : State) : s.grantPass.hr = s.hr ∨ ∃ t : State, t.hr = s.hr ∧ s.grantPass.hr = t.hrSync.hr := by
  have told : ∀ (c d : Prop) [Decidable c] [Decidable d] (t : State), t.hr = s.hr →
      (if d then (if c then t.sqFillGranted else t).acuAxleGranted else if c then t.sqFillGranted else t).hr = s.hr := by
    intro c d _ _ t h
    repeat' split
    all_goals simp only [State.hr_acuAxleGranted, State.hr_sqFillGranted, h]
  unfold State.grantPass
  dsimp only
  split
  · left
    apply told
    rfl
  · right
    refine ⟨_, ?_, rfl⟩
    apply told
    rfl

theorem State.still_grantPass (s : State) : s.grantPass.hr.still = s.hr.still := by
  rcases s.hr_grantPass with h | ⟨t, h, g⟩
  · rw [h]
  · rw [g, State.still_hrSync, h]

theorem Hr.workMode_ne_hold (h : Hr) : h.workMode ≠ .hold := by
  unfold Hr.workMode
  repeat' split
  all_goals decide

theorem State.mode_hrSync (s : State) : s.hrSync.hr.mode = if s.hr.mode = .hold then .hold else s.hrSync.hr.workMode := by
  unfold State.hrSync Hr.followStall
  dsimp only
  by_cases h : s.hr.mode = .hold <;> simp only [h, if_true, if_false] <;> split
  all_goals first | exact h | rfl

theorem State.hold_hrSync (s : State) : s.hrSync.hr.mode = .hold ↔ s.hr.mode = .hold := by
  rw [State.mode_hrSync]
  by_cases h : s.hr.mode = .hold <;> simp [h, Hr.workMode_ne_hold]

theorem State.hold_grantPass (s : State) : s.grantPass.hr.mode = .hold ↔ s.hr.mode = .hold := by
  rcases s.hr_grantPass with h | ⟨t, h, g⟩
  · rw [h]
  · rw [g, State.hold_hrSync, h]

theorem Flow.liftAsked_pass (f : Flow) (b : Nat) : (f.pass b).liftAsked = f.liftAsked := by
  have h1 : ∀ g : Flow, (g.serveFill b).liftAsked = g.liftAsked := by
    intro g
    unfold Flow.serveFill
    dsimp only
    split <;> rfl
  have h2 : ∀ g : Flow, (g.serveAxle b).liftAsked = g.liftAsked := by
    intro g
    unfold Flow.serveAxle
    dsimp only
    split <;> rfl
  have h3 : ∀ g : Flow, (g.serveLift b).liftAsked = g.liftAsked := by
    intro g
    unfold Flow.serveLift
    split <;> rfl
  unfold Flow.pass
  rw [h3]
  split
  · rfl
  · rw [h2, h1]

/-- All that a motion does to the regulator: the motion with its ceiling and positions, the lift amount it asks, the grant of
the pass, and the mode of R120; in HOLD it stays in HOLD. -/
theorem State.hrMove_does (s : State) (m : Motion) :
    let t := s.hrMove m
    let asked := if m = .raise then liftFor s.items s.hr.error else 0
    t.hr.still = { s.hr.move s.items s.now (s.pub.position.getD 0) m with asked := asked }.still ∧
      t.flow.liftAsked = asked ∧ t.hr.granted = t.flow.liftGranted ∧
      t.hr.mode = if s.hr.mode = .hold then .hold else t.hr.workMode := by
  intro t asked
  let u : State := { s with hr := { s.hr.move s.items s.now (s.pub.position.getD 0) m with asked := asked } }
  have ht : t = (u.askLift asked).hrSync := rfl
  have hu : u.hr.mode = s.hr.mode := by
    simp only [u]
    unfold Hr.move
    repeat' split
    all_goals rfl
  have ha : (u.askLift asked).hr.still = u.hr.still ∧ (u.askLift asked).flow.liftAsked = asked ∧
      ((u.askLift asked).hr.mode = .hold ↔ s.hr.mode = .hold) := by
    rw [← hu]
    unfold State.askLift
    split
    · exact ⟨rfl, Eq.symm ‹_›, Iff.rfl⟩
    · exact ⟨State.still_grantPass _, by rw [State.grantPass_flow, Flow.liftAsked_pass], State.hold_grantPass _⟩
  have hg : t.hr.granted = t.flow.liftGranted := by
    rw [ht]
    unfold State.hrSync Hr.followStall
    dsimp only
    repeat' split
    all_goals rfl
  refine ⟨?_, ?_, hg, ?_⟩
  · rw [ht, State.still_hrSync, ha.1]
  · rw [ht]
    exact ha.2.1
  · rw [ht, State.mode_hrSync]
    simp only [ha.2.2]

end Sys2Proof.Machine
end

