-- ==== Sys2Proof/Laws/PerInstr.lean ====
section
/-! SUPPORT. The family Frame, one lemma per command: where a command has a request frame that fails the check of R171, the
command is BAD_FRAME. Every other command that a frame carries is carried by a good frame. -/

namespace Sys2Proof.Laws.Frame

/-- A command whose frame fails the check is BAD_FRAME. -/
def Statement (i : Instr) : Prop :=
  ∀ f, requestFrame i = some f → frameBad f false = true → ∃ p received cut, i = .badFrame p received cut

/-- A closed frame of 24 bytes passes the check. -/
theorem closeFrame_good {b : List Byte} (h : b.length = 24) : frameBad (closeFrame b) false = false := by
  unfold frameBad closeFrame
  simp [h]

/-- The body of a frame has 24 bytes. -/
theorem frameBody_length (c t b2 b3 b4 b5 : Byte) (w : Word) (v : Values) :
    (frameBody c t b2 b3 b4 b5 w v).length = 24 := rfl

/-- A command whose frame is a closed body. -/
theorem closed {i : Instr} {c t b2 b3 b4 b5 : Byte} {w : Word} {v : Values}
    (e : requestFrame i = some (closeFrame (frameBody c t b2 b3 b4 b5 w v)) := by rfl) : Statement i := by
  intro f h bad
  rw [e, Option.some.injEq] at h
  subst h
  rw [closeFrame_good (frameBody_length ..)] at bad
  exact absurd bad Bool.noConfusion

/-- A command that no frame carries. -/
theorem frameless {i : Instr} (e : requestFrame i = none) : Statement i := by
  intro f h
  rw [e] at h
  cases h

theorem nop (p : Port) (tag : Byte) : Statement (.nop p tag) := closed

theorem place (p : Port) (tag : Byte) (channel cls termCount : Byte) (lease : Word) (vals : Values) :
    Statement (.place p tag channel cls termCount lease vals) := closed

theorem read (p : Port) (tag : Byte) (slot inc first count : Byte) :
    Statement (.read p tag slot inc first count) := closed

theorem amend (p : Port) (tag : Byte) (slot inc first : Byte) (front : Bool) (count : BitVec 7) (gen : Word) (vals : Values) :
    Statement (.amend p tag slot inc first front count gen vals) := closed

theorem renew (p : Port) (tag : Byte) (slot inc : Byte) : Statement (.renew p tag slot inc) := closed

theorem retire (p : Port) (tag : Byte) (slot inc : Byte) (gen : Word) :
    Statement (.retire p tag slot inc gen) := closed

theorem find (p : Port) (tag : Byte) (channel : Byte) : Statement (.find p tag channel) := closed

theorem list (p : Port) (tag : Byte) (channel position : Byte) : Statement (.list p tag channel position) := closed

theorem collect (p : Port) (tag : Byte) : Statement (.collect p tag) := closed

theorem causes (p : Port) (tag : Byte) : Statement (.causes p tag) := closed

theorem maskSet (p : Port) (tag : Byte) (mask : Byte) (value : Word) : Statement (.maskSet p tag mask value) := closed

theorem maskClear (p : Port) (tag : Byte) (mask : Byte) (value : Word) :
    Statement (.maskClear p tag mask value) := closed

theorem status (p : Port) (tag : Byte) (view first : Byte) : Statement (.status p tag view first) := closed

theorem faultRead (p : Port) (tag : Byte) (kind : Byte) : Statement (.faultRead p tag kind) := closed

theorem clearFault (p : Port) (tag : Byte) (kind : Byte) : Statement (.clearFault p tag kind) := closed

theorem configWrite (p : Port) (tag : Byte) (item first count : Byte) (vals : Values) :
    Statement (.configWrite p tag item first count vals) := closed

theorem configRead (p : Port) (tag : Byte) (item first : Byte) : Statement (.configRead p tag item first) := closed

theorem adaptRead (p : Port) (tag : Byte) (first count : Byte) : Statement (.adaptRead p tag first count) := closed

theorem adaptWrite (p : Port) (tag : Byte) (first count : Byte) (vals : Values) :
    Statement (.adaptWrite p tag first count vals) := closed

theorem start (p : Port) (tag : Byte) : Statement (.start p tag) := closed

theorem stop (p : Port) (tag : Byte) : Statement (.stop p tag) := closed

theorem portReset (p : Port) (tag : Byte) : Statement (.portReset p tag) := closed

theorem badRequest (p : Port) (tag : Byte) (code : Byte) : Statement (.badRequest p tag code) := closed

theorem badFrame (p : Port) (received : List Byte) (cut : Bool) :
    Statement (.badFrame p received cut) := fun _ _ _ => ⟨p, received, cut, rfl⟩

theorem busy (p : Port) (tag : Byte) (code : Byte) : Statement (.busy p tag code) := frameless rfl

theorem transactionBegin (p : Port) : Statement (.transactionBegin p) := frameless rfl

theorem answerWritten (p : Port) : Statement (.answerWritten p) := frameless rfl

theorem portResetInput (p : Port) (level : Bool) : Statement (.portResetInput p level) := frameless rfl

theorem powerOnReset : Statement .powerOnReset := frameless rfl

theorem enableFall : Statement .enableFall := frameless rfl

theorem enableRise : Statement .enableRise := frameless rfl

theorem trailerPresentChange (level : Bool) : Statement (.trailerPresentChange level) := frameless rfl

theorem debounceTimerExpiry : Statement .debounceTimerExpiry := frameless rfl

theorem breakawayInputChange (level : Bool) : Statement (.breakawayInputChange level) := frameless rfl

theorem breakawayTimerExpiry : Statement .breakawayTimerExpiry := frameless rfl

theorem muPublication (raw : ByConv (BitVec 12)) : Statement (.muPublication raw) := frameless rfl

theorem selectedEdge (ch : SpeedCh) (us : Nat) : Statement (.selectedEdge ch us) := frameless rfl

theorem speedChannelStall (ch : SpeedCh) : Statement (.speedChannelStall ch) := frameless rfl

theorem recordedEdgeExpiry (ch : SpeedCh) : Statement (.recordedEdgeExpiry ch) := frameless rfl

theorem lostTimerExpiry (ch : SpeedCh) : Statement (.lostTimerExpiry ch) := frameless rfl

theorem windowTimerExpiry (ch : ConvCh) : Statement (.windowTimerExpiry ch) := frameless rfl

theorem mismatchTimerExpiry : Statement .mismatchTimerExpiry := frameless rfl

theorem supplyTimerExpiry : Statement .supplyTimerExpiry := frameless rfl

theorem leaseExpiry : Statement .leaseExpiry := frameless rfl

theorem dwellEnd (slot : Nat) (term : TermNo) : Statement (.dwellEnd slot term) := frameless rfl

theorem brakeAxleReleaseTimerExpiry : Statement .brakeAxleReleaseTimerExpiry := frameless rfl

theorem conditionReport (slot : Nat) : Statement (.conditionReport slot) := frameless rfl

theorem faultConditionReport (which : FaultOrder) : Statement (.faultConditionReport which) := frameless rfl

theorem flowWaitExpiry (cls : WaitClass) : Statement (.flowWaitExpiry cls) := frameless rfl

theorem fillEnd : Statement .fillEnd := frameless rfl

theorem holdEnd : Statement .holdEnd := frameless rfl

theorem rampOnEnd : Statement .rampOnEnd := frameless rfl

theorem lockRampEnd (owner : SyncOwner) : Statement (.lockRampEnd owner) := frameless rfl

theorem syncLimitExpiry (owner : SyncOwner) : Statement (.syncLimitExpiry owner) := frameless rfl

theorem decelerationLimitExpiry : Statement .decelerationLimitExpiry := frameless rfl

theorem rampOffEnd : Statement .rampOffEnd := frameless rfl

theorem upTimerExpiry : Statement .upTimerExpiry := frameless rfl

theorem downTimerExpiry : Statement .downTimerExpiry := frameless rfl

theorem coolingStep : Statement .coolingStep := frameless rfl

theorem gearSlipTimerExpiry : Statement .gearSlipTimerExpiry := frameless rfl

theorem setTimerExpiry : Statement .setTimerExpiry := frameless rfl

theorem clearTimerExpiry : Statement .clearTimerExpiry := frameless rfl

theorem axleFillEnd : Statement .axleFillEnd := frameless rfl

theorem settleEnd : Statement .settleEnd := frameless rfl

theorem axleMismatchTimerExpiry : Statement .axleMismatchTimerExpiry := frameless rfl

theorem excessTimerExpiry : Statement .excessTimerExpiry := frameless rfl

theorem stepTimerExpiry : Statement .stepTimerExpiry := frameless rfl

theorem deviationTimerExpiry : Statement .deviationTimerExpiry := frameless rfl

theorem stallTimerExpiry : Statement .stallTimerExpiry := frameless rfl

theorem trackingTimerExpiry : Statement .trackingTimerExpiry := frameless rfl

theorem periodBoundary (mean : ByOut Word) : Statement (.periodBoundary mean) := frameless rfl

theorem openLoadTimerExpiry (ch : OutCh) : Statement (.openLoadTimerExpiry ch) := frameless rfl

theorem shortCircuitTrip (ch : OutCh) (sample : Word) : Statement (.shortCircuitTrip ch sample) := frameless rfl

theorem throttleTimerExpiry (p : Port) : Statement (.throttleTimerExpiry p) := frameless rfl

theorem heldResetDiscard (p : Port) : Statement (.heldResetDiscard p) := frameless rfl

end Sys2Proof.Laws.Frame
end

