-- ==== Sys2Proof/Laws/Requests.lean ====
section
/-! SUPPORT. What a request does once its port takes it, refuses it or discards it. -/

namespace Sys2Proof.Machine

/-- A port that takes a request leaves neither refusal nor discard at the rise. -/
theorem PortRec.rise_begin {r : PortRec} (h : r.takes) : r.begin.rise = .take := by
  obtain ⟨h1, h2⟩ := h
  unfold PortRec.begin PortRec.fall
  cases ht : r.txn with
  | none =>
    rw [ht] at h2
    simp only [Option.isSome_none, Bool.false_eq_true, if_false, h1]
    simp only [h2]
    simp [PortRec.rise]
  | some t =>
    rw [ht] at h2
    simp [PortRec.rise, ht, h1, h2.1, h2.2]

/-- A request that its port takes. -/
theorem State.request_takes {s : State} {p : Port} (h : (s.port p).takes) (code tag : Byte)
    (run : State → State × Option Answer) :
    s.request p code tag run =
      match (run (s.risen p)).2 with
      | some a => (run (s.risen p)).1.answering p a
      | none => (run (s.risen p)).1 := by
  unfold State.request
  simp only [PortRec.rise_begin h]
  rfl

/-- A query that its port takes: the answer is read off the state at the rise and goes into flight. -/
theorem State.query_takes {s : State} {p : Port} (h : (s.port p).takes) (code tag : Byte) (answer : State → Answer) :
    s.query p code tag answer = (s.risen p).answering p (answer (s.risen p)) :=
  State.request_takes h code tag _

/-- A request of the CAB port alone, from CAB. -/
theorem State.cabRequest_takes {s : State} (h : (s.port .cab).takes) (code tag : Byte) (run : State → State × Answer) :
    s.cabRequest .cab code tag run = (run (s.risen .cab)).1.answering .cab (run (s.risen .cab)).2 :=
  State.request_takes h code tag _

/-- A request of the CAB port alone, from IMPLEMENT: DENIED (R173). -/
theorem State.cabRequest_denied {s : State} (h : (s.port .implement).takes) (code tag : Byte)
    (run : State → State × Answer) :
    s.cabRequest .implement code tag run =
      (s.risen .implement).answering .implement (.plain code tag .denied .zero) :=
  State.request_takes h code tag _

/-- What a port other than the sender's sees of a rise and of an answer. -/
theorem State.port_risen_other {s : State} {p q : Port} (h : q ≠ p) : (s.risen p).port q = s.port q := by
  unfold State.risen
  rw [State.port_setPort, if_neg h]

theorem State.port_answering_other {s : State} {p q : Port} (h : q ≠ p) (a : Answer) :
    (s.answering p a).port q = s.port q := by
  unfold State.answering
  rw [State.port_setPort, if_neg h]

@[simp] theorem State.port_answering_self (s : State) (p : Port) (a : Answer) :
    (s.answering p a).port p = { s.port p with inFlight := some a } := by
  simp [State.answering]

@[simp] theorem State.port_risen_self (s : State) (p : Port) :
    (s.risen p).port p = { (s.port p).begin with txn := none } := by
  simp [State.risen]

/-- A request leaves alone at its state what its run leaves alone, whatever the port does with it. -/
theorem State.request_frame {α : Type} (view : State → α) (hview : ∀ (s : State) p r, view (s.setPort p r) = view s)
    {run : State → State × Option Answer} (hrun : ∀ s, view (run s).1 = view s) (s : State) (p : Port)
    (code tag : Byte) : view (s.request p code tag run) = view s := by
  unfold State.request
  dsimp only
  split
  · exact hview _ _ _
  · exact hview _ _ _
  · split
    · rw [hview, hrun, hview]
    · rw [hrun, hview]

/-- The two device states have codes that differ (R180, log 13). -/
theorem deviceCode_differs : Config.deviceCode true ≠ Config.deviceCode false := by
  intro h
  have e : (if Config.runBits = 0 then 1 else Config.runBits) = 0 := by
    have g := congrArg (Config.configCode ^^^ ·) h
    simpa [Config.deviceCode, ← BitVec.xor_assoc] using g
  split at e
  · exact absurd e (by decide)
  · next n => exact n e

end Sys2Proof.Machine
end

