-- ==== Sys2Proof/Laws/Work.lean ====
section
/-! SUPPORT. What the work of the job units keeps: the orders as taken, the timers that a test governs, and the slip trim; only
hand-overs, ends of timers, publications, halts and STOP change them, each where its own definition says so. -/

namespace Sys2Proof.Machine

/-- What the work of the gearbox keeps. -/
def Sq.kept (q : Sq) : Option Taken × Timer × Timer × Timer := (q.taken, q.up, q.down, q.slip)

/-- What the work of the axle keeps. -/
def Acu.kept (a : Acu) : Option Taken × Timer := (a.taken, a.mismatch)

/-- What the work of the hitch keeps. -/
def Hr.kept (h : Hr) : Option Taken × Nat × Bool × Timer × Timer := (h.taken, h.trim, h.exceeds, h.excess, h.step)

/-- What the work of the job units keeps. -/
def State.kept (s : State) :
    (Option Taken × Timer × Timer × Timer) × (Option Taken × Timer) × (Option Taken × Nat × Bool × Timer × Timer) :=
  (s.sq.kept, s.acu.kept, s.hr.kept)

/-- Two states with the same units keep the same. -/
theorem State.kept_congr {s t : State} (q : t.sq = s.sq) (a : t.acu = s.acu) (h : t.hr = s.hr) : t.kept = s.kept := by
  unfold State.kept
  rw [q, a, h]

theorem State.kept_ite {c : Prop} [Decidable c] {a b s : State} (ha : a.kept = s.kept) (hb : b.kept = s.kept) :
    (if c then a else b).kept = s.kept := by
  split
  · exact ha
  · exact hb

/-! Flow. -/

theorem Hr.kept_followStall (h : Hr) (now : Time) (p : Option Nat) : (h.followStall now p).kept = h.kept := by
  unfold Hr.followStall
  split <;> rfl

@[simp] theorem State.kept_hrSync (s : State) : s.hrSync.kept = s.kept := by
  unfold State.hrSync State.kept
  dsimp only
  rw [Hr.kept_followStall]
  split <;> rfl

@[simp] theorem State.kept_sqFillGranted (s : State) : s.sqFillGranted.kept = s.kept := by
  unfold State.sqFillGranted
  split
  · split <;> rfl
  · rfl

@[simp] theorem State.kept_acuAxleGranted (s : State) : s.acuAxleGranted.kept = s.kept := by
  unfold State.acuAxleGranted
  split <;> rfl

@[simp] theorem State.kept_grantPass (s : State) : s.grantPass.kept = s.kept := by
  unfold State.grantPass
  have h0 : ({ s with flow := s.flow.pass (flowBudget s.items) } : State).kept = s.kept := rfl
  have h1 := fun c [Decidable c] => kept_ite (c := c) ((kept_sqFillGranted _).trans h0) h0
  have h2 := fun c d [Decidable c] [Decidable d] =>
    kept_ite (c := d) ((kept_acuAxleGranted _).trans (h1 c)) (h1 c)
  exact kept_ite (h2 _ _) ((kept_hrSync _).trans (h2 _ _))

theorem State.kept_releaseFill (s : State) : s.releaseFill.kept = s.kept := kept_ite rfl (kept_grantPass _)

theorem State.kept_releaseAxle (s : State) : s.releaseAxle.kept = s.kept := kept_ite rfl (kept_grantPass _)

theorem State.kept_freeFill (s : State) : s.freeFill.kept = s.kept := kept_ite s.kept_releaseFill rfl

theorem State.kept_freeAxle (s : State) : s.freeAxle.kept = s.kept := kept_ite s.kept_releaseAxle rfl

theorem State.kept_askFill (s : State) (n : Nat) (c : Clutch) : (s.askFill n c).kept = s.kept :=
  (kept_grantPass _).trans s.kept_freeFill

theorem State.kept_askAxle (s : State) (n : Nat) : (s.askAxle n).kept = s.kept := (kept_grantPass _).trans s.kept_freeAxle

theorem State.kept_askLift (s : State) (n : Nat) : (s.askLift n).kept = s.kept := kept_ite rfl (kept_grantPass _)

theorem State.kept_followHold (s : State) : s.followHold.kept = s.kept :=
  kept_ite rfl (kept_ite (kept_grantPass _) (kept_grantPass _))

/-! Axle. -/

theorem State.kept_acuEngage (s : State) : s.acuEngage.kept = s.kept := by
  unfold State.acuEngage
  split
  · exact kept_releaseAxle _
  · exact kept_releaseAxle _
  · rfl
  · rfl
  · rfl

theorem State.kept_acuRelease (s : State) : s.acuRelease.kept = s.kept := by
  unfold State.acuRelease
  split
  · exact kept_ite (kept_askAxle _ _) rfl
  · exact kept_ite (kept_releaseAxle _) rfl
  · rfl
  · rfl
  · rfl

theorem State.kept_acuFollow (s : State) : s.acuFollow.kept = s.kept := kept_ite rfl (kept_ite s.kept_acuRelease s.kept_acuEngage)

theorem Acu.kept_publish (a : Acu) (now : Time) (was : Bool) (slip : Option Nat) : (a.publish now was slip).kept = a.kept := by
  unfold Acu.publish
  split
  · rfl
  · split <;> rfl

theorem State.kept_acuPublish (s : State) (was : Bool) : (s.acuPublish was).kept = s.kept := by
  refine kept_ite ((kept_acuFollow _).trans ?_) rfl
  unfold State.kept
  dsimp only
  rw [Acu.kept_publish]

/-- A hand-over at the axle. -/
theorem State.kept_acuTake (s : State) : s.acuTake.kept = (s.sq.kept, (s.takenNow .axle, s.acu.mismatch), s.hr.kept) := by
  refine (kept_acuFollow _).trans ?_
  unfold State.kept Acu.take
  dsimp only
  split <;> rfl

/-! Hitch. -/

theorem Hr.kept_move (h : Hr) (items : List (List Word)) (now : Time) (p : Nat) (m : Motion) :
    (h.move items now p m).kept = h.kept := by
  unfold Hr.move
  split
  · split <;> rfl
  · rfl

theorem State.kept_hrMove (s : State) (m : Motion) : (s.hrMove m).kept = s.kept := by
  refine (kept_hrSync _).trans ((kept_askLift _ _).trans ?_)
  unfold State.kept
  dsimp only
  exact congrArg (fun x => (s.sq.kept, s.acu.kept, x)) (Hr.kept_move _ _ _ _ _)

theorem State.kept_hrRegulate (s : State) : s.hrRegulate.kept = s.kept := kept_hrMove _ _

theorem State.kept_hrCorrect (s : State) : s.hrCorrect.kept = s.kept := kept_ite rfl (kept_hrMove _ _)

theorem State.kept_hrTransport (s : State) : s.hrTransport.kept = s.kept := by
  unfold State.hrTransport
  exact kept_ite (kept_ite (kept_hrCorrect _) rfl) (kept_ite (kept_hrMove _ _) (kept_hrMove _ _))

theorem State.kept_hrEnterHold (s : State) : s.hrEnterHold.kept = s.kept := kept_hrMove _ _

theorem State.kept_hrWork (s : State) : s.hrWork.kept = s.kept := kept_ite (kept_hrMove _ _) (kept_hrRegulate _)

theorem State.kept_hrRefresh (s : State) : s.hrRefresh.kept = s.kept :=
  kept_ite (kept_ite rfl (kept_hrEnterHold _)) (kept_ite (kept_hrWork _) (kept_ite (kept_hrMove _ _) rfl))

theorem Hr.kept_lowerPublish (h : Hr) (items : List (List Word)) (now : Time) (p : Nat) :
    (h.lowerPublish items now p).kept = h.kept := rfl

theorem Hr.kept_stallPublish (h : Hr) (now : Time) (p : Nat) : (h.stallPublish now p).kept = h.kept := rfl

/-- A publication at the hitch keeps all but the trim's timers. -/
theorem State.kept_hrPublish (s : State) (lowering : Bool) :
    (s.hrPublish lowering).kept =
      (s.sq.kept, s.acu.kept, if s.running then (s.hr.trimPublish s.now s.slipOver).kept else s.hr.kept) := by
  have h3 : ∀ (v w : State) (c : Bool), v.kept = w.kept →
      ({ v with
        hr := if c then (v.hr.stallPublish v.now (v.pub.position.getD 0)).lowerPublish v.items v.now
            (v.pub.position.getD 0)
          else v.hr.stallPublish v.now (v.pub.position.getD 0) } : State).kept = w.kept := by
    intro v w c h
    refine Eq.trans ?_ h
    cases c <;> rfl
  unfold State.hrPublish
  by_cases r : s.running = true
  · simp only [r, Bool.not_true, Bool.false_eq_true, if_false, if_true]
    refine Eq.trans (kept_ite rfl ?_) (State.kept_hrRefresh { s with
      hr := { s.hr.trimPublish s.now s.slipOver with
        frozenLost := s.hr.frozenLost || (s.sq.flags.draftFreeze && s.pub.draft.isNone) } })
    exact h3 _ _ _ (kept_ite (kept_hrTransport _) (kept_ite rfl (kept_hrRegulate _)))
  · simp only [r, Bool.not_false, if_true, if_false, Bool.false_eq_true]
    rfl

theorem Hr.kept_trimTake {g h : Hr} (e : g.kept = h.kept) (now : Time) (b : Bool) :
    (g.trimTake now b).kept = (h.trimTake now b).kept := by
  unfold Hr.kept at e
  simp only [Prod.mk.injEq] at e
  obtain ⟨e1, e2, e3, e4, e5⟩ := e
  unfold Hr.trimTake Hr.fall Hr.kept
  rw [e3]
  split
  · split <;> simp [e1, e2]
  · simp [e1, e2, e5]

/-- A hand-over at the hitch: the order as taken, and the trim's timers. -/
theorem State.kept_hrTake (s : State) :
    s.hrTake.kept = (s.sq.kept, s.acu.kept,
      (let h : Hr := { s.hr with taken := s.takenNow .hitch }
       (h.trimTake s.now ({ s with hr := h } : State).slipOver).kept)) := by
  have h1 : ∀ g : Hr, g.kept = ({ s.hr with taken := s.takenNow .hitch } : Hr).kept →
      ∀ (u : State), u = { s with hr := g.trimTake s.now ({ s with hr := g } : State).slipOver } →
      ∀ (c d e : Prop) [Decidable c] [Decidable d] [Decidable e],
      (if c then (if d then u.hrEnterHold else if e then { u with hr := { u.hr with holdPos := u.pub.position } } else u)
        else ({ u with hr := { u.hr with holdPos := none } } : State).hrWork).kept =
      (s.sq.kept, s.acu.kept,
        (let h : Hr := { s.hr with taken := s.takenNow .hitch }
         (h.trimTake s.now ({ s with hr := h } : State).slipOver).kept)) := by
    intro g hg u hu c d e _ _ _
    have hu2 : u.kept = (s.sq.kept, s.acu.kept,
        (let h : Hr := { s.hr with taken := s.takenNow .hitch }
         (h.trimTake s.now ({ s with hr := h } : State).slipOver).kept)) := by
      have hs : ({ s with hr := g } : State).slipOver =
          ({ s with hr := { s.hr with taken := s.takenNow .hitch } } : State).slipOver := by
        unfold State.slipOver Hr.slipLimit
        unfold Hr.kept at hg
        simp only [Prod.mk.injEq] at hg
        dsimp only
        rw [hg.1]
        rfl
      rw [hu]
      unfold State.kept
      dsimp only
      rw [hs, Hr.kept_trimTake hg]
    refine Eq.trans ?_ hu2
    exact kept_ite (kept_ite (kept_hrEnterHold _) (kept_ite rfl rfl)) (kept_hrWork _)
  unfold State.hrTake
  dsimp only
  refine h1 _ ?_ _ rfl _ _ _
  split
  · split <;> rfl
  · rfl

/-! Gearbox. -/

theorem State.kept_clearFlags (s : State) : s.clearFlags.kept = s.kept := by
  unfold State.clearFlags
  have h1 : ∀ (u v : State) (c d : Prop) [Decidable c] [Decidable d], u.kept = v.kept →
      (if d then (if c then u.hrUnfreeze else u).acuFollow else if c then u.hrUnfreeze else u).kept = v.kept := by
    intro u v c d _ _ h
    have h2 : (if c then u.hrUnfreeze else u).kept = v.kept := kept_ite h h
    exact kept_ite ((kept_acuFollow _).trans h2) h2
  exact h1 _ _ _ _ rfl

theorem State.kept_inchEntry (s : State) : s.inchEntry.kept = s.kept := by
  unfold State.inchEntry
  split
  · exact kept_ite rfl rfl
  · rfl

theorem State.kept_abandonHead (s : State) : s.abandonHead.kept = s.kept := by
  unfold State.abandonHead
  split
  · refine (kept_inchEntry _).trans ((kept_clearFlags _).trans (kept_ite ((kept_releaseFill _).trans ?_) ?_)) <;>
      · unfold State.kept Sq.enterAll
        dsimp only
        split <;> rfl
  · rfl

theorem State.kept_rebuild (s : State) : s.rebuild.kept = s.kept := by
  unfold State.rebuild
  refine kept_ite rfl ?_
  split
  · rfl
  · refine kept_ite rfl ?_
    split
    · exact kept_ite rfl (kept_abandonHead s)
    · exact kept_abandonHead s

theorem Sq.kept_ramps (f : Sq → Clutch → Sq) (hf : ∀ q c, (f q c).kept = q.kept) (cs : List Clutch) (q : Sq) :
    (cs.foldl f q).kept = q.kept := by
  induction cs generalizing q with
  | nil => rfl
  | cons c cs ih => exact (ih _).trans (hf q c)

theorem State.kept_setSq (s : State) (q : Sq) (h : q.kept = s.sq.kept) : ({ s with sq := q } : State).kept = s.kept := by
  unfold State.kept
  dsimp only
  rw [h]

theorem State.kept_rampOff (s : State) (cs : List Clutch) (n : Nat) : (s.rampOff cs n).kept = s.kept :=
  kept_setSq s _ (by apply Sq.kept_ramps; intro _ _; rfl)

theorem State.kept_rampOn (s : State) (cs : List Clutch) (f : ClutchItem → Nat) (n : Nat) : (s.rampOn cs f n).kept = s.kept :=
  kept_setSq s _ (by apply Sq.kept_ramps; intro _ _; rfl)

theorem State.kept_lockRamp (s : State) (cs : List Clutch) : (s.lockRamp cs).kept = s.kept :=
  kept_setSq s _ (by apply Sq.kept_ramps; intro _ _; rfl)

theorem State.kept_beginStep (s : State) (st : GearStep) : (s.beginStep st).kept = s.kept := by
  unfold State.beginStep
  refine kept_ite (kept_rampOff _ _ _) ?_
  split
  · exact (kept_askFill _ _ _).trans (kept_ite rfl rfl)
  · exact kept_ite rfl rfl

theorem State.kept_startPlain (s : State) : s.startPlain.kept = s.kept := by
  unfold State.startPlain
  split
  · exact kept_ite (kept_beginStep _ _) rfl
  · rfl

theorem Sq.kept_observe (q : Sq) (st : GearStep) (clean : Bool) : (q.observe st clean).kept = q.kept := by
  unfold Sq.observe
  split
  · split <;> rfl
  · rfl

theorem State.kept_finishStep (s : State) (clean : Bool) : (s.finishStep clean).kept = s.kept := by
  unfold State.finishStep
  split
  · refine (kept_rebuild _).trans ((kept_inchEntry _).trans ((kept_clearFlags _).trans (kept_setSq s _ ?_)))
    exact Sq.kept_observe _ _ _
  · rfl

theorem State.kept_zeroNeutral (s : State) (st : GearStep) : (s.zeroNeutral st).kept = s.kept := kept_finishStep _ _

theorem State.kept_tryStart (s : State) : s.tryStart.kept = s.kept := by
  unfold State.tryStart
  split
  · exact kept_ite (kept_ite ((kept_startPlain _).trans (kept_zeroNeutral _ _)) (kept_beginStep _ _)) rfl
  · rfl

theorem State.kept_endStep (s : State) (clean : Bool) : (s.endStep clean).kept = s.kept :=
  (kept_tryStart _).trans (kept_finishStep _ _)

theorem State.kept_replan (s : State) : s.replan.kept = s.kept := (kept_tryStart _).trans (kept_rebuild _)

theorem State.kept_cutNeutral (s : State) : s.cutNeutral.kept = s.kept := by
  unfold State.cutNeutral
  split
  · exact kept_ite (kept_zeroNeutral _ _) rfl
  · rfl

/-- A hand-over at the gearbox: the order as taken, and no timer of AUTO. -/
theorem State.kept_sqTake (s : State) :
    s.sqTake.kept = ((s.takenNow .gear, none, none, s.sq.slip), s.acu.kept, s.hr.kept) :=
  (kept_replan _).trans (kept_cutNeutral _)

/-! Publications. -/

theorem State.kept_reportFault (s : State) (k : FaultKind) : (s.reportFault k).kept = s.kept :=
  let h := (CausesOnly.refl s).reportFault k
  kept_congr h.sq h.acu h.hr

theorem State.kept_markUnits (s : State) (k : FaultKind) (site : Word) : (s.markUnits k site).kept = s.kept := by
  unfold State.markUnits
  dsimp only
  repeat' split
  all_goals rfl

theorem State.kept_unitsFollow (s : State) : s.unitsFollow.kept = s.kept :=
  let h := (kept_acuFollow _).trans (kept_followHold s)
  kept_ite ((kept_hrRefresh _).trans h) h

theorem State.kept_detect (s : State) (k : FaultKind) (site : Word) : (s.detect k site).kept = s.kept :=
  (kept_unitsFollow _).trans ((kept_markUnits _ _ _).trans (kept_reportFault _ _))

theorem State.kept_hotTest (s : State) (c : Clutch) : (s.hotTest c).kept = s.kept :=
  kept_ite (kept_detect _ _ _) (kept_ite rfl rfl)

theorem State.kept_hotTests (s : State) : s.hotTests.kept = s.kept := by
  unfold State.hotTests
  generalize Clutch.all = l
  induction l generalizing s with
  | nil => rfl
  | cons c l ih => exact (ih _).trans (kept_hotTest s c)

theorem State.kept_observe (s : State) : s.observe.kept = s.kept := by
  unfold State.observe
  split <;> rfl

theorem State.kept_pedalSync (s : State) (down : Bool) : (s.pedalSync down).kept = s.kept := by
  unfold State.pedalSync
  split
  · rfl
  · dsimp only
    split
    · refine kept_ite (kept_ite rfl rfl) ?_
      exact (show _ = _ from rfl : State.kept _ = _).trans (kept_ite rfl rfl)
    · exact (show _ = _ from rfl : State.kept _ = _).trans (kept_ite rfl rfl)

theorem State.kept_pedalChange (s : State) (old : Band) : (s.pedalChange old).kept = s.kept := by
  unfold State.pedalChange
  refine kept_ite rfl ?_
  have h1 : ∀ (u : State), u.kept = s.kept → ∀ (c d e : Prop) [Decidable c] [Decidable d] [Decidable e],
      (if c then (if d then u.abandonHead else u).rebuild else u).kept = s.kept := by
    intro u h c d e _ _ _
    exact kept_ite ((kept_rebuild _).trans (kept_ite ((kept_abandonHead _).trans h) h)) h
  have h2 : ∀ (u : State), u.kept = s.kept → ∀ (c : Prop) [Decidable c], (if c then u.inchEntry else u).kept = s.kept :=
    fun u h c _ => kept_ite ((kept_inchEntry _).trans h) h
  exact h1 _ (h2 _ (kept_ite (kept_pedalSync _ _) (kept_ite (kept_pedalSync _ _) rfl)) _) _ _ True

theorem State.kept_standstill (s : State) : s.standstill.kept = s.kept := by
  unfold State.standstill
  split
  · exact kept_ite rfl rfl
  · rfl

theorem State.kept_lockStart (s : State) : s.lockStart.kept = s.kept := by
  unfold State.lockStart
  split
  · exact kept_ite (kept_lockRamp _ _) rfl
  · rfl

theorem State.kept_looseStart (s : State) : s.looseStart.kept = s.kept := by
  unfold State.looseStart
  split
  · exact kept_ite (kept_lockRamp _ _) rfl
  · rfl

theorem State.kept_sqPublish (s : State) (old : Band) : (s.sqPublish old).kept = s.kept := by
  refine kept_ite rfl ?_
  exact (kept_tryStart _).trans ((kept_looseStart _).trans ((kept_lockStart _).trans ((kept_standstill _).trans
    ((kept_pedalChange _ _).trans ((kept_observe _).trans (kept_hotTests _))))))

end Sys2Proof.Machine
end

