-- ==== Sys2Proof/Laws/Timers.lean ====
section
/-! SUPPORT. The tests of the units are what the model works out; what follows from a change at the end of an event leaves each
test alone, and brings the timer of each test up to date. -/

namespace Sys2Proof.Machine

/-! The tests, as their rules word them. -/

theorem State.moving_iff (s : State) {ch : SpeedCh} (h : ch ≠ .engine) : s.moving ch = true ↔ s.CountsMoving ch := by
  unfold State.moving State.CountsMoving
  dsimp only
  cases e : (s.mu.speed.get ch).timing with
  | still r => simp [SpeedTiming.isValid]
  | valid last num den =>
    cases ch
    · exact absurd rfl h
    all_goals
      simp only [SpeedTiming.isValid, SpeedTiming.speed, speedFrom, speedScale, edgeFactor, Bool.true_and, Bool.and_eq_true,
        Bool.not_eq_true', decide_eq_true_eq, lt_min_iff]
      constructor
      · rintro ⟨h1, -, h2⟩
        exact ⟨h1, _, _, _, rfl, h2⟩
      · rintro ⟨h1, _, _, _, h3, h2⟩
        cases h3
        exact ⟨h1, by decide, h2⟩

theorem State.silent_iff (s : State) (ch : SpeedCh) : s.silent ch = true ↔ s.SilentWhileMoving ch := by
  unfold State.silent State.SilentWhileMoving
  have hv : (!(s.mu.speed.get ch).timing.isValid) = true ↔ ∃ e, (s.mu.speed.get ch).timing = .still e := by
    cases (s.mu.speed.get ch).timing <;> simp [SpeedTiming.isValid]
  rw [Bool.and_eq_true, hv]
  have m1 := s.moving_iff (ch := .output) (by decide)
  have m2 := s.moving_iff (ch := .front) (by decide)
  have m3 := s.moving_iff (ch := .radar) (by decide)
  have he : s.sq.engaged.isSome = true ↔ s.sq.state .cf = .locked ∨ s.sq.state .cr = .locked := by
    unfold Sq.engaged Sq.locked
    by_cases h1 : s.sq.state .cf = .locked <;> by_cases h2 : s.sq.state .cr = .locked <;> simp [h1, h2]
  have hex : ∀ (p : SpeedCh → Prop), (∃ c, p c) ↔ p .engine ∨ p .output ∨ p .front ∨ p .radar := by
    intro p
    constructor
    · rintro ⟨c, hc⟩
      cases c <;> simp [hc]
    · rintro (h | h | h | h) <;> exact ⟨_, h⟩
  refine and_congr_right fun _ => ?_
  cases ch <;> simp [m1, m2, m3, he, hex]

theorem State.disagree_iff (s : State) : s.disagree = true ↔ s.SpeedsDisagree := by
  unfold State.disagree State.SpeedsDisagree
  dsimp only
  have hv : (s.mu.speed.get .radar).timing.isValid = true ↔
      ∃ last num den, (s.mu.speed.get .radar).timing = .valid last num den := by
    cases (s.mu.speed.get .radar).timing <;> simp [SpeedTiming.isValid]
  cases s.pub.radar <;> cases s.pub.wheel <;> simp [hv, and_assoc]

theorem State.supplyIsLow_iff (s : State) : s.supplyIsLow = true ↔ s.SupplyBelow := by
  unfold State.supplyIsLow State.SupplyBelow supplyMin
  cases s.pub.supply <;> simp

theorem State.gearSlips_iff (s : State) : s.gearSlips = true ↔ s.DrivenGearSlips := by
  unfold State.gearSlips State.DrivenGearSlips State.slipOf State.expected gearRatio
  cases s.sq.engaged <;> cases s.sq.range <;> cases s.sq.step <;> cases s.pub.wheel <;> cases s.pub.engine <;> simp
  next d r n w e =>
    have hg : gearOf r n - 1 = 4 * r.num + n.num := by
      unfold gearOf
      omega
    rw [hg]
    generalize itemNat s.items _ (4 * r.num + n.num) = x
    rw [← Nat.cast_mul, and_assoc]
    generalize w * x = y
    refine and_congr_right fun _ => and_congr_right fun _ => ?_
    omega

theorem State.acuMismatch_iff (s : State) : s.acuMismatch = true ↔ s.AxlesDisagree := by
  unfold State.acuMismatch State.AxlesDisagree
  cases s.pub.front <;> cases s.pub.wheel <;> simp [and_assoc]

theorem State.tbuMisses_iff (s : State) : s.tbuMisses = true ↔ s.LineMisses := by
  unfold State.tbuMisses State.LineMisses
  cases s.pub.line <;> simp [and_assoc]
  intros
  omega

theorem State.openCondition_iff (s : State) (ch : OutCh) : s.openCondition ch = true ↔ s.LoadOpen ch := by
  unfold State.openCondition State.LoadOpen
  simp [and_assoc]

theorem State.autoUp_iff (s : State) :
    (s.autoRuns && s.wantsUp) = true ↔ ∃ e, s.AutoRuns e ∧ takenField s.sq.taken 5 < e := by
  unfold State.autoRuns State.wantsUp State.AutoRuns Sq.auto
  have ht : takenField s.sq.taken 0 = 2 → s.sq.taken.isSome = true := by
    unfold takenField
    cases s.sq.taken <;> simp
  cases s.pub.engine <;> simp
  intro _
  constructor
  · rintro ⟨⟨⟨_, h⟩, h1⟩, h2⟩
    exact ⟨h, h1, h2⟩
  · rintro ⟨h, h1, h2⟩
    exact ⟨⟨⟨ht h, h⟩, h1⟩, h2⟩

theorem State.autoDown_iff (s : State) :
    (s.autoRuns && s.wantsDown) = true ↔ ∃ e, s.AutoRuns e ∧ e < takenField s.sq.taken 6 := by
  unfold State.autoRuns State.wantsDown State.AutoRuns Sq.auto
  have ht : takenField s.sq.taken 0 = 2 → s.sq.taken.isSome = true := by
    unfold takenField
    cases s.sq.taken <;> simp
  cases s.pub.engine <;> simp
  intro _
  constructor
  · rintro ⟨⟨⟨_, h⟩, h1⟩, h2⟩
    exact ⟨h, h1, h2⟩
  · rintro ⟨h, h1, h2⟩
    exact ⟨⟨⟨ht h, h⟩, h1⟩, h2⟩

/-- A followed timer follows its test. -/
theorem Follows.of {test : Prop} {b : Bool} (h : b = true ↔ test) (now : Time) (t : Timer) :
    Follows test now t (t.follow b now) := by
  unfold Follows Timer.follow Timer.begun
  constructor
  · intro ht
    rw [if_pos (h.mpr ht)]
    cases t <;> rfl
  · intro ht
    rw [if_neg (mt h.mp ht)]

/-! The end of an event leaves every test alone. -/

namespace SettleOnly

variable {s t : State}

theorem running (h : SettleOnly s t) : t.running = s.running := by
  unfold State.running
  rw [h.cs]

theorem items (h : SettleOnly s t) : t.items = s.items := by
  unfold State.items
  rw [h.cs]

theorem enable (h : SettleOnly s t) : t.enable = s.enable := by
  unfold State.enable
  rw [h.inputs]

theorem pub (h : SettleOnly s t) : t.pub = s.pub := by
  unfold State.pub
  rw [h.mu]

theorem taken (h : SettleOnly s t) : t.sq.taken = s.sq.taken := by rw [h.sq]

theorem queue (h : SettleOnly s t) : t.sq.queue = s.sq.queue := by rw [h.sq]

theorem clutchState (h : SettleOnly s t) (c : Clutch) : t.sq.state c = s.sq.state c := by
  unfold Sq.state
  rw [h.clutch c]

theorem engaged (h : SettleOnly s t) : t.sq.engaged = s.sq.engaged := by
  unfold Sq.engaged Sq.locked
  simp only [h.clutchState]

theorem range (h : SettleOnly s t) : t.sq.range = s.sq.range := by
  unfold Sq.range Sq.locked
  simp only [h.clutchState]

theorem step (h : SettleOnly s t) : t.sq.step = s.sq.step := by
  unfold Sq.step Sq.locked
  simp only [h.clutchState]

theorem seqState (h : SettleOnly s t) : t.seqState = s.seqState := by
  unfold State.seqState Sq.seq Sq.started Sq.dirsOpen Sq.syncDir
  simp only [h.running, h.enable, h.queue, h.clutchState, h.engaged]

theorem order (h : SettleOnly s t) (k : Nat) : (t.order k).map Order.still = (s.order k).map Order.still := h.states.still k

theorem governing (h : SettleOnly s t) (ch : Channel) : t.governing ch = s.governing ch := by
  unfold State.governing State.list
  rw [h.states.lists]
  congr 1
  funext k
  have ho := h.order k
  unfold State.isGoverning
  cases hs : s.order k <;> cases ht : t.order k <;> rw [hs, ht] at ho <;> simp at ho
  next a b =>
    have e : b.still.state = a.still.state := by rw [ho]
    simp [show b.state = a.state from e]

theorem tbuLaw (h : SettleOnly s t) : t.tbuLaw = s.tbuLaw := by
  unfold State.tbuLaw
  rw [h.items, h.pub, h.tbu]

theorem tbuState (h : SettleOnly s t) : t.tbuState = s.tbuState := by
  unfold State.tbuState
  rw [h.governing, h.running, h.tbuLaw, h.tbu, h.sq]

theorem tbuDemand (h : SettleOnly s t) : t.tbuDemand = s.tbuDemand := by
  unfold State.tbuDemand
  rw [h.running, h.tbuState, h.tbuLaw, h.items, h.tbu]

theorem moving (h : SettleOnly s t) (ch : SpeedCh) : t.moving ch = s.moving ch := by
  unfold State.moving
  rw [h.items, h.speed ch]

theorem silent (h : SettleOnly s t) (ch : SpeedCh) : t.silent ch = s.silent ch := by
  unfold State.silent
  simp only [h.moving, h.engaged]
  rw [h.speed ch]

theorem disagree (h : SettleOnly s t) : t.disagree = s.disagree := by
  unfold State.disagree
  dsimp only
  rw [h.pub, h.speed .radar]

theorem gearSlips (h : SettleOnly s t) : t.gearSlips = s.gearSlips := by
  unfold State.gearSlips State.slipOf State.expected
  rw [h.engaged, h.range, h.step, h.pub, h.seqState, h.items]

theorem autoRuns (h : SettleOnly s t) : t.autoRuns = s.autoRuns := by
  unfold State.autoRuns Sq.auto
  rw [h.taken, h.seqState, h.queue, h.pub]

theorem wantsUp (h : SettleOnly s t) : t.wantsUp = s.wantsUp := by
  unfold State.wantsUp
  rw [h.taken, h.pub]

theorem wantsDown (h : SettleOnly s t) : t.wantsDown = s.wantsDown := by
  unfold State.wantsDown
  rw [h.taken, h.pub]

theorem acuMismatch (h : SettleOnly s t) : t.acuMismatch = s.acuMismatch := by
  unfold State.acuMismatch
  rw [h.pub, h.running, h.acu]

theorem tbuMisses (h : SettleOnly s t) : t.tbuMisses = s.tbuMisses := by
  unfold State.tbuMisses
  rw [h.pub, h.running, h.enable, h.tbuState, h.tbuDemand, h.tbu]

end SettleOnly

/-! The end of an event brings the timers up to date. -/

/-- Two states with the same units and the same measurement. -/
def SameUnits (s t : State) : Prop := t.mu = s.mu ∧ t.sq = s.sq ∧ t.acu = s.acu ∧ t.tbu = s.tbu

theorem SameUnits.ofCauses {s t : State} (h : CausesOnly s t) : SameUnits s t := ⟨h.mu, h.sq, h.acu, h.tbu⟩

theorem SameUnits.trans {s t u : State} (h : SameUnits s t) (g : SameUnits t u) : SameUnits s u :=
  ⟨g.1.trans h.1, g.2.1.trans h.2.1, g.2.2.1.trans h.2.2.1, g.2.2.2.trans h.2.2.2⟩

theorem State.sameUnits_writeKeeping (s : State) (ch : Channel) (v : Keeping) : SameUnits s (s.writeKeeping ch v) := by
  unfold State.writeKeeping
  split
  · exact ⟨rfl, rfl, rfl, rfl⟩
  · split
    · exact ⟨rfl, rfl, rfl, rfl⟩
    · split
      · exact ⟨rfl, rfl, rfl, rfl⟩
      · next k _ _ o _ _ =>
        exact SameUnits.trans (t := s.setOrder k { o with keeping := v }) ⟨rfl, rfl, rfl, rfl⟩
          (.ofCauses ((CausesOnly.refl _).noteChange _ _))

theorem State.sameUnits_keepAll (s : State) : SameUnits s s.keepAll := by
  unfold State.keepAll
  split
  · exact (((State.sameUnits_writeKeeping _ _ _).trans (State.sameUnits_writeKeeping _ _ _)).trans
      (State.sameUnits_writeKeeping _ _ _)).trans (State.sameUnits_writeKeeping _ _ _)
  · exact ⟨rfl, rfl, rfl, rfl⟩

theorem State.sameUnits_sweep (s : State) (about : Quantity → Bool) : SameUnits s (s.sweep about) := by
  unfold State.sweep
  generalize List.range 48 = l
  induction l generalizing s with
  | nil => exact ⟨rfl, rfl, rfl, rfl⟩
  | cons k l ih =>
    refine SameUnits.trans ?_ (ih _)
    unfold State.sweepSlot
    split
    · split
      · exact ⟨rfl, rfl, rfl, rfl⟩
      · unfold State.lcuReport
        dsimp only
        split <;> exact ⟨rfl, rfl, rfl, rfl⟩
    · exact ⟨rfl, rfl, rfl, rfl⟩

theorem State.sameUnits_gearReport (s : State) (old : Sq) : SameUnits s (s.gearReport old) := by
  unfold State.gearReport
  have h1 : SameUnits s (if s.sq.record = old.record then s else s.setCauseBoth .gear) := by
    split
    · exact ⟨rfl, rfl, rfl, rfl⟩
    · exact .ofCauses ((CausesOnly.refl s).setCauseBoth .gear)
  dsimp only
  split
  · exact h1
  · exact h1.trans (State.sameUnits_sweep _ _)

/-- All that the end of an event does to the timers of the tests: each follows its test in the state that the event leaves. -/
theorem State.settle_timers (s : State) (old : Sq) :
    let t := s.settle old
    (∀ ch, (t.mu.speed.get ch).lostTimer = (s.mu.speed.get ch).lostTimer.follow (t.silent ch) s.now) ∧
    t.mu.mismatch = s.mu.mismatch.follow t.disagree s.now ∧ t.mu.supply = s.mu.supply ∧
    t.sq.up = s.sq.up.follow (t.autoRuns && t.wantsUp) s.now ∧
    t.sq.down = s.sq.down.follow (t.autoRuns && t.wantsDown) s.now ∧ t.sq.slip = s.sq.slip.follow t.gearSlips s.now ∧
    t.acu.mismatch = s.acu.mismatch.follow t.acuMismatch s.now ∧ t.tbu.tracking = s.tbu.tracking.follow t.tbuMisses s.now := by
  have ht := (SettleOnly.refl s).settle old
  have a1 := (SettleOnly.refl s).osGuard
  have a2 := a1.sqGuard
  have a3 := a2.gearReport old
  have a4 := a3.followLost
  have a5 := a4.followMismatch
  have u3 := State.sameUnits_gearReport s.osGuard.sqGuard old
  have u9 := State.sameUnits_keepAll
    (((((((s.osGuard.sqGuard).gearReport old).followLost).followMismatch).unitGuards).clutchCurrents).handSetpoints)
  have u8 : SameUnits (((((((s.osGuard.sqGuard).gearReport old).followLost).followMismatch).unitGuards).clutchCurrents))
      ((((((((s.osGuard.sqGuard).gearReport old).followLost).followMismatch).unitGuards).clutchCurrents).handSetpoints)) := by
    unfold State.handSetpoints
    split <;> exact ⟨rfl, rfl, rfl, rfl⟩
  have u := u8.trans u9
  intro t
  have tmu : t.mu = _ := u.1
  have tsq : t.sq = _ := u.2.1
  have tacu : t.acu = _ := u.2.2.1
  have ttbu : t.tbu = _ := u.2.2.2
  rw [ht.autoRuns, ht.wantsUp, ht.wantsDown, ht.gearSlips, ht.acuMismatch, ht.tbuMisses, ht.disagree]
  refine ⟨fun ch => ?_, ?_, ?_, ?_, ?_, ?_, ?_, ?_⟩
  · rw [ht.silent, tmu]
    show (((s.osGuard.sqGuard).gearReport old).followLost.mu.speed.get ch).lostTimer = _
    unfold State.followLost
    rw [BySpeed.get_tabulate, a3.silent, u3.1]
    show (s.mu.speed.get ch).lostTimer.follow _ (((s.osGuard.sqGuard).gearReport old).lcu.now) = _
    rw [a3.now]
    rfl
  · rw [tmu, ← a4.disagree]
    show ((s.osGuard.sqGuard).gearReport old).followLost.followMismatch.mu.mismatch = _
    show (((s.osGuard.sqGuard).gearReport old).mu.mismatch).follow _ (((s.osGuard.sqGuard).gearReport old).lcu.now) = _
    rw [a3.now, u3.1]
    rfl
  · rw [tmu]
    show ((s.osGuard.sqGuard).gearReport old).mu.supply = _
    rw [u3.1]
    rfl
  · rw [tsq]
    show ((s.osGuard.sqGuard).gearReport old).sq.up = _
    rw [u3.2.1, ← a1.autoRuns, ← a1.wantsUp]
    rfl
  · rw [tsq]
    show ((s.osGuard.sqGuard).gearReport old).sq.down = _
    rw [u3.2.1, ← a1.autoRuns, ← a1.wantsDown]
    rfl
  · rw [tsq]
    show ((s.osGuard.sqGuard).gearReport old).sq.slip = _
    rw [u3.2.1, ← a1.gearSlips]
    rfl
  · rw [tacu, ← a5.acuMismatch]
    show (((s.osGuard.sqGuard).gearReport old).acu.mismatch).follow _ (((s.osGuard.sqGuard).gearReport old).lcu.now) = _
    rw [a3.now, u3.2.2.1]
    rfl
  · rw [ttbu, ← a5.tbuMisses]
    show (((s.osGuard.sqGuard).gearReport old).tbu.tracking).follow _ (((s.osGuard.sqGuard).gearReport old).lcu.now) = _
    rw [a3.now, u3.2.2.2]
    rfl

end Sys2Proof.Machine
end

