-- ==== Sys2Proof/Tests/Slice0.lean ====
section
/-! SUPPORT. Tests: ill-formed commands, frames, small steps, and for each statement with hypotheses a state that meets
them. -/

namespace Sys2Proof.Machine.Tests

set_option Elab.async false

/-! Well-formedness: one ill-formed command for each check, beside the last good value. -/

theorem test_illformed_selectedEdge :
    (Instr.selectedEdge .engine 999).wellFormed = true ∧ (Instr.selectedEdge .engine 1000).wellFormed = false := by decide

theorem test_illformed_dwellEnd :
    (Instr.dwellEnd 47 .first).wellFormed = true ∧ (Instr.dwellEnd 48 .first).wellFormed = false := by decide

theorem test_illformed_conditionReport :
    (Instr.conditionReport 47).wellFormed = true ∧ (Instr.conditionReport 48).wellFormed = false := by decide

theorem test_illformed_badRequest :
    (Instr.badRequest .cab 0 22).wellFormed = true ∧ (Instr.badRequest .cab 0 21).wellFormed = false := by decide

/-- A NOP frame with tag 5 (R171, R186). -/
def nopFrame : List Byte := [0, 5, 0, 0, 0, 0, 0, 0, 0, 0, 0, 0, 0, 0, 0, 0, 0, 0, 0, 0, 0, 0, 0, 0, 0x39]

theorem test_illformed_badFrame :
    (Instr.badFrame .cab nopFrame false).wellFormed = false ∧ (Instr.badFrame .cab nopFrame true).wellFormed = true ∧
    (Instr.badFrame .cab (nopFrame.take 24) false).wellFormed = true ∧
    (Instr.badFrame .cab (nopFrame.set 24 0) false).wellFormed = true := by decide +kernel

/-! Frames. -/

theorem test_crc_check_string :
    crc8 [0x31, 0x32, 0x33, 0x34, 0x35, 0x36, 0x37, 0x38, 0x39] = 0x20 := by decide +kernel

theorem test_nop_frame : frameCommand .cab nopFrame false = .nop .cab 5 := by decide +kernel

theorem test_no_row_gives_bits : decodeTableWord 8 0 = none ∧ State.reset.withFetchWord 8 0 = State.reset := by
  exact ⟨rfl, rfl⟩

/-! States for the tests. -/

/-- A store that START takes: falling ratios and quotas that add up to 40. -/
def driveItems : List (List Word) :=
  let ratios : List Word := [2400, 2200, 2000, 1800, 1600, 1400, 1200, 1050, 900, 800, 700, 600]
  writeItem (writeItem (writeItem defaultItems 0 0 ratios) 1 0 ratios) 24 0 [16, 24]

/-- Right after power-on reset with ENABLE high. -/
def quiet : State := State.powerOn ⟨true, false, false⟩ ⟨none, none⟩ ⟨false, false⟩

/-- Right after power-on reset, with a store that START takes. -/
def ready : State := { quiet with cs := ⟨.config, driveItems⟩ }

/-- In RUN, at a time of the timebase. -/
def runAt (t : Time) : State := { quiet with cs := ⟨.run, driveItems⟩, lcu := { Lcu.reset with now := t } }

/-- A HITCH order of CAB. -/
def hitchOrder : Order := placed .cab .hitch 1 0 0 ⟨0, 420, 0, 0, 150, 900, 0, 0⟩

/-- The same, with a lease. -/
def leased : Order := { hitchOrder with lease := 500 }

/-- An order in slot 8 of the HITCH list. -/
def withOrder (s : State) (o : Order) : State :=
  { s with
    otu := { s.otu with
      slots := s.otu.slots.set 8 ⟨0, some o⟩, lists := { s.otu.lists with hitch := [2, 8, 6] }, live := ⟨1, 0⟩ } }

/-- The same, with the lease's entry. -/
def withLease (s : State) (o : Order) (deadline : Time) : State :=
  let t := withOrder s o
  { t with lcu := { t.lcu with leases := [⟨8, deadline⟩] } }

/-- A started step at the head of the queue. -/
def withStep (s : State) (st : GearStep) : State := { s with sq := { s.sq with queue := [st] } }

/-- A timer started at 0. -/
def since0 : Timer := some ⟨0, false⟩

theorem takes_quiet (p : Port) : (quiet.port p).takes := by cases p <;> exact ⟨rfl, rfl⟩

theorem takes_run (t : Time) (p : Port) : ((runAt t).port p).takes := by cases p <;> exact ⟨rfl, rfl⟩

theorem takes_withOrder (t : Time) (o : Order) (p : Port) : ((withOrder (runAt t) o).port p).takes := by
  cases p <;> exact ⟨rfl, rfl⟩

/-! Small steps. -/

theorem test_empty_queue_idles : step State.reset = .next State.reset := rfl

theorem test_nop_is_answered :
    (match exec (.nop .implement 7) State.reset with
    | .next t => (t.port .implement).inFlight | _ => none) =
      some ⟨0, 7, .ok, .dormant, .empty, 0, .zero⟩ := by decide +kernel

theorem test_first_start_fails_at_F1 :
    (match exec (.start .cab 1) State.reset with
    | .next t => ((t.port .cab).inFlight.map fun a => (a.result, a.vals.v1, a.vals.v2)) | _ => none) =
      some (.configInvalid, 0, 0) := by decide +kernel

theorem test_start_enters_run_with_free_steps :
    (match exec (.start .cab 1) ready with
    | .next t => (t.running, t.sq.queue.map GearStep.on, (t.os.get .oc12).pending, (t.port .cab).changed)
    | _ => (false, [], 0, [])) =
      (true, [[.ca], [.c1]], 1600, [4, 5, 6, 7]) := by decide +kernel

/-- Step 1 of the worked example of chapter 1. -/
theorem test_place_governs_hitch :
    (match exec (.place .cab 7 2 1 0 0 ⟨0, 420, 0, 0, 150, 900, 0, 0⟩) (runAt 5) with
    | .next t => ((t.port .cab).inFlight.map fun a => (a.result, a.handle, a.state), t.list .hitch, t.live .cab)
    | _ => (none, [], 0)) =
      (some (.ok, ⟨8, 0⟩, .governing), [2, 8, 6], 1) := by decide +kernel

theorem test_lease_expiry_lapses :
    (match exec .leaseExpiry (withLease (runAt 500) leased 500) with
    | .next t => ((t.order 8).map Order.state, t.lcu.leases, t.governing .hitch)
    | _ => (none, [], none)) =
      (some .lapsed, [], some 6) := by decide +kernel

theorem test_enable_fall_is_latched :
    (match exec .enableFall (runAt 5) with
    | .next t => (t.fu.entry.get .enableLost, t.fu.safeNeutral, t.fu.reports)
    | _ => (⟨false, none⟩, false, [])) =
      (⟨true, some 0⟩, true, [(.safeNeutral, true)]) := by decide +kernel

/-- A full converter count of a default channel: 4095 times 1000 by 4096 is 999. -/
theorem test_publication_scales :
    (match exec (.muPublication ⟨2000, 2048, 2148, 200, 200, 200, 200, 2000⟩) quiet with
    | .next t => (t.now, t.pub.position, t.pub.draft, t.pub.band)
    | _ => (0, none, none, .pressed)) =
      (1, some 488, some 48, .released) := by decide +kernel

/-! States that meet the hypotheses of the statements. -/

theorem test_meets_StepRunsTheFrontCommand : State.reset.pending = [] := rfl

theorem test_meets_TimebaseCountsMilliseconds :
    (∃ t, exec (.muPublication (.tabulate fun _ => 0)) State.reset = .next t) ∧
    (∃ t, exec .powerOnReset State.reset = .next t) ∧ ∃ t, exec .fillEnd State.reset = .next t :=
  ⟨⟨_, rfl⟩, ⟨_, rfl⟩, ⟨_, rfl⟩⟩

/-- The trailer input high and its debounce timer running since 0, in a millisecond whose publication has come. -/
def plugged (t : Time) : State :=
  { runAt t with inputs := ⟨true, true, false⟩, tbu := { Tbu.reset with debounce := since0 } }

/-- The end of a time that comes with the next millisecond is taken ahead of its publication, and not earlier. -/
theorem test_time_ends_ahead_of_the_publication :
    (match exec .debounceTimerExpiry (plugged 99) with
    | .next t => (t.now, t.mu.published, t.tbu.presence) | _ => (0, true, false)) = (100, false, true) ∧
    (match exec .debounceTimerExpiry (plugged 98) with
    | .next t => (t.now, t.mu.published, t.tbu.presence) | _ => (0, true, false)) = (98, true, false) := by
  decide +kernel

theorem test_meets_NoCurrentUnlessEnabledInRun :
    State.reset.enable = false ∧ quiet.running = false ∧ quiet.enable = true := by decide

theorem test_meets_FrameRoundTrip :
    (Instr.amend .cab 1 47 255 16 true 127 65535 .zero).wellFormed = true ∧
    (requestFrame (.amend .cab 1 47 255 16 true 127 65535 .zero)).isSome = true ∧
    (Instr.badRequest .implement 1 255).wellFormed = true ∧ (Instr.badFrame .cab [] false).wellFormed = true := by
  decide +kernel

/-- An answer in flight. -/
def flight : PortRec := { quiet.port .cab with inFlight := some (.plain 0 1 .ok .zero) }

theorem test_meets_TransactionsCarryAnswers :
    (quiet.port .cab).txn = none ∧ (quiet.port .cab).resetHeld = false ∧ (quiet.port .cab).inFlight = none ∧
    flight.inFlight.isSome = true ∧ flight.txn = none ∧
    ({ flight with resetHeld := true } : PortRec).txn = none ∧
    ({ flight with txn := some ⟨true, false⟩ } : PortRec).txn = some ⟨true, false⟩ ∧
    ({ flight with txn := some ⟨false, false⟩ } : PortRec).txn = some ⟨false, false⟩ := by decide

theorem test_meets_TransactionsCarryAnswers_turnedAway :
    (quiet.port .implement).takes ∧
    (let s := quiet.setPort .cab { flight with txn := some ⟨true, false⟩ }
     (s.port .cab).resetHeld = false ∧ (s.port .cab).txn = some ⟨true, false⟩) ∧
    (let s := quiet.setPort .cab { flight with txn := some ⟨false, true⟩ }
     (s.port .cab).txn = some ⟨false, true⟩ ∧ (s.port .cab).resetHeld = false) ∧
    (let s := quiet.setPort .cab { flight with txn := some ⟨true, false⟩, resetHeld := true }
     (s.port .cab).txn = some ⟨true, false⟩ ∧ (s.port .cab).resetHeld = true) :=
  ⟨takes_quiet _, by decide, by decide, by decide⟩

theorem test_meets_PortAnswersByItself : (quiet.port .cab).takes ∧ (quiet.port .implement).takes :=
  ⟨takes_quiet _, takes_quiet _⟩

theorem test_meets_OrderQueriesReport_read :
    (quiet.port .cab).takes ∧ quiet.lookup ⟨8, 0⟩ = none ∧ quiet.lookup ⟨48, 0⟩ = none ∧ quiet.lookup ⟨0, 1⟩ = none ∧
    (quiet.lookup ⟨7, 0⟩).isSome = true := ⟨takes_quiet _, by decide⟩

theorem test_meets_OrderQueriesReport_find :
    (quiet.port .implement).takes ∧ channelOf 3 = some .tbrake ∧ quiet.governing .tbrake = some 7 ∧
    (quiet.order 7).isSome = true := ⟨takes_quiet _, by decide⟩

theorem test_meets_OrderQueriesReport_list :
    (quiet.port .cab).takes ∧ channelOf 0 = some .gear ∧ (41 : Byte).toNat ≤ 41 ∧ 41 < (42 : Byte).toNat ∧
    3 < (4 : Byte).toNat :=
  ⟨takes_quiet _, by decide⟩

theorem test_meets_ViewsAndItemsAreReported :
    (quiet.port .cab).takes ∧ (quiet.view 0).isSome = true ∧ (quiet.view 8).isSome = true ∧ 8 < (9 : Byte).toNat ∧
    28 < (29 : Byte).toNat ∧ itemLength 28 ≤ (13 : Byte).toNat ∧ (12 : Byte).toNat < itemLength 28 :=
  ⟨takes_quiet _, by decide +kernel⟩

theorem test_meets_FaultReadReports :
    (quiet.port .cab).takes ∧ kindOf 0 = some .outOpen ∧ kindOf 14 = some .enableLost ∧ kindOf 15 = none ∧
    kindOf 254 = none := ⟨takes_quiet _, by decide⟩

theorem test_meets_CollectAndCausesAreTaken_collect :
    ((quiet.setPort .cab { flight with txn := some ⟨false, false⟩, changed := [0, 4, 47] }).port .cab).takes :=
  ⟨rfl, rfl, rfl⟩

theorem test_meets_CollectAndCausesAreTaken_causes :
    (quiet.port .cab).takes ∧
    (let s := (runAt 20).setPort .cab { quiet.port .cab with throttle := some 20, causes := 1 }
     (s.port .cab).throttle = some 20 ∧ remaining s.now 20 = 0 ∧ (s.port .cab).asserted = false) :=
  ⟨takes_quiet _, by decide⟩

/-- A mask over the last cause of an asserted line starts the throttle timer. -/
theorem test_meets_MasksAreWritten :
    (quiet.port .implement).takes ∧
    (match exec (.maskSet .cab 1 0 4) (quiet.setPort .cab { quiet.port .cab with causes := 4, asserted := true }) with
    | .next t => ((t.port .cab).asserted, (t.port .cab).throttle) | _ => (true, none)) = (false, some 20) :=
  ⟨takes_quiet _, by decide +kernel⟩

theorem test_meets_PlaceCreatesAnOrder :
    ((runAt 5).port .cab).takes ∧ channelOf 2 = some .hitch ∧ (runAt 5).running = true ∧
    (runAt 5).mayPlace .cab .hitch 1 = true ∧ leaseOk (ownerOf .cab) 5000 = true ∧
    setpointOk .hitch ⟨0, 420, 0, 0, 150, 900, 0, 0⟩ = true ∧ (runAt 5).live .cab < quota (runAt 5).items .cab ∧
    (runAt 5).freeSlot = some 8 ∧ (runAt 5).otu.slots.length = 48 ∧ ((runAt 5).list .hitch).Nodup ∧
    8 ∉ (runAt 5).list .hitch := ⟨takes_run _ _, by decide +kernel⟩

/-- A full pool: every slot live. -/
def full : State := { runAt 5 with otu := { (runAt 5).otu with slots := List.replicate 48 ⟨0, some hitchOrder⟩ } }

theorem test_meets_PlaceAndAmendCheckInOrder :
    ((runAt 5).port .cab).takes ∧ channelOf 4 = none ∧ channelOf 3 = some .tbrake ∧ quiet.running = false ∧
    (runAt 5).mayPlace .cab .tbrake 0 = false ∧ leaseOk .implement 0 = false ∧ leaseOk .cab 5010 = false ∧
    quota (runAt 5).items .cab ≤ ({ runAt 5 with otu := { (runAt 5).otu with live := ⟨16, 0⟩ } } : State).live .cab ∧
    full.freeSlot = none ∧ full.live .cab < quota full.items .cab ∧ full.running = true := by
  exact ⟨takes_run _ _, by decide +kernel⟩

theorem test_meets_PlaceAndAmendCheckInOrder_amend :
    ((withOrder (runAt 5) hitchOrder).port .cab).takes ∧ (runAt 5).lookup ⟨8, 0⟩ = none ∧
    (withOrder (runAt 5) hitchOrder).lookup ⟨8, 0⟩ = some hitchOrder ∧ hitchOrder.owner = ownerOf .cab ∧
    hitchOrder.owner ≠ ownerOf .implement ∧ ({ hitchOrder with state := .lapsed } : Order).state = .lapsed ∧
    hitchOrder.gen = 1 ∧ hitchOrder.writable 14 = true ∧ hitchOrder.writable 15 = false ∧
    (hitchOrder.writeFields 9 [1001]).inRange = false := ⟨takes_withOrder _ _ _, by decide +kernel⟩

theorem test_meets_AmendWritesARun :
    ((withOrder (runAt 5) hitchOrder).port .cab).takes ∧
    (withOrder (runAt 5) hitchOrder).lookup ⟨8, 0⟩ = some hitchOrder ∧ hitchOrder.owner = ownerOf .cab ∧
    hitchOrder.state ≠ .lapsed ∧ hitchOrder.gen = 1 ∧ (∀ i < 7, hitchOrder.writable (8 + i) = true) ∧
    (hitchOrder.writeFields 8 [1, 1000, 0, 0, 500, 1000, 50]).inRange = true ∧
    (hitchOrder.writeFields 9 []).inRange = true := ⟨takes_withOrder _ _ _, by decide +kernel⟩

/-- An order beyond the table is none: a claim about every slot is one about 48. -/
theorem order_of_lt {s : State} (h : s.otu.slots.length = 48) {P : Nat → Option Order → Prop} (hn : ∀ k, P k none)
    (hl : ∀ k < 48, P k (s.order k)) (k : Nat) : P k (s.order k) := by
  rcases Nat.lt_or_ge k 48 with hk | hk
  · exact hl k hk
  · have : s.order k = none := by simp [State.order, List.getElem?_eq_none (h ▸ hk)]
    rw [this]; exact hn k

/-- The lease list of a state with one leased order is well formed. -/
theorem leaseForm_withLease : (withLease (runAt 5) leased 500).LeaseForm where
  size := by decide +kernel
  backed := by decide +kernel
  once := by decide
  entered := by
    refine order_of_lt (s := withLease (runAt 5) leased 500) (by decide +kernel)
      (P := fun k x => ∀ o, x = some o → o.lease ≠ 0 → o.state ≠ .lapsed →
        k ∈ (withLease (runAt 5) leased 500).lcu.leases.map Lease.slot) (by intro k o h; simp at h) ?_
    have h : ∀ k < 48, ((withLease (runAt 5) leased 500).order k).all
        (fun o => o.lease = 0 || k ∈ (withLease (runAt 5) leased 500).lcu.leases.map Lease.slot) = true := by
      decide +kernel
    intro k hk o ho hz _
    have := h k hk
    rw [ho] at this
    have hb : (o.lease = 0 || k ∈ (withLease (runAt 5) leased 500).lcu.leases.map Lease.slot) = true := this
    rcases Bool.or_eq_true _ _ |>.mp hb with h0 | h1
    · exact absurd (of_decide_eq_true h0) hz
    · exact of_decide_eq_true h1
  unleased := by
    refine order_of_lt (s := withLease (runAt 5) leased 500) (by decide +kernel)
      (P := fun _ x => ∀ o, x = some o → o.owner = .internal → o.lease = 0) (by intro k o h; simp at h) ?_
    have h : ∀ k < 48, ((withLease (runAt 5) leased 500).order k).all
        (fun o => o.owner ≠ .internal || o.lease = 0) = true := by decide +kernel
    intro k hk o ho hi
    have := h k hk
    rw [ho] at this
    simpa [hi] using this
  config := by intro h; exact absurd h (by decide)

theorem test_meets_RenewRestartsTheLease :
    ((withLease (runAt 5) leased 500).port .cab).takes ∧ (withLease (runAt 5) leased 500).LeaseForm ∧
    (withLease (runAt 5) leased 500).lookup ⟨8, 1⟩ = none ∧
    (withLease (runAt 5) leased 500).lookup ⟨8, 0⟩ = some leased ∧ leased.owner = ownerOf .cab ∧
    leased.owner ≠ ownerOf .implement ∧ leased.state ≠ .lapsed ∧ leased.lease ≠ 0 ∧ hitchOrder.lease = 0 :=
  ⟨⟨rfl, rfl⟩, leaseForm_withLease, by decide +kernel⟩

theorem test_meets_RetireFreesTheOrder :
    ((withOrder (runAt 5) hitchOrder).port .cab).takes ∧ (withOrder (runAt 5) hitchOrder).lookup ⟨9, 0⟩ = none ∧
    (withOrder (runAt 5) hitchOrder).lookup ⟨8, 0⟩ = some hitchOrder ∧ hitchOrder.owner = ownerOf .cab ∧
    hitchOrder.owner ≠ ownerOf .implement ∧ hitchOrder.gen ≠ 65535 := ⟨takes_withOrder _ _ _, by decide +kernel⟩

theorem test_meets_ResolutionGivesStates :
    let s := withOrder (runAt 5) hitchOrder
    (s.list .hitch).Nodup ∧ 8 ∈ s.list .hitch ∧ s.order 8 = some hitchOrder := by decide +kernel

/-- A latched kind that is active, and one that is not. -/
def faulty : State :=
  { State.reset with
    fu := { State.reset.fu with
      entry := (State.reset.fu.entry.set .enableLost ⟨true, some 0⟩).set .flowStarved ⟨true, some 9⟩ } }

theorem test_meets_ClearFaultUnlatches :
    (faulty.port .cab).takes ∧ kindOf 15 = none ∧ kindOf 5 = some .flowStarved ∧ faulty.latched .outOpen = false ∧
    ({ faulty with flow := { Flow.reset with hold := true, axle := ⟨.waiting, 3, 0, none⟩ } } : State).flow.hold = true ∧
    faulty.latched .enableLost = true ∧ faulty.active .enableLost = true ∧ faulty.latched .flowStarved = true ∧
    faulty.active .flowStarved = false := ⟨⟨rfl, rfl⟩, by decide +kernel⟩

/-- A lost mark and a channel OUT_OF_RANGE, latched and no longer active; what they read comes back with a publication. -/
theorem test_meets_ClearFaultUnlatches_channels :
    let e := (quiet.fu.entry.set .speedLost ⟨true, some 3⟩).set .sensorRange ⟨true, some 2⟩
    let s : State := { quiet with
      fu := { quiet.fu with entry := e }
      mu := { quiet.mu with
        speed := quiet.mu.speed.set .radar ⟨.still none, none, true, false⟩
        conv := quiet.mu.conv.set .draftR ⟨2000, true, .outOfRange, some 7, false⟩, begun := true } }
    kindOf 3 = some .speedLost ∧ s.latched .speedLost = true ∧ s.active .speedLost = false ∧
    kindOf 2 = some .sensorRange ∧ s.latched .sensorRange = true ∧ s.active .sensorRange = false ∧
    (match exec (.clearFault .cab 0 3) s with
    | .next t => ((t.mu.speed.get .radar).lost, (t.mu.speed.get .radar).reads, t.measured.radar)
    | _ => (true, .still, none)) = (false, .lost, none) ∧
    (match exec (.clearFault .cab 0 2) s with
    | .next t => ((t.mu.conv.get .draftR).window, t.measured.draftR)
    | _ => (.outOfRange, some 0)) = (.inWindow, none) := by decide +kernel

/-- The store right after reset is well formed. -/
theorem storeForm_ready : ready.StoreForm where
  lengths := by decide +kernel
  values := by
    have h : ∀ i < 29, ∀ x < itemLength i, valueOk i x (itemValue ready.items i x) = true := by decide +kernel
    intro i x hx
    rcases Nat.lt_or_ge i 29 with hi | hi
    · exact h i hi x hx
    · have : itemLengths[i]? = none := List.getElem?_eq_none hi
      simp [itemLength, this] at hx
  cross := by
    have h : ∀ i < 29, crossOk ready.items i = true := by decide +kernel
    intro i
    rcases Nat.lt_or_ge i 29 with hi | hi
    · exact h i hi
    · unfold crossOk; split <;> first | omega | rfl

theorem test_meets_ConfigWriteWritesARun :
    (ready.port .cab).takes ∧ ready.StoreForm ∧ ready.running = false ∧ (runAt 5).running = true ∧
    (20 : Byte).toNat ≤ 28 ∧ 28 < (29 : Byte).toNat ∧ 4 + 1 ≤ itemLength 20 ∧ ¬ 4 + 2 ≤ itemLength 20 ∧
    valueOk 20 4 1000 = true ∧ valueOk 20 4 1001 = false ∧ valueOk 27 12 1 = true ∧ valueOk 27 12 2 = false ∧
    crossOk (writeItem ready.items 20 3 [39999]) 20 = true ∧ crossOk (writeItem ready.items 20 3 [40000]) 20 = false :=
  ⟨⟨rfl, rfl⟩, storeForm_ready, by decide +kernel⟩

theorem test_meets_AdaptMovesFillOffsets :
    (ready.port .cab).takes ∧ (ready.port .implement).takes ∧ ready.running = false ∧ (runAt 5).running = true ∧
    1 + 8 ≤ 9 ∧ ¬ 2 + 8 ≤ 9 ∧ (-64 ≤ (0xFFC0 : Word).toInt ∧ (0xFFC0 : Word).toInt % 4 = 0) ∧ 64 < (68 : Word).toInt ∧
    (62 : Word).toInt % 4 ≠ 0 := ⟨⟨rfl, rfl⟩, ⟨rfl, rfl⟩, by decide +kernel⟩

theorem test_meets_StartEntersRun :
    (ready.port .cab).takes ∧ (runAt 5).running = true ∧ startCheck quiet.items = some (0, 0) ∧
    startCheck ready.items = none ∧ ready.running = false ∧ ready.governing .gear = some 4 ∧
    State.reset.governing .gear = some 0 ∧ State.reset.enable = false ∧ ready.enable = true :=
  ⟨⟨rfl, rfl⟩, by decide +kernel⟩

/-- Each check of R183 fails on a store that passes those before it. -/
theorem test_meets_StartEntersRun_checks :
    (defaultItems.getD 0 []).length = 12 ∧ (defaultItems.getD 1 []).length = 12 ∧
    startCheck defaultItems = some (0, 0) ∧ startCheck (writeItem driveItems 1 11 [2000]) = some (1, 11) ∧
    startCheck (writeItem driveItems 0 11 [300]) = some (0, 11) ∧
    startCheck (writeItem driveItems 1 11 [300]) = some (1, 11) ∧
    startCheck (writeItem driveItems 24 0 [16, 16]) = some (24, 0) ∧
    startCheck (writeItem driveItems 12 0 [8]) = some (12, 0) ∧ startCheck driveItems = none := by decide +kernel

/-- In RUN at a ground speed. -/
def rolling (g : Option Nat) : State :=
  { runAt 5 with mu := { (runAt 5).mu with pub := { Pub.none with ground := g } } }

theorem test_meets_StopEntersConfig :
    ((rolling (some 4)).port .cab).takes ∧ (rolling (some 4)).running = true ∧ (rolling (some 4)).pub.ground = some 4 ∧
    (rolling (some 4)).seqState = .neutral ∧ (rolling (some 5)).pub.ground = some 5 ∧ (rolling none).pub.ground = none ∧
    (rolling (some 4)).otu.slots.length = 48 := ⟨⟨rfl, rfl⟩, by decide +kernel⟩

theorem test_meets_StopEntersConfig_leases : (withLease (rolling (some 4)) leased 500).LeaseForm :=
  ⟨leaseForm_withLease.size, leaseForm_withLease.backed, leaseForm_withLease.once, leaseForm_withLease.entered,
   leaseForm_withLease.unleased, leaseForm_withLease.config⟩

theorem test_meets_PortResetClearsThePort :
    let s := withOrder (runAt 5) hitchOrder
    s.otu.slots.length = 48 ∧ (s.port .cab).takes ∧ (s.port .cab).resetHeld = false ∧
    ((s.setPort .cab { s.port .cab with resetHeld := true, asserted := true }).port .cab).resetHeld = true ∧
    itemNat s.items 26 0 ≠ 0 := ⟨by decide +kernel, takes_withOrder _ _ _, by decide +kernel⟩

/-! Detections: a state for each row of `State.detects`. -/

/-- A step in SYNC since 0. -/
def syncing : GearStep :=
  { GearStep.fresh .single [.c2] [.c1] ⟨some .forward, some .a, some .s2⟩ with phase := some .sync, syncStart := some 0 }

/-- CF in SYNC outside a step since 0. -/
def loose : State :=
  let s := runAt 5000
  { s with
    sq := { s.sq with clutch := s.sq.clutch.set .cf { ClutchRec.reset with state := .sync }, looseSync := some 0 } }

/-- A waiting request since 0. -/
def waits : FlowEntry := ⟨.waiting, 4, 0, some 0⟩

/-- OC0 driving. -/
def driving : State :=
  let s := runAt 5
  { s with os := s.os.set .oc0 { OutRec.reset with inForce := 1400 } }

theorem test_meets_DetectionsAreLatched_pins :
    (runAt 5).detects .enableFall = some (.enableLost, 0) ∧
    ({ runAt 20 with tbu := { Tbu.reset with breakTimer := since0 } } : State).detects .breakawayTimerExpiry =
      some (.breakaway, 12) ∧
    ({ runAt 300 with tbu := { Tbu.reset with tracking := since0 } } : State).detects .trackingTimerExpiry =
      some (.tbrakeTracking, 12) := by decide +kernel

theorem test_meets_DetectionsAreLatched_measurement :
    ({ runAt 1000 with mu := { Mu.reset with speed := Mu.reset.speed.set .radar ⟨.still none, since0, false, false⟩ } } :
      State).detects (.lostTimerExpiry .radar) = some (.speedLost, 3) ∧
    ({ runAt 100 with mu := { Mu.reset with conv := Mu.reset.conv.set .supply ⟨0, false, .outPending 0, none, false⟩ } } :
      State).detects (.windowTimerExpiry .supply) = some (.sensorRange, 7) ∧
    ({ runAt 2000 with mu := { Mu.reset with mismatch := since0 } } : State).detects .mismatchTimerExpiry =
      some (.speedMismatch, 3) ∧
    ({ runAt 200 with mu := { Mu.reset with supply := since0 } } : State).detects .supplyTimerExpiry =
      some (.supplyLow, 7) := by decide +kernel

theorem test_meets_DetectionsAreLatched_units :
    ({ runAt 250 with flow := { Flow.reset with fill := waits, fillSite := some .c1 } } :
      State).detects (.flowWaitExpiry .fill) = some (.flowStarved, 5) ∧
    ({ runAt 250 with flow := { Flow.reset with axle := waits } } : State).detects (.flowWaitExpiry .axle) =
      some (.flowStarved, 9) ∧
    (withStep (runAt 1500) syncing).detects (.syncLimitExpiry .step) = some (.syncTimeout, 6) ∧
    loose.detects (.syncLimitExpiry .direction) = some (.syncTimeout, 0) ∧
    ({ runAt 500 with sq := { Sq.reset with slip := since0 } } : State).detects .gearSlipTimerExpiry ≠ none ∧
    ({ runAt 1000 with acu := { Acu.reset with mismatch := since0 } } : State).detects .axleMismatchTimerExpiry =
      some (.axleMismatch, 9) ∧
    ({ runAt 2000 with hr := { Hr.reset with stall := some ⟨⟨0, false⟩, 100⟩ } } : State).detects .stallTimerExpiry =
      some (.hitchStall, 10) := by decide +kernel

theorem test_meets_DetectionsAreLatched_output :
    ({ runAt 50 with os := (runAt 50).os.set .oc12 { OutRec.reset with openTimer := since0 } } :
      State).detects (.openLoadTimerExpiry .oc12) = some (.outOpen, 12) ∧
    driving.detects (.shortCircuitTrip .oc0 2401) = some (.outShort, 0) ∧
    driving.detects (.shortCircuitTrip .oc0 2400) = none := by decide +kernel

/-- C1 reaches the hot limit in the cooling step; START finds ENABLE low. -/
theorem test_meets_DetectionsAreLatched_hot :
    (match exec .coolingStep { runAt 5 with
        sq := { Sq.reset with clutch := Sq.reset.clutch.set .c1 { ClutchRec.reset with heat := 40200 } } } with
    | .next t => ((t.sq.clutch.get .c1).heat, (t.sq.clutch.get .c1).hot, t.fu.entry.get .clutchHot)
    | _ => (0, false, ⟨false, none⟩)) = (40000, true, ⟨true, some 5⟩) ∧
    (runAt 5).running = true ∧
    (let s : State := { State.reset with cs := ⟨.config, driveItems⟩ }
     s.running = false ∧ startCheck s.items = none ∧ s.enable = false) := by decide +kernel

theorem test_meets_DetectingUnitsAct :
    ({ runAt 100 with mu := { Mu.reset with conv := Mu.reset.conv.set .supply ⟨0, false, .outPending 0, none, false⟩ } } :
      State).windowDue .supply = true ∧
    Timer.due 1000 1000 since0 = true ∧ driving.outState .oc0 = .driving ∧
    ({ runAt 200 with flow := { Flow.reset with fill := waits } } : State).starves .fill = true ∧
    ({ runAt 199 with flow := { Flow.reset with fill := waits } } : State).starves .fill = false := by decide +kernel

/-- The value of an item as the store holds it, with the action of a kind written. -/
def acting (s : State) (k : FaultKind) (a : Action) : State := { s with cs := ⟨.run, writeItem s.items 27 k.code [a.code]⟩ }

/-- A starved AXLE request in RELEASE_WAIT, and AXLE_MISMATCH due, under each action. -/
theorem test_meets_DetectingUnitsAct_axle :
    (let s : State := { runAt 250 with
       flow := { Flow.reset with axle := waits }, acu := { Acu.reset with coupling := .releaseWait } }
     s.starves .axle = true ∧ s.acu.coupling = .releaseWait ∧ s.acuWantsReleased = false ∧
     ({ s with acu := { s.acu with taken := some ⟨⟨8, 0⟩, ⟨1, 0, 0, 0, 0, 0, 0, 0⟩⟩ } } : State).acuWantsReleased = true) ∧
    (let s : State := { runAt 1000 with acu := { Acu.reset with mismatch := since0 } }
     (acting s .axleMismatch .degrade).acu.mismatch.due 1000 1000 = true ∧
     (acting s .axleMismatch .degrade).action .axleMismatch = .degrade ∧
     (acting s .axleMismatch .advisory).action .axleMismatch ≠ .degrade ∧
     (acting s .axleMismatch .degrade).running = true) := by decide +kernel

/-- A raise that stalls at 500, under each action; an open OC9 and OC12, a short-circuited OC10. -/
theorem test_meets_DetectingUnitsAct_hitch :
    (let h : Hr := { Hr.reset with
       mode := .regulating, motion := .raise, asked := 2, granted := 2, stall := some ⟨⟨0, false⟩, 498⟩,
       taken := some ⟨⟨8, 0⟩, ⟨0, 600, 0, 0, 150, 900, 0, 0⟩⟩ }
     let b := runAt 2000
     let s : State := { b with hr := h, mu := { b.mu with pub := { b.pub with position := some 500 } } }
     (acting s .hitchStall .degrade).hr.stallTimer.due 2000 2000 = true ∧
     (acting s .hitchStall .degrade).action .hitchStall = .degrade ∧
     (let u := acting s .hitchStall .advisory
      u.action .hitchStall ≠ .degrade ∧ u.hrHold = false ∧ u.hr.mode ≠ .hold ∧ u.supplyDegrade = false ∧
      u.flow.hold = false ∧ u.acuFollow = u)) ∧
    ({ runAt 50 with os := (runAt 50).os.set .oc9 { OutRec.reset with openTimer := since0 } } : State).os.oc9.openTimer.due
      50 50 = true ∧
    ({ runAt 50 with os := (runAt 50).os.set .oc12 { OutRec.reset with openTimer := since0 } } : State).os.oc12.openTimer.due
      50 50 = true ∧
    (runAt 50).action .outOpen ≠ .advisory ∧ (acting (runAt 50) .outOpen .advisory).action .outOpen = .advisory ∧
    ({ runAt 5 with os := (runAt 5).os.set .oc10 { OutRec.reset with inForce := 600 } } : State).outState .oc10 = .driving := by
  decide +kernel

/-! Measurement. -/

theorem test_meets_SpeedChannelsTime :
    (quiet.mu.speed.get .engine).timing = .still none ∧ stallUs quiet.items = 250000 ∧ sinceUs 249999 0 < 250000 ∧
    250000 ≤ sinceUs 250000 0 ∧ sinceUs 10 4294967295990 = 20 ∧
    ((quiet.setTiming .engine (.valid 0 1000 1)).mu.speed.get .engine).timing = .valid 0 1000 1 := by decide +kernel

theorem test_meets_ConvertersAndQuantities_converters :
    (quiet.mu.conv.get .draftL).window = .inWindow ∧ convInside defaultItems .draftL 100 = true ∧
    convInside defaultItems .draftL 3995 = true ∧ convInside defaultItems .draftL 99 = false ∧
    (let r : ConvRec := ⟨99, false, .outPending 5, some 7, false⟩
     (r.sample defaultItems .draftL 6 false true 100).window = .inWindow ∧
     (r.sample defaultItems .draftL 6 false true 99).value = some 7) ∧
    (let r : ConvRec := ⟨99, false, .outOfRange, some 7, false⟩
     (r.sample defaultItems .draftL 6 false true 100).value = none ∧
     (r.sample defaultItems .draftL 6 true true 100).window = .inWindow) := by decide +kernel

/-- The output and radar channels VALID at intervals. -/
def moving (wheel radar : Nat) : State :=
  (ready.setTiming .output (.valid 0 wheel 1)).setTiming .radar (.valid 0 radar 1)

theorem test_meets_ConvertersAndQuantities_quantities :
    ready.publication.source = .radar ∧ ready.publication.wheel = some 0 ∧ ready.publication.slip = some 0 ∧
    (moving 7000 8000).publication.source = .radar ∧
    (∃ w g, (moving 7000 8000).publication.wheel = some w ∧ (moving 7000 8000).publication.ground = some g ∧ 10 ≤ w ∧
      g ≤ w) ∧
    (∃ w g, (moving 8000 1000).publication.wheel = some w ∧ (moving 8000 1000).publication.ground = some g ∧ w < g) := by
  refine ⟨by decide +kernel, by decide +kernel, by decide +kernel, by decide +kernel, ?_, ?_⟩
  · exact ⟨_, _, rfl, rfl, by decide +kernel, by decide +kernel⟩
  · exact ⟨_, _, rfl, rfl, by decide +kernel⟩

/-! Pins, leases and conditions. -/

theorem test_meets_EnableFallsAndRises :
    (runAt 5).inputs.enable = true ∧ (runAt 5).running = true ∧ quiet.inputs.enable = true ∧ quiet.running = false ∧
    State.reset.inputs.enable = false := by decide

theorem test_meets_TrailerPinsAreFollowed :
    let s : State := { runAt 100 with tbu := { Tbu.reset with debounce := since0 } }
    s.tbu.debounce = some ⟨0, false⟩ ∧ 100 ≤ elapsed s.now 0 := by decide

theorem test_meets_LeaseExpiryLapses :
    let s := withLease (runAt 500) leased 500
    s.lcu.leases = [⟨8, 500⟩] ∧ remaining s.now 500 = 0 ∧ s.order 8 = some leased := by decide +kernel

/-- An order with one term that is ARMING to 500. -/
def arming : Order := { hitchOrder with termCount := 1, cond := false, term1 := { Term.blank with eval := some (.arming 500) } }

theorem test_meets_ConditionTimersRunOut :
    let s := withOrder (runAt 1000) arming
    s.order 8 = some arming ∧ (arming.term .first).eval = some (.arming 500) ∧ remaining s.now 500 = 0 ∧
    1000 ≤ elapsed s.now 0 ∧
    ({ s with lcu := { s.lcu with brakeRelease := since0 } } : State).lcu.brakeRelease = some ⟨0, false⟩ := by
  decide +kernel

/-- A term that is set: HITCH_POSITION above 300, hysteresis 20, dwell 400. -/
def setTerm (e : TermEval) : Term := ⟨0x300, 300, 20, 400, true, true, true, true, some e⟩

theorem test_meets_ConditionTermsMove_term :
    ((setTerm .isFalse).take 7 (some 301)).eval = some (.arming 407) ∧
    ((setTerm .isFalse).take 7 (some 300)).eval = some .isFalse ∧
    ((setTerm (.arming 407)).take 8 (some 300)).eval = some .isFalse ∧
    ((setTerm .isTrue).take 8 (some 280)).eval = some .isTrue ∧
    ((setTerm .isTrue).take 8 (some 279)).eval = some .isFalse ∧
    ((setTerm .isTrue).afresh 8 none).eval = some .isFalse := by decide

/-- An order whose term has turned FALSE again, and the LCU that has not yet heard of it. -/
def turning : Order := { hitchOrder with termCount := 1, lcuCond := true, term1 := setTerm .isTrue }

/-- A publication at position 244: the term falls, which is reported; both fixed conditions are FALSE. -/
theorem test_meets_ConditionTermsMove_publication :
    (withOrder (runAt 5) turning).otu.slots.length = 48 ∧ (withOrder (runAt 5) turning).order 8 = some turning ∧
    (turning.term .first).set = true ∧ (turning.term .first).quantityName = some .hitchPosition ∧
    (match exec (.muPublication ⟨1000, 2048, 2148, 200, 200, 200, 200, 2000⟩) (withOrder (runAt 5) turning) with
    | .next t => (t.lcu.reports, (t.order 8).map Order.lcuCond, t.lcu.brakeAxle, t.lcu.transport)
    | _ => ([], none, true, true)) = ([(8, false)], some false, false, false) := by decide +kernel

theorem test_meets_ConditionTermsMove_amend :
    ((withOrder (runAt 5) turning).port .cab).takes ∧ (withOrder (runAt 5) turning).lookup ⟨8, 0⟩ = some turning ∧
    ∃ o1, turning.amendCheck .cab 17 1 1 ⟨301, 0, 0, 0, 0, 0, 0, 0⟩ = .ok o1 ∧ (o1.term .first).set = true :=
  ⟨takes_withOrder _ _ _, by decide +kernel, _, rfl, by decide⟩

theorem test_meets_ConditionReportsAreTaken :
    let s := withOrder (runAt 5) hitchOrder
    let t : State := { s with
      lcu := { s.lcu with reports := [(3, true), (8, false), (8, true)] }
      fu := { s.fu with reports := [(.breakaway, true), (.safeNeutral, true)] } }
    t.order 8 = some hitchOrder ∧ 8 ∈ t.list hitchOrder.channel ∧ (t.list hitchOrder.channel).Nodup ∧
    t.lcu.reports = [(3, true)] ++ (8, false) :: [(8, true)] ∧
    (t.order 3).any (fun o => 3 ∈ t.list o.channel) = true ∧ t.fu.reports = [] ++ (.breakaway, true) :: [(.safeNeutral, true)] ∧
    (t.order 0).any (fun o => 0 ∈ t.list o.channel) = true := by decide +kernel

/-! Steps. -/

/-- A step in a phase since 0 of a length. -/
def inPhase (st : GearStep) (ph : Phase) (n : Nat) : GearStep := { st with phase := some ph, phaseLength := n }

theorem test_meets_FillAndHoldEnd_fill :
    let st := inPhase syncing .fill 120
    (withStep (runAt 120) st).sq.queue = st :: [] ∧ st.phase = some .fill ∧
    st.phaseLength ≤ elapsed (withStep (runAt 120) st).now st.phaseStart := by decide

/-- The FREE step on the direction group that the pedal allows, and one on the range group. -/
def freeDir : GearStep := .fresh .free [.cr] [.cf] ⟨some .reverse, some .a, some .s1⟩
def freeRange : GearStep := .fresh .free [.ca] [] ⟨none, some .a, none⟩

/-- In RUN with DEFAULT_GEAR taken, the pedal in a band, and clutches in given states. -/
def boxed (t : Time) (band : Band) (gear : Values) (cs : List (Clutch × ClutchState)) : State :=
  let s := runAt t
  { s with
    mu := { s.mu with pub := { Pub.none with band := band } }
    sq := { s.sq with
      taken := some ⟨⟨8, 0⟩, gear⟩
      clutch := cs.foldl (fun b c => b.set c.1 { ClutchRec.reset with state := c.2 }) s.sq.clutch } }

/-- A MANUAL order for reverse gear 1, and one for forward gear 1 and for neutral. -/
def manual (dir : Word) : Values := ⟨1, dir, 1, 1, 12, 2100, 1400, 3⟩
def neutralWish : Values := ⟨0, 0, 1, 1, 12, 2100, 1400, 3⟩

theorem test_meets_FillAndHoldEnd_hold :
    (let st := inPhase syncing .hold 80
     (withStep (runAt 80) st).sq.queue = [st] ∧ st.phaseLength ≤ elapsed (withStep (runAt 80) st).now st.phaseStart ∧
     (∀ c ∈ st.on, c ∉ st.off) ∧ st.kind = .single) ∧
    (let st := inPhase freeRange .hold 80
     st.kind = .free ∧ (st.on.any fun c => c = .cf || c = .cr) = false ∧ ∀ c ∈ st.on, c ∉ st.off) ∧
    (let st := inPhase freeDir .hold 80
     let s := withStep (boxed 80 .pressed (manual 1) [(.cf, .sync), (.ca, .locked), (.c1, .locked)]) st
     let q := (s.sq.enterAll st.off .opened).enterAll st.on .sync
     (st.on.any fun c => c = .cf || c = .cr) = true ∧ s.sq.queue = [st] ∧ q.engaged = none ∧
     q.plan s.pub.band q.box = []) := by decide +kernel

theorem test_meets_RampOnAndDecelerationEnd_ramp :
    (let st := inPhase syncing .rampOn 300
     (withStep (runAt 300) st).sq.queue = [st] ∧ st.phaseLength ≤ elapsed (withStep (runAt 300) st).now st.phaseStart ∧
     (∀ c ∈ st.on, c ∉ st.off) ∧ st.kind ≠ .free ∧ (withStep (runAt 300) st).pub.band = .released) ∧
    (inPhase { syncing with kind := .shuttle } .rampOn 300).kind = .shuttle ∧
    (let st := inPhase { freeRange with on := [.c1] } .rampOn 50
     let s := withStep (boxed 50 .released neutralWish [(.ca, .locked), (.c1, .rampOn)]) st
     let q := s.sq.enterAll st.on .locked
     st.kind = .free ∧ s.pub.band = .released ∧ q.plan .released q.box = []) := by decide +kernel

theorem test_meets_ClutchesLock_step :
    (let st : GearStep := { syncing with on := [.c1], off := [.c2] }
     let c : ClutchRec := { ClutchRec.reset with state := .sync, ramp := some ⟨700, 1400, 0, 50⟩ }
     let b := boxed 50 .released (manual 0) [(.cf, .locked), (.ca, .locked)]
     let s : State := { b with sq := { b.sq with queue := [st], clutch := b.sq.clutch.set .c1 c } }
     let q := s.sq.enterAll st.on .locked
     s.pub.band = .released ∧ st.phase = some .sync ∧ q.plan .released q.box = [] ∧ s.rampsDone st.on = true) ∧
    (let st : GearStep := { syncing with on := [.c1], off := [.c2] }
     let s := withStep (boxed 1500 .released (manual 0) [(.cf, .locked), (.ca, .locked), (.c1, .sync)]) st
     let q := s.sq.enterAll st.on .locked
     q.plan .released q.box = [] ∧ s.syncDue st.on st.syncStart = true) ∧
    (let st := inPhase (.fresh .neutralize [] [.cf] ⟨none, some .a, some .s1⟩) .rampOff 300
     let s := withStep (boxed 300 .released neutralWish [(.cf, .rampOff), (.ca, .locked), (.c1, .locked)]) st
     let q := s.sq.enterAll st.off .opened
     st.phase = some .rampOff ∧ st.phaseLength ≤ elapsed s.now st.phaseStart ∧ q.engaged = none ∧
     q.plan .released q.box = []) := by decide +kernel

theorem test_meets_ClutchesLock_direction :
    loose.sq.loose = some .forward ∧ loose.sq.queue = [] ∧ loose.syncDue [Dir.forward.clutch] loose.sq.looseSync = true ∧
    (let s : State := { loose with
       sq := { loose.sq with
         clutch := loose.sq.clutch.set .cf { ClutchRec.reset with state := .sync, ramp := some ⟨700, 1400, 0, 50⟩ } } }
     s.sq.loose = some .forward ∧ s.rampsDone [Dir.forward.clutch] = true) := by decide +kernel

/-- C2 in SYNC towards F2, and CF outside a step in F1, at rest: the slip of 0 lies in the window. -/
theorem test_meets_SyncLocksAndHeats_slip :
    (let b := boxed 5 .released (manual 0) [(.cf, .locked), (.ca, .locked), (.c2, .sync)]
     let s := withStep b syncing
     s.pub.band = .released ∧ s.sq.ramping syncing.on = false ∧ syncing.result = ⟨some .forward, some .a, some .s2⟩ ∧
     (match exec (.muPublication ⟨1000, 2048, 2148, 200, 200, 110, 200, 2000⟩) s with
     | .next t => (t.pub.band, (t.sq.clutch.get .c2).ramp) | _ => (.pressed, none)) =
       (.released, some ⟨700, 1400, 6, 50⟩)) ∧
    (let s := boxed 5 .released (manual 0) [(.cf, .sync), (.ca, .locked), (.c1, .locked)]
     s.sq.queue = [] ∧ s.sq.loose = some .forward ∧ s.sq.range = some .a ∧ s.sq.step = some .s1 ∧
     s.sq.ramping [Dir.forward.clutch] = false ∧
     (match exec (.muPublication ⟨1000, 2048, 2148, 200, 200, 110, 200, 2000⟩) s with
     | .next t => (t.pub.band, (t.sq.clutch.get .cf).ramp) | _ => (.pressed, none)) =
       (.released, some ⟨700, 1400, 6, 50⟩)) := by decide +kernel

/-- An upshift watched in HOLD; the ends of a step in SYNC; speeds that are there and not. -/
theorem test_meets_SyncLocksAndHeats_adaptation :
    (let st : GearStep := { syncing with phase := some .hold, preShift := some 101, observable := true }
     (match exec (.muPublication ⟨1000, 2048, 2148, 200, 200, 110, 200, 2000⟩) (withStep (runAt 5) st) with
     | .next t => (t.pub.band, t.pub.engine, t.sq.queue.map GearStep.observation) | _ => (.pressed, none, [])) =
       (.released, some 0, [-1])) ∧
    (let c : ClutchRec := { ClutchRec.reset with state := .sync, trend := -1, ramp := some ⟨700, 1400, 0, 50⟩ }
     let st : GearStep := { syncing with observation := -1, observable := true }
     let b := withStep (runAt 50) st
     let s : State := { b with sq := { b.sq with clutch := b.sq.clutch.set .c2 c } }
     s.rampsDone st.on = true ∧ st.on = .c2 :: [] ∧ st.observation = (s.sq.clutch.get .c2).trend) ∧
    (withStep (runAt 1500) syncing).syncDue syncing.on syncing.syncStart = true ∧
    (runAt 5).pub.engine = none ∧
    (let s : State := { runAt 5 with mu := { Mu.reset with pub := { Pub.none with engine := some 1500, wheel := some 60 } } }
     s.pub.engine = some 1500 ∧ s.pub.wheel = some 60 ∧ s.slipOf .forward 1 = some 6000) := by decide +kernel

/-- A publication with the pedal at a raw sample; the other channels as `quiet` has them. -/
def pedalAt (raw : BitVec 12) : Instr := .muPublication ⟨2000, 2048, 2148, 200, 200, raw, 200, 2000⟩

/-- The band, the phases and SYNC timers of the queue, and the SYNC timer outside a step. -/
structure PedalView where
  band : Band
  phases : List (Option Phase)
  syncs : List (Option Time)
  loose : Option Time
deriving DecidableEq

/-- What a command leaves of them. -/
def afterPedal (c : Instr) (s : State) : Option PedalView :=
  match exec c s with
  | .next t => some ⟨t.pub.band, t.sq.queue.map GearStep.phase, t.sq.queue.map GearStep.syncStart, t.sq.looseSync⟩
  | _ => none

/-- An ENGAGE step in SYNC. -/
def engaging : GearStep := { GearStep.fresh .engage [.cf] [] ⟨some .forward, some .a, some .s1⟩ with
  phase := some .sync, syncStart := some 2 }

/-- Outside a step: the pedal down over a LOCKED clutch and over one in SYNC, and up again. -/
theorem test_meets_SyncLocksAndHeats_pedal :
    (let s := boxed 5 .released (manual 0) [(.cf, .locked), (.ca, .locked), (.c1, .locked)]
     s.running = true ∧ s.enable = true ∧ s.sq.queue = [] ∧ s.sq.engaged = some .forward ∧ s.sq.syncDir = none ∧
     afterPedal (pedalAt 2000) s = some ⟨.modulating, [], [], none⟩) ∧
    (let s := boxed 5 .released (manual 0) [(.cf, .sync), (.ca, .locked), (.c1, .locked)]
     s.sq.loose = some .forward ∧ afterPedal (pedalAt 2000) s = some ⟨.modulating, [], [], none⟩) ∧
    (let s := boxed 5 .modulating (manual 0) [(.cf, .sync), (.ca, .locked), (.c1, .locked)]
     s.sq.loose = some .forward ∧ afterPedal (pedalAt 110) s = some ⟨.released, [], [], some 6⟩) := by decide +kernel

/-- In the SYNC of a step; PRESSED left with no step started, with a FREE step in HOLD and in RAMP_ON. -/
theorem test_meets_SyncLocksAndHeats_steps :
    (let s := withStep (boxed 5 .released (manual 0) [(.cf, .sync), (.ca, .locked), (.c1, .locked)]) engaging
     s.sq.stepSync .cf = some engaging ∧ s.sq.syncDir = some .forward ∧ engaging.decel = false ∧
     afterPedal (pedalAt 2000) s = some ⟨.modulating, [some .sync], [none], none⟩) ∧
    (let s := withStep (boxed 5 .modulating (manual 0) [(.cf, .sync), (.ca, .locked), (.c1, .locked)]) engaging
     s.sq.stepSync .cf = some engaging ∧ afterPedal (pedalAt 110) s = some ⟨.released, [some .sync], [some 6], none⟩) ∧
    (let s := boxed 5 .pressed (manual 0) [(.cf, .sync), (.cb, .locked), (.c1, .locked)]
     s.sq.dirsOpen = false ∧ s.sq.wish.1 ≠ none ∧ s.sq.started = none ∧
     (afterPedal (pedalAt 110) s).map PedalView.phases = some [some .fill]) ∧
    (let b := boxed 5 .pressed (manual 0) [(.cf, .sync), (.cb, .locked), (.c1, .locked), (.ca, .hold)]
     let st : GearStep := { freeRange with off := [.cb], phase := some .hold }
     let s := withStep b st
     s.sq.dirsOpen = false ∧ s.sq.started = some st ∧ st.kind = .free ∧
     (afterPedal (pedalAt 110) s).map PedalView.phases = some [some .fill]) ∧
    (let b := boxed 5 .pressed (manual 0) [(.cf, .sync), (.c1, .locked), (.ca, .rampOn)]
     let st : GearStep :=
       { freeRange with phase := some .rampOn, phaseLength := 50, result := ⟨some .forward, some .a, some .s1⟩ }
     (withStep b st).sq.started = some st ∧
     (afterPedal (pedalAt 110) (withStep b st)).map PedalView.phases = some [some .rampOn]) := by decide +kernel

/-- A step that ends under the pedal, and the deceleration of a shuttle at standstill and with the wheel speed lost. -/
theorem test_meets_SyncLocksAndHeats_ends :
    (let st : GearStep := { syncing with on := [.c1], off := [.c2] }
     let c : ClutchRec := { ClutchRec.reset with state := .sync, ramp := some ⟨700, 1400, 0, 50⟩ }
     let b := boxed 50 .pressed (manual 0) [(.cf, .locked), (.ca, .locked)]
     let s : State := { b with sq := { b.sq with queue := [st], clutch := b.sq.clutch.set .c1 c } }
     let q := s.sq.enterAll st.on .locked
     s.pub.band ≠ .released ∧ q.engaged = some .forward ∧ q.plan s.pub.band q.box = [] ∧ s.rampsDone st.on = true) ∧
    (let st : GearStep := { syncing with on := [.c1], off := [.c2] }
     let s := withStep (boxed 1500 .pressed (manual 0) [(.cf, .locked), (.ca, .locked), (.c1, .sync)]) st
     s.syncDue st.on st.syncStart = true) ∧
    (let st : GearStep := { engaging with kind := .shuttle, decel := true, syncStart := none }
     let s := withStep (boxed 5 .released (manual 0) [(.cf, .sync), (.ca, .locked), (.c1, .locked)]) st
     let lost : State := { s with
       mu := { s.mu with speed := s.mu.speed.set .output ⟨.still none, none, true, false⟩ } }
     s.pub.band = .released ∧ afterPedal (pedalAt 110) s = some ⟨.released, [some .sync], [some 6], none⟩ ∧
     afterPedal (pedalAt 110) lost = some ⟨.released, [some .sync], [none], none⟩) := by decide +kernel

theorem test_meets_RampOnAndDecelerationEnd_deceleration :
    let st : GearStep := { syncing with kind := .shuttle, on := [.cf], off := [.cr], decel := true, syncStart := none }
    let s := withStep (runAt 1500) st
    s.sq.queue = [st] ∧ s.pub.wheel = none ∧ overOn s.items st.on ClutchItem.syncLimit ≤ elapsed s.now st.phaseStart := by
  decide +kernel

theorem test_meets_GearTimersRunOut :
    let s := boxed 1000 .released ⟨2, 0, 1, 1, 12, 2100, 1400, 3⟩ [(.cf, .locked), (.ca, .locked), (.c1, .locked)]
    1000 ≤ elapsed s.now 0 ∧ s.seqState = .drive ∧ takenField s.sq.taken 4 = 12 ∧ takenField s.sq.taken 3 = 1 := by
  decide +kernel

/-! Flow and plan. -/

/-- A FILL of 7 waits; the lift holds 12 of 24 less a reserve of 3, the axle 5 (worked example of chapter 4). -/
def contended : Flow := ⟨⟨.waiting, 7, 0, some 0⟩, some .cc, ⟨.granted, 5, 5, none⟩, 12, 12, false⟩

theorem test_meets_GrantPassServes :
    contended.fill.granted + contended.axle.granted + contended.liftGranted ≤ 21 ∧
    (contended.pass 21).fill = ⟨.granted, 7, 7, none⟩ ∧ (contended.pass 21).liftGranted = 9 ∧
    ({ contended with hold := true } : Flow).pass 21 = { contended with hold := true } ∧
    (let s : State :=
       withStep { runAt 5 with flow := contended } { syncing with phase := some .flowWait, on := [.cc, .c1] }
     s.flow.fill.state ≠ .granted ∧ (s.flow.pass 21).fill.state = .granted ∧
     (s.flow.pass 21).liftGranted ≠ s.flow.liftGranted) ∧
    (let s : State :=
       { runAt 5 with
         flow := { Flow.reset with axle := ⟨.waiting, 5, 0, some 0⟩ }, acu := { Acu.reset with coupling := .releaseWait } }
     s.flow.axle.state ≠ .granted ∧ (s.flow.pass 21).axle.state = .granted) := by decide +kernel

/-- A GEAR order as taken. -/
def wishing (mode dir gear : Word) : Sq := { Sq.reset with taken := some ⟨⟨8, 0⟩, ⟨mode, dir, gear, 1, 12, 2100, 1400, 3⟩⟩ }

/-- F6 to F9 in MANUAL; F6 to R6; the same with the pedal pressed; a plan already met; and AUTO from F1 to F12. -/
theorem test_meets_PlanLeadsToTheWish_plan :
    ((wishing 1 0 9).plan .released ⟨some .forward, some .b, some .s2⟩).map GearStep.on = [[.cc, .c1]] ∧
    ((wishing 1 1 6).plan .released ⟨some .forward, some .b, some .s2⟩).map GearStep.kind = [.shuttle] ∧
    ((wishing 1 1 5).plan .pressed ⟨some .forward, some .b, some .s2⟩).map GearStep.kind = [.free, .free] ∧
    (wishing 1 0 6).plan .released ⟨some .forward, some .b, some .s2⟩ = [] ∧
    ({ wishing 2 0 1 with autoTarget := 12 } : Sq).wish.2 = 12 ∧ (wishing 2 0 1).auto = true ∧
    ({ wishing 2 0 1 with autoTarget := 12 } : Sq).plan .released ⟨some .forward, some .a, some .s1⟩ ≠ [] ∧
    (wishing 0 0 1).wish.2 = 1 := by decide +kernel

/-- A NEUTRALIZE step, and one that nothing has started. -/
def neutralizing : GearStep := .fresh .neutralize [] [.cf] ⟨none, some .a, some .s1⟩

theorem test_meets_PlanLeadsToTheWish_start :
    (runAt 5).running = true ∧ (runAt 5).enable = true ∧ (runAt 5).sq.started = none ∧
    (withStep (runAt 5) syncing).sq.started = some syncing ∧ syncing.phase = some .sync ∧
    (let st := { freeRange with phase := some .hold }
     let b := boxed 5 .released neutralWish []
     (withStep b st).sq.started = some st ∧
     ((withStep b st).sq.plan .released (withStep b st).sq.box).head? = some freeRange) ∧
    neutralizing.phase = none ∧ neutralizing.zeroRamp = false ∧ freeRange.on = .ca :: [] ∧
    (withStep (runAt 5) neutralizing).heldBy neutralizing = .no ∧ (withStep (runAt 5) freeRange).heldBy freeRange = .no ∧
    (withStep quiet freeRange).heldBy freeRange = .off := by decide +kernel

/-- A FREE step on the range group as it waits for flow, with F1 wished. -/
def waitingFree : GearStep := { freeRange with phase := some .flowWait }

/-- A started step that the plan does not meet; one whose fill starves at 1000 ms. -/
theorem test_meets_PlanLeadsToTheWish_abandon :
    (let s := withStep (boxed 5 .released (manual 0) [(.cf, .locked), (.ca, .locked), (.c1, .locked)])
       { syncing with phase := some .hold }
     s.QueueForm ∧ s.running = true ∧ s.enable = true ∧ syncing.kind ≠ .neutralize ∧
     s.sq.plan s.pub.band s.sq.box = [] ∧ s.pub.band = .released ∧ s.abandonHead.sq.queue = []) ∧
    (let b := withStep (boxed 1000 .released (manual 0) []) waitingFree
     let s : State := { b with flow := { b.flow with fill := ⟨.waiting, 5, 0, some 0⟩ } }
     s.QueueForm ∧ s.running = true ∧ s.enable = true ∧ waitingFree.phase = some .flowWait ∧ s.starves .fill = true ∧
     s.sq.wish.1 ≠ none) := by
  refine ⟨⟨⟨by decide, by decide⟩, by decide +kernel⟩, ⟨⟨by decide, by decide⟩, by decide +kernel⟩⟩

/-- SAFE_NEUTRAL over a NEUTRALIZE under way; a NEUTRALIZE built under it. -/
theorem test_meets_PlanLeadsToTheWish_neutral :
    (let st : GearStep := { neutralizing with phase := some .rampOff }
     let s := withStep (runAt 5) st
     let t : State := (s.setOrder 0 { internalOrder 0 true .governing with cond := true }).setOrder 4
       { internalOrder 4 true .outranked with keeping := .none }
     t.running = true ∧ t.enable = true ∧ t.sq.started = some st ∧ st.kind = .neutralize ∧
     takenSlot (t.takenNow .gear) = 0) ∧
    (let st : GearStep := { neutralizing with zeroRamp := true }
     let b := withStep (boxed 5 .released neutralWish [(.cf, .locked), (.ca, .locked), (.c1, .locked)]) st
     let q := b.sq.enterAll st.off .opened
     b.heldBy st = .no ∧ st.kind = .neutralize ∧ st.zeroRamp = true ∧ q.engaged = none ∧
     q.plan b.pub.band q.box = []) := by decide +kernel

/-- With a GEAR order in slot 4 to be handed over, in AUTO in the band 3 to 8 with gear field 5. -/
def offering (mode : Word) : State :=
  let b := boxed 5 .released (manual 0) [(.cf, .locked), (.cc, .locked), (.c1, .locked)]
  b.setOrder 4 { internalOrder 4 true .governing with setpoint := ⟨mode, 0, 5, 3, 8, 2100, 1400, 3⟩ }

/-- AUTO taken afresh with F9 locked, with the box open, and again with the same order; SAFE_NEUTRAL, and a
port order in NEUTRAL. -/
theorem test_meets_PlanLeadsToTheWish_taken :
    (let s := offering 2
     let t := s.sqTake
     takenField t.sq.taken 0 = 2 ∧ s.sq.taken.map Taken.handle ≠ t.sq.taken.map Taken.handle ∧ s.sq.range = some .c ∧
     s.sq.step = some .s1 ∧ s.sq.state .cf ≠ .opened ∧ t.sq.autoTarget = 8 ∧
     takenField t.sqTake.sq.taken 0 = 2 ∧ t.sq.taken.map Taken.handle = t.sqTake.sq.taken.map Taken.handle) ∧
    (let s : State := { offering 2 with sq := { (offering 2).sq with clutch := Sq.reset.clutch } }
     s.sq.range = none ∧ s.sqTake.sq.autoTarget = 5) ∧
    takenField (offering 0).sqTake.sq.taken 0 ≠ 2 ∧
    (let s : State := (runAt 5).setOrder 0 { internalOrder 0 true .governing with cond := true }
     takenSlot s.sqTake.sq.taken = 0 ∧ s.sqTake.sq.interlock = true) ∧
    (let s := withOrder (runAt 5) { hitchOrder with channel := .gear, state := .governing, setpoint := neutralWish }
     let u := (s.setOrder 4 { internalOrder 4 true .outranked with keeping := .none }).setList .gear [0, 8, 4]
     takenSlot u.sqTake.sq.taken = 8 ∧ takenField u.sqTake.sq.taken 0 = 0 ∧
     ({ u with sq := { u.sq with interlock := true } } : State).sqTake.sq.interlock = false) := by decide +kernel

/-! Axle, hitch. -/

theorem test_meets_AxleAndHitchTimersRunOut_axle :
    300 ≤ elapsed (runAt 300).now 0 ∧ 2000 ≤ elapsed (runAt 2000).now 0 ∧
    axleFillTime (runAt 150).items ≤ elapsed (runAt 150).now 0 ∧ settleTime (runAt 600).items ≤ elapsed (runAt 600).now 0 ∧
    ({ Acu.reset with coupling := .releasing, fill := since0 } : Acu).fill = some ⟨0, false⟩ ∧
    ({ Acu.reset with coupling := .engaging, settle := since0 } : Acu).coupling = .engaging := by decide +kernel

/-- With an AXLE order as taken and as the governing order, in a mode, and the coupling in a state. -/
def coupled (mode : Word) (c : Coupling) : State :=
  let b := runAt 5
  let v : Values := ⟨mode, 100, 3, 2, 0, 0, 0, 0⟩
  { b.setOrder 5 { internalOrder 5 true .governing with setpoint := v } with
    acu := { Acu.reset with coupling := c, taken := some ⟨⟨5, 0⟩, v⟩ } }

/-- AUTO at a standing tractor whose slip reads 0, and with the radar lost; hand-overs that want each state, in
each coupling state. -/
theorem test_meets_AxleAndHitchTimersRunOut_coupling :
    (match exec (.muPublication ⟨2000, 2048, 2148, 200, 200, 110, 200, 2000⟩) (coupled 2 .engaged) with
    | .next t => (t.pub.slip, t.acu.coupling, t.acuWantsReleased) | _ => (none, .engaged, false)) =
      (some 0, .releasing, true) ∧
    (let s := coupled 2 .engaged
     let lost : State := { s with mu := { s.mu with speed := s.mu.speed.set .radar ⟨.still none, none, true, false⟩ } }
     match exec (.muPublication ⟨2000, 2048, 2148, 200, 200, 110, 200, 2000⟩) lost with
     | .next t => (t.pub.slip, t.acu.coupling, t.acuWantsReleased) | _ => (some 0, .releasing, true)) =
      (none, .engaged, false) ∧
    ([Coupling.engaged, .releaseWait, .releasing, .released, .engaging].map fun c =>
      ((coupled 0 c).acuTake.acuWantsReleased, (coupled 0 c).acuTake.acu.coupling, (coupled 1 c).acuTake.acuWantsReleased,
       (coupled 1 c).acuTake.acu.coupling)) =
      [(false, .engaged, true, .releasing), (false, .engaged, true, .releaseWait), (false, .engaging, true, .releasing),
       (false, .engaging, true, .released), (false, .engaging, true, .engaging)] ∧
    (coupled 0 .engaged).running = true := by decide +kernel

theorem test_meets_AxleAndHitchTimersRunOut_hitch :
    500 ≤ elapsed (runAt 500).now 0 ∧ 100 ≤ elapsed (runAt 100).now 0 ∧
    (let h : Hr := { Hr.reset with mode := .transport, deviation := since0, transportPos := some 500 }
     let s : State := { runAt 200 with hr := h }
     s.hr.deviation = some ⟨0, false⟩ ∧ 200 ≤ elapsed s.now 0 ∧ s.hr.mode = .transport ∧ s.hr.motion = .idle ∧
     s.hr.deviationAt 450 < 0 ∧ 0 ≤ s.hr.deviationAt 550 ∧ s.supplyDegrade = false) := by decide +kernel

/-- HITCH in POSITION at 420 as taken. -/
def positioned (m : HitchMode) (v : Motion) : State :=
  { runAt 5 with
    hr := { Hr.reset with
      mode := m, motion := v, ceiling := 250, positions := [(5, 500)],
      taken := some ⟨⟨8, 0⟩, ⟨0, 420, 0, 0, 150, 900, 0, 0⟩⟩ } }

/-- At position 488 a lowering begins, and one under way goes on: its ceiling falls, the hitch drops 12 ‰ in 1 ms. -/
theorem test_meets_HitchControlLaw :
    (match exec (.muPublication ⟨2000, 2048, 2148, 200, 200, 110, 200, 2000⟩) (positioned .regulating .idle) with
    | .next t => (t.pub.position, t.hr.mode, t.hr.motion, t.hr.error, t.hr.ceiling)
    | _ => (none, .hold, .idle, 0, 0)) = (some 488, .regulating, .lower, -68, 250) ∧
    (match exec (.muPublication ⟨2000, 2048, 2148, 200, 200, 110, 200, 2000⟩) (positioned .regulating .lower) with
    | .next t => (t.hr.motion, t.hr.ceiling, t.hr.positions)
    | _ => (.idle, 0, [])) = (.lower, 245, [(6, 488), (5, 500)]) ∧
    (match exec (.muPublication ⟨1600, 2048, 2148, 200, 200, 110, 200, 2000⟩) (positioned .regulating .idle) with
    | .next t => (t.pub.position, t.hr.motion, t.hr.asked, t.hr.granted, t.hr.mode)
    | _ => (none, .idle, 0, 0, .hold)) = (some 390, .raise, 2, 2, .regulating) := by decide +kernel

/-- TRANSPORT at 500 as position 488 or 390 comes: inside 15 ‰, outside it, a raise held back before, a raise that goes on, one that
ends. -/
def carried (v : Motion) (dev : Timer) (at0 : Nat) : State :=
  { runAt 5 with
    hr := { Hr.reset with
      mode := .transport, motion := v, deviation := dev, transportPos := some at0,
      taken := some ⟨⟨2, 0⟩, ⟨0, 0, 0, 0, 100, 1000, 0, 0⟩⟩ } }

/-- What a publication at position 488 leaves of the hitch. -/
def at488 (s : State) : Option Nat × HitchMode × Motion × Int × Timer :=
  match exec (.muPublication ⟨2000, 2048, 2148, 200, 200, 110, 200, 2000⟩) s with
  | .next t => (t.pub.position, t.hr.mode, t.hr.motion, t.hr.error, t.hr.deviation)
  | _ => (none, .hold, .idle, 0, none)

theorem test_meets_HitchControlLaw_transport :
    [carried .idle none 500, carried .idle none 600, carried .idle (some ⟨0, true⟩) 600, carried .raise none 600,
      carried .raise none 490].map at488 =
    [(some 488, .transport, .idle, 0, none), (some 488, .transport, .idle, 0, some ⟨6, false⟩),
      (some 488, .transport, .raise, 112, none), (some 488, .transport, .raise, 112, none),
      (some 488, .transport, .idle, 0, none)] ∧
    takenSlot (carried .idle none 500).hr.taken = 2 ∧ (carried .idle none 500).hr.mode ≠ .hold := by decide +kernel

/-- A raise with a grant that has risen 5 ‰ since its stall timer began, and one that has not. -/
theorem test_meets_HitchControlLaw_stall :
    (let after (at0 : Nat) : Motion × Nat × Option StallRun :=
       let s := positioned .regulating .raise
       match exec (.muPublication ⟨1600, 2048, 2148, 200, 200, 110, 200, 2000⟩)
         { s with
           flow := { s.flow with liftAsked := 2, liftGranted := 2 }
           hr := { s.hr with asked := 2, granted := 2, stall := some ⟨⟨0, false⟩, at0⟩ } } with
       | .next t => (t.hr.motion, t.hr.granted, t.hr.stall) | _ => (.idle, 0, none)
     after 385 = (.raise, 2, some ⟨⟨6, false⟩, 390⟩) ∧ after 386 = (.raise, 2, some ⟨⟨0, false⟩, 386⟩)) ∧
    (positioned .regulating .raise).hr.motion = .raise ∧
    0 < ({ runAt 5 with flow := { Flow.reset with liftGranted := 1 } } : State).flow.liftGranted := by decide +kernel

/-! Output stage and views. -/

theorem test_meets_CommandedCurrents :
    clutchOf .oc8 = some .c4 ∧ clutchOf .oc9 = none ∧
    (let s : State := { runAt 150 with
       sq := { Sq.reset with
         clutch := Sq.reset.clutch.set .c1 { ClutchRec.reset with state := .rampOn, ramp := some ⟨350, 700, 0, 300⟩ } } }
     s.clutchCurrent .c1 = 525 ∧ elapsed s.now 0 < 300) ∧
    loose.sq.stepSync .cf = none ∧ loose.sq.freeStarted = false ∧ loose.clutchCurrent .cf = 700 ∧
    (withStep (runAt 5) syncing).sq.stepSync .c2 = some syncing ∧ (withStep (runAt 5) freeRange).sq.freeStarted = false ∧
    (runAt 5).tbuState = .detached ∧ (runAt 5).commanded .oc12 = 1600 ∧ quiet.commanded .oc12 = 0 := by decide +kernel

/-- OC0 DRIVING and open through the period: its open-load timer starts, its dither turns. -/
theorem test_meets_CommandedCurrents_period :
    (match exec (.periodBoundary (.tabulate fun _ => 19)) { runAt 5 with
        sq := { Sq.reset with clutch := Sq.reset.clutch.set .cf { ClutchRec.reset with state := .locked } }
        os := (runAt 5).os.set .oc0 { OutRec.reset with inForce := 100, pending := 1400, regulating := true } } with
    | .next t => (t.outState .oc0, (t.os.get .oc0).inForce, (t.os.get .oc0).openTimer, (t.os.get .oc0).ditherPositive)
    | _ => (.off, 0, none, true)) = (.driving, 1400, some ⟨5, false⟩, false) := by decide +kernel

theorem test_meets_ViewsHold :
    [true, false].length ≤ 16 ∧ bitSet [true, false, true] = 5 ∧ viewNat 65535 = 65535 ∧
    (Conf.mk (some .reverse) (some .c) (some .s4)).word = 0x10C ∧ Hr.reset.mode = .hold ∧
    (positioned .regulating .idle).hr.viewSetpoint = 420 ∧ quiet.mu.begun = false ∧
    ({ quiet with mu := { quiet.mu with begun := true } } : State).mu.begun = true := by decide +kernel

/-! Clauses of several statements: the conditions, ramps, hand-overs and timers they name. -/

/-- Each row of the sequencer state table. -/
theorem test_meets_ViewsHold_rows :
    let b := boxed 5 .released (manual 0)
    let started (k : StepKind) (cs : List (Clutch × ClutchState)) : State :=
      withStep (b cs) { syncing with kind := k }
    [quiet, { runAt 5 with inputs := ⟨false, false, false⟩ }, started .single [], started .range [], started .shuttle [],
      started .engage [], started .neutralize [], started .free [], started .free [(.cf, .locked)], b [(.cr, .sync)],
      b [(.cr, .locked), (.cc, .locked), (.c4, .locked)], b []].map (fun s => (s.seqState, s.sq.gearNumber)) =
    [(.stopped, 0), (.halt, 0), (.powershift, 0), (.powershift, 0), (.shuttle, 0), (.engage, 0), (.disengage, 0),
      (.preselect, 0), (.inch, 0), (.inch, 0), (.drive, 12), (.neutral, 0)] := by decide +kernel

/-- Placed before DEFAULT_HITCH in RUN, the order is handed to the hitch. -/
theorem test_meets_PlaceCreatesAnOrder_taken :
    (match exec (.place .cab 7 2 1 0 0 ⟨0, 420, 0, 0, 150, 900, 0, 0⟩) (runAt 5) with
    | .next t => (t.governing .hitch, t.takenBy .hitch) | _ => (none, none)) =
      (some 8, some ⟨⟨8, 0⟩, ⟨0, 420, 0, 0, 150, 900, 0, 0⟩⟩) := by decide +kernel

/-- Values at the ends of their ranges and beyond, and the rights of IMPLEMENT with and without item 25. -/
theorem test_meets_PlaceAndAmendCheckInOrder_ranges :
    setpointOk .gear ⟨2, 1, 12, 1, 1, 2600, 2000, 5⟩ = true ∧ setpointOk .gear ⟨2, 1, 12, 2, 1, 2600, 2000, 5⟩ = false ∧
    setpointOk .gear ⟨0, 0, 1, 1, 12, 1200, 1001, 1⟩ = false ∧ setpointOk .axle ⟨2, 400, 5, 3, 0, 0, 0, 0⟩ = true ∧
    setpointOk .axle ⟨2, 400, 5, 4, 0, 0, 0, 0⟩ = false ∧ setpointOk .hitch ⟨4, 1000, 1500, 100, 10, 100, 5, 0⟩ = true ∧
    setpointOk .hitch ⟨4, 1000, 1500, 100, 10, 100, 4, 0⟩ = false ∧
    setpointOk .tbrake ⟨150, 1, 4000, 15000, 0, 0, 0, 0⟩ = true ∧
    setpointOk .tbrake ⟨151, 1, 4000, 15000, 0, 0, 0, 0⟩ = false ∧ leaseOk .implement 20 = true ∧ leaseOk .cab 0 = true ∧
    leaseOk .implement 10 = false ∧ (setTerm .isFalse).quantityMark = true ∧ (setTerm .isFalse).inRange = true ∧
    ({ setTerm .isFalse with threshold := 1001 } : Term).inRange = false ∧
    ({ Term.blank with threshold := 65535 } : Term).inRange = true ∧
    ({ setTerm .isFalse with quantity := 0x600 } : Term).inRange = false ∧
    (runAt 5).mayPlace .implement .hitch 3 = true ∧ (runAt 5).mayPlace .implement .hitch 1 = false ∧
    (runAt 5).mayPlace .implement .tbrake 3 = false ∧ (runAt 5).mayPlace .cab .tbrake 3 = true ∧
    (∀ i < 7, hitchOrder.writable (8 + i) = true) ∧
    (let o : Order := { hitchOrder with termCount := 2 }
     (∀ i < 8, o.writable (16 + i) = true) ∧ o.writable 24 = false) := by decide +kernel

/-- A setpoint field of the governing order is amended in RUN: the hitch has it. A lease alone hands nothing. -/
theorem test_meets_AmendWritesARun_taken :
    let s := withOrder (runAt 5) { hitchOrder with state := .governing }
    let taken (first : Byte) (w : Word) : Option Nat × Option Taken :=
      match exec (.amend .cab 1 8 0 first false 1 1 ⟨w, 0, 0, 0, 0, 0, 0, 0⟩) s with
      | .next t => (t.governing .hitch, t.takenBy .hitch) | _ => (none, none)
    taken 9 421 = (some 8, some ⟨⟨8, 0⟩, ⟨0, 421, 0, 0, 150, 900, 0, 0⟩⟩) ∧
    taken 5 500 = (some 8, s.takenBy .hitch) ∧ s.takenBy .hitch ≠ some ⟨⟨8, 0⟩, hitchOrder.setpoint⟩ := by decide +kernel

/-- A different governing order; an amended one; neither; and a different one in CONFIG. -/
theorem test_meets_ResolutionGivesStates_handed :
    let s := withOrder (runAt 5) hitchOrder
    let g := withOrder (runAt 5) { hitchOrder with state := .governing }
    (s.resolve .hitch none none).governing .hitch ≠ s.governing .hitch ∧
    (s.resolve .hitch none none).takenBy .hitch = some ⟨⟨8, 0⟩, hitchOrder.setpoint⟩ ∧
    (g.resolve .hitch none (some 8)).governing .hitch = g.governing .hitch ∧
    (g.resolve .hitch none (some 8)).takenBy .hitch = some ⟨⟨8, 0⟩, hitchOrder.setpoint⟩ ∧
    (g.resolve .hitch none none).takenBy .hitch = g.takenBy .hitch ∧
    ((withOrder quiet hitchOrder).resolve .hitch none none).takenBy .hitch = quiet.takenBy .hitch ∧
    ((withOrder quiet hitchOrder).resolve .hitch none none).governing .hitch = some 8 := by decide +kernel

/-- AUTO in F1 at a wheel speed: the radar reads another speed, the front axle, the engine and the line pressure read 0, and a
trailer is braked by hand. -/
def straying : State :=
  let b := boxed 5 .released ⟨2, 0, 1, 1, 12, 2100, 1400, 3⟩ [(.cf, .locked), (.ca, .locked), (.c1, .locked)]
  let s := (b.setTiming .output (.valid 0 7000 1)).setTiming .radar (.valid 0 1000 1)
  { s with
    sq := { s.sq with autoTarget := 1, flags := { s.sq.flags with assistWindow := true } }
    tbu := { s.tbu with presence := true, taken := some ⟨⟨7, 0⟩, ⟨100, 1, 4000, 8000, 0, 0, 0, 0⟩⟩ } }

/-- The timers of `straying`'s tests: lost of ENGINE, FRONT and OUTPUT, mismatch, supply, slip, axle, tracking, up and down. -/
def testTimers (s : State) : List Timer :=
  [(s.mu.speed.get .engine).lostTimer, (s.mu.speed.get .front).lostTimer, (s.mu.speed.get .output).lostTimer, s.mu.mismatch,
    s.mu.supply, s.sq.slip, s.acu.mismatch, s.tbu.tracking, s.sq.up, s.sq.down]

def timersAfter (supply : BitVec 12) (s : State) : List Timer :=
  match exec (.muPublication ⟨2000, 2048, 2148, 200, 200, 110, 110, supply⟩) s with
  | .next t => testTimers t
  | _ => []

/-- The same with every timer of the tests running since 0. -/
def timed (s : State) : State :=
  { s with
    mu := { s.mu with
      speed := .tabulate fun ch => { s.mu.speed.get ch with lostTimer := since0 }
      mismatch := since0, supply := since0 }
    sq := { s.sq with slip := since0, up := since0, down := since0 }
    acu := { s.acu with mismatch := since0 }
    tbu := { s.tbu with tracking := since0 } }

/-- Each test begins to hold, goes on holding, and ends; the up timer beside the down timer at a fast engine. -/
theorem test_meets_PublicationSamples_timers :
    let on : Timer := some ⟨6, false⟩
    timersAfter 110 straying = [on, on, none, on, on, on, on, on, none, on] ∧
    timersAfter 110 (timed straying) =
      [since0, since0, none, since0, since0, since0, since0, since0, none, since0] ∧
    timersAfter 2000 (timed (runAt 5)) = [none, none, none, none, none, none, none, none, none, none] ∧
    timersAfter 2000 (straying.setTiming .engine (.valid 0 100 1)) =
      [none, on, none, on, none, on, on, on, on, none] ∧
    (timed straying).silent .front = true := by decide +kernel

/-- A NEUTRALIZE begins: F falls from lock_current. -/
theorem test_meets_PlanLeadsToTheWish_ramp :
    let s := withStep (boxed 5 .released neutralWish [(.cf, .locked), (.ca, .locked), (.c1, .locked)]) neutralizing
    s.heldBy neutralizing = .no ∧ (s.tryStart.sq.clutch.get .cf).ramp = some ⟨1400, 0, 5, 300⟩ ∧
    (s.tryStart.sq.clutch.get .ca).ramp = none := by decide +kernel

/-- What the end of HOLD leaves of ramps. -/
def rampsAfter (s : State) (cs : List Clutch) : List (Option Ramp) :=
  match exec .holdEnd s with
  | .next t => cs.map fun c => (t.sq.clutch.get c).ramp
  | _ => []

/-- C1 to C2; a shuttle with response 2, whose shuttle current is whole; a FREE step on the range group. -/
theorem test_meets_FillAndHoldEnd_ramps :
    rampsAfter (withStep (boxed 80 .released (manual 0) [(.cf, .locked), (.ca, .locked), (.c1, .locked), (.c2, .hold)])
        (inPhase syncing .hold 80)) [.c2, .c1, .ca] = [some ⟨350, 700, 80, 300⟩, some ⟨1400, 0, 80, 300⟩, none] ∧
    (let st := { inPhase syncing .hold 80 with kind := .shuttle, on := [.cr], off := [.cf], response := 2 }
     rampsAfter (withStep (boxed 80 .released (manual 0) [(.cf, .locked), (.cr, .hold)]) st) [.cr, .cf] =
       [some ⟨350, 700, 80, 300⟩, some ⟨1400, 0, 80, 300⟩]) ∧
    rampsAfter (withStep (boxed 80 .released (manual 0) [(.ca, .hold)]) (inPhase freeRange .hold 80)) [.ca] =
      [some ⟨350, 1400, 80, 50⟩] := by decide +kernel

/-- After RAMP_ON no ramp is left on an on-coming clutch. -/
theorem test_meets_RampOnAndDecelerationEnd_ramps :
    (match exec .rampOnEnd (withStep (boxed 300 .released (manual 0) [(.c2, .rampOn)]) (inPhase syncing .rampOn 300)) with
    | .next t => (t.sq.state .c2, (t.sq.clutch.get .c2).ramp) | _ => (.opened, none)) = (.sync, none) := by decide +kernel

/-- What a publication at position 488 and a hand-over leave of the mode, the motion, the hold and the transport position. -/
def holdView (s : State) : HitchMode × Motion × Option Nat × Option Nat :=
  (s.hr.mode, s.hr.motion, s.hr.holdPos, s.hr.transportPos)

def holdAt488 (s : State) : HitchMode × Motion × Option Nat × Option Nat :=
  match exec (.muPublication ⟨2000, 2048, 2148, 200, 200, 110, 200, 2000⟩) s with
  | .next t => holdView t
  | _ => (.hold, .raise, none, none)

/-- HOLD is entered and kept with ENABLE low, and entered with the position OUT_OF_RANGE; it is left for POSITION and for
TRANSPORT. -/
theorem test_meets_HitchControlLaw_hold :
    let off (s : State) : State := { s with inputs := ⟨false, false, false⟩ }
    let lost (s : State) : State :=
      { s with mu := { s.mu with conv := s.mu.conv.set .hitchPos ⟨0, false, .outOfRange, none, false⟩ } }
    let latched (s : State) : State := { s with fu := { s.fu with entry := s.fu.entry.set .sensorRange ⟨true, some 0⟩ } }
    let held (s : State) : State := { s with hr := { s.hr with mode := .hold, motion := .idle, holdPos := some 300 } }
    [off (positioned .regulating .lower), held (off (positioned .hold .idle)), latched (lost (positioned .regulating .lower)),
      held (positioned .hold .idle), held (carried .idle none 450), held (carried .idle none 480)].map holdAt488 =
    [(.hold, .idle, some 488, none), (.hold, .idle, some 300, none), (.hold, .idle, none, none),
      (.regulating, .lower, none, none), (.transport, .idle, none, some 450), (.transport, .idle, none, some 480)] ∧
    (at488 (held (carried .idle none 450))).2.2.2.2 = some ⟨6, false⟩ ∧
    (at488 (held (carried .idle none 480))).2.2.2.2 = none := by decide +kernel

/-- A hitch order with slip limit 10 governs and is taken, at a wheel speed beside a radar speed as `radar` gives it. -/
def slipping (radar : Nat) (high : Bool) (trim : Nat) : State :=
  let s := (runAt 5).setTiming .output (.valid 0 7000 1)
  let v : Values := ⟨0, 420, 0, 0, 150, 900, 10, 0⟩
  { (s.setTiming .radar (.valid 0 radar 1)).setOrder 6 { internalOrder 6 true .governing with setpoint := v } with
    hr := { Hr.reset with
      mode := .regulating, exceeds := high, trim := trim, excess := since0, step := since0,
      taken := some ⟨⟨6, 0⟩, v⟩ } }

/-- Over the limit, excess and step timer, after a publication and after a hand-over at what it published. -/
def trimAfter (s : State) : List (Bool × Timer × Timer) :=
  match exec (.muPublication ⟨2000, 2048, 2148, 200, 200, 110, 200, 2000⟩) s with
  | .next t =>
    let u := ({ s with mu := t.mu } : State).hrTake
    [(t.hr.exceeds, t.hr.excess, t.hr.step), (u.hr.exceeds, u.hr.excess, u.hr.step)]
  | _ => []

/-- Slip over the limit and not, each begun, going on and ended, with and without trim. -/
theorem test_meets_HitchControlLaw_trim :
    [slipping 20000 false 0, slipping 20000 true 10, slipping 1000 true 10, slipping 1000 true 0, slipping 1000 false 10].map
      trimAfter =
    (let run (at0 : Time) : Timer := some ⟨at0, false⟩
     [[(true, since0, none), (false, none, since0)], [(true, since0, since0), (true, none, none)],
      [(false, none, run 6), (false, none, run 5)], [(false, none, none), (false, none, none)],
      [(false, since0, since0), (false, none, since0)]]) := by decide +kernel

/-- At position 488, an order in slot `k` with a mode and a position to be taken; held at 300 or in another mode as before. -/
def handing (k : Nat) (mode : Word) (v : Motion) (m : HitchMode) (before : Taken) : State :=
  let s := positioned m v
  let o := { internalOrder k true .governing with channel := .hitch, setpoint := ⟨mode, 600, 0, 0, 150, 900, 0, 0⟩ }
  { ((s.setOrder k o).setList .hitch [k]) with
    mu := { s.mu with pub := { s.mu.pub with position := some 488 } }
    hr := { s.hr with holdPos := some 300, transportPos := some 450, taken := some before } }

/-- HOLD is entered, taken afresh with another order and kept with the same; TRANSPORT is taken from another order and again;
a lower goes over to a raise. -/
theorem test_meets_HitchControlLaw_handed :
    let at8 : Taken := ⟨⟨8, 0⟩, ⟨4, 0, 0, 0, 150, 900, 0, 0⟩⟩
    let at9 : Taken := ⟨⟨9, 0⟩, ⟨4, 0, 0, 0, 150, 900, 0, 0⟩⟩
    let at2 : Taken := ⟨⟨2, 0⟩, ⟨0, 0, 0, 0, 100, 1000, 0, 0⟩⟩
    [handing 8 4 .lower .regulating at9, handing 8 4 .idle .hold at9, handing 8 4 .idle .hold at8,
      handing 2 0 .idle .hold at8, handing 2 0 .lower .transport at2, handing 8 0 .lower .regulating at8].map
      (fun s => holdView s.hrTake) =
    [(.hold, .idle, some 488, none), (.hold, .idle, some 488, none), (.hold, .idle, some 300, none),
      (.transport, .idle, none, some 488), (.transport, .idle, none, some 450), (.regulating, .raise, none, none)] := by
  decide +kernel

/-- Each channel state; the target at both ends of its range; the trailer in CONFIG with and without its plug and under
BREAKAWAY. -/
theorem test_meets_CommandedCurrents_states :
    let out (s : State) (r : OutRec) : State := { s with os := s.os.set .oc0 r }
    let on : OutRec := { OutRec.reset with inForce := 1400, regulating := true }
    let states (s : State) : OutState × Nat × Nat := (s.outState .oc0, s.target .oc0, s.outputCurrent .oc0)
    itemNat (runAt 5).items 28 0 = 60 ∧
    [out (runAt 5) { on with tripped := true }, out { runAt 5 with inputs := ⟨false, false, false⟩ } on, out quiet on,
      out (runAt 5) { on with inForce := 0 }, out (runAt 5) on,
      out (runAt 5) { on with inForce := 2100, ditherPositive := true },
      out (runAt 5) { on with inForce := 50, ditherPositive := false },
      out (runAt 5) { on with regulating := false }].map states =
    [(.tripped, 1460, 0), (.gated, 1460, 0), (.off, 1460, 0), (.off, 60, 0), (.driving, 1460, 1460), (.driving, 2000, 2000),
      (.driving, 0, 0), (.driving, 1460, 0)] ∧
    quiet.tbuState = .detached ∧ ({ quiet with tbu := { quiet.tbu with presence := true } } : State).tbuState = .released ∧
    ((quiet.setOrder 3 { internalOrder 3 true .governing with cond := true }).setList .tbrake [3, 7]).tbuState = .emergency := by
  decide +kernel

/-- The kinds that are ACTIVE after the publication of `straying`. -/
theorem test_meets_ClearFaultUnlatches_active :
    (match exec (.muPublication ⟨2000, 2048, 2148, 200, 200, 110, 110, 110⟩) straying with
    | .next t => FaultKind.all.filter t.active
    | _ => []) = [.speedLost, .speedMismatch, .gearSlip, .axleMismatch, .tbrakeTracking, .supplyLow] ∧
    FaultKind.all.filter State.reset.active = [.enableLost] := by decide +kernel

/-! Ranges, conditions, records and flags: the clauses that name them. -/

/-- The ends of ranges and the values beyond them: of each kind of item, of a gain and of an action. -/
theorem test_meets_StoreFormKept_ranges :
    valueOk 0 11 20000 = true ∧ valueOk 0 11 20001 = false ∧ valueOk 2 1 20 = true ∧ valueOk 2 1 19 = false ∧
    valueOk 10 9 5000 = true ∧ valueOk 10 9 5001 = false ∧ valueOk 11 4 50 = true ∧ valueOk 11 4 49 = false ∧
    valueOk 12 0 63 = true ∧ valueOk 12 0 64 = false ∧ valueOk 13 7 2 = true ∧ valueOk 13 7 3 = false ∧
    valueOk 16 0 0x8001 = true ∧ valueOk 16 0 0x8000 = false ∧ valueOk 20 2 65535 = true ∧ valueOk 20 2 999 = false ∧
    valueOk 24 1 40 = true ∧ valueOk 24 1 41 = false ∧ valueOk 28 12 200 = true ∧ valueOk 28 12 201 = false ∧
    (List.range 4).map (fun w => valueOk 27 0 (Word.ofNat w)) = [true, true, true, false] ∧
    (List.range 4).map (fun w => valueOk 27 1 (Word.ofNat w)) = [false, true, true, false] ∧
    (List.range 4).map (fun w => valueOk 27 6 (Word.ofNat w)) = [true, false, true, false] ∧
    (List.range 5).map (fun w => valueOk 27 13 (Word.ofNat w)) = [false, false, false, true, false] ∧
    itemLength 16 = 8 ∧ itemLength 22 = 3 ∧ itemLength 27 = 15 ∧ itemLength 28 = 13 ∧ itemLength 29 = 0 := by decide +kernel

/-- Each check between values where it just holds and just fails. -/
theorem test_meets_StoreFormKept_checks :
    let write (i x : Nat) (w : Word) (j : Nat) : Bool := crossOk (writeItem defaultItems i x [w]) j
    write 17 7 3994 17 = true ∧ write 17 7 3995 17 = false ∧ write 18 0 101 18 = true ∧ write 18 0 100 18 = false ∧
    write 20 3 39999 20 = true ∧ write 20 3 40000 20 = false ∧ write 21 3 1000 21 = true ∧ write 21 5 250 21 = true ∧
    write 21 5 249 21 = false ∧ write 20 3 40000 21 = true := by decide +kernel

/-- A port with an unmasked cause: under an idle throttle, and under a running one. -/
theorem test_meets_SetsAscendKept_lines :
    let r := PortRec.reset none false
    let caused (r : PortRec) : PortRec := { r with causes := 4, causeMask := 0 }
    r.Attends ∧ ({ caused r with asserted := true } : PortRec).Attends ∧
    ({ caused r with throttle := some 0 } : PortRec).Attends ∧ ¬ (caused r).Attends ∧ ¬ ({ r with asserted := true } : PortRec).Attends := by
  simp [PortRec.Attends, PortRec.reset]

/-- What a command leaves of the changed-order set and the causes of CAB, and of the direction engaged. -/
def changesOf (c : Instr) (s : State) : List Nat × BitVec 4 × Option Dir :=
  match exec c s with
  | .next t => ((t.port .cab).changed, (t.port .cab).causes, t.sq.engaged)
  | _ => ([], 0, none)

/-- A lease that expires sets ORDERS; CF locks, and opens as ENABLE falls: ORDERS and GEAR, then all but TRAILER. -/
theorem test_meets_SetsAscendKept_causes :
    (let s := withLease (runAt 500) { leased with state := .governing } 500
     (s.port .cab).changed = [] ∧ changesOf .leaseExpiry s = ([4, 5, 6, 7, 8], 1, none)) ∧
    (let b := boxed 50 .released (manual 0) [(.ca, .locked), (.c1, .locked)]
     let c : ClutchRec := { ClutchRec.reset with state := .sync, ramp := some ⟨700, 1400, 0, 50⟩ }
     let s := withStep { b with sq := { b.sq with clutch := b.sq.clutch.set .cf c } } engaging
     let d := boxed 5 .released (manual 0) [(.cf, .locked), (.ca, .locked), (.c1, .locked)]
     (s.sq.engaged, changesOf (.lockRampEnd .step) s) = (none, [4, 5, 6, 7], 5, some .forward) ∧
     d.sq.engaged = some .forward ∧ (changesOf .enableFall d).2 = (7, none)) := by decide +kernel

/-- SAFE_NEUTRAL by ENABLE, by an action SAFE, by a clutch mark of OUT_OPEN and of OUT_SHORT, and false beside each. -/
theorem test_meets_DetectionsAreLatched_safe :
    let on (s : State) (k : FaultKind) : State := { s with fu := { s.fu with entry := s.fu.entry.set k ⟨true, some 0⟩ } }
    let marked (s : State) : State := { s with fu := { s.fu with clutchOpen := true, clutchShort := true } }
    let b := runAt 5
    let acts (k : FaultKind) (a : Action) : Bool := (on (acting b k a) k).safeCondition
    b.safeCondition = false ∧ ({ b with inputs := ⟨false, false, false⟩ } : State).safeCondition = true ∧
    acts .clutchHot .safe = true ∧ acts .clutchHot .advisory = false ∧ (acting b .clutchHot .safe).safeCondition = false ∧
    acts .outOpen .degrade = false ∧ (on (marked (acting b .outOpen .degrade)) .outOpen).safeCondition = true ∧
    (on (marked (acting b .outShort .degrade)) .outShort).safeCondition = true ∧ (marked b).safeCondition = false ∧
    (on b .breakaway).action .breakaway = .brake ∧ (on b .breakaway).safeCondition = false := by decide +kernel

/-- A change of SAFE_NEUTRAL, and of BREAKAWAY, is reported behind the reports that wait; an unchanged one is not. -/
theorem test_meets_DetectionsAreLatched_reports :
    let waiting (s : State) : State := { s with fu := { s.fu with reports := [(.breakaway, false)] } }
    let reportsOf (c : Instr) (s : State) : List (FaultOrder × Bool) :=
      match exec c (waiting s) with | .next t => t.fu.reports | _ => []
    reportsOf .enableFall (runAt 5) = [(.breakaway, false), (.safeNeutral, true)] ∧
    reportsOf .breakawayTimerExpiry { runAt 20 with tbu := { Tbu.reset with breakTimer := since0 } } =
      [(.breakaway, false), (.breakaway, true)] ∧
    reportsOf .trackingTimerExpiry { runAt 300 with tbu := { Tbu.reset with tracking := since0 } } = [(.breakaway, false)] := by
  decide +kernel

/-- The sites of the output channels where their ranges meet, and a governing order's handle. -/
theorem test_meets_DetectionsAreLatched_affected :
    ([8, 9, 10, 11, 12] : List Word).map (affected .outOpen) = [.gear, .axle, .hitch, .hitch, .tbrake] ∧
    (withOrder (runAt 5) { hitchOrder with state := .governing }).governing .hitch = some 8 ∧
    (withOrder (runAt 5) { hitchOrder with state := .governing }).governingHandle .hitch = ⟨8, 0⟩ := by decide +kernel

/-- The supply hold of SUPPLY_LOW under DEGRADE beside ADVISORY: a waiting fill and a raise with a grant. -/
theorem test_meets_DetectingUnitsAct_supply :
    let h : Hr := { Hr.reset with
      mode := .regulating, motion := .raise, asked := 2, granted := 2,
      taken := some ⟨⟨8, 0⟩, ⟨0, 600, 0, 0, 150, 900, 0, 0⟩⟩ }
    let b := runAt 200
    let s : State := { b with
      hr := h, mu := { b.mu with supply := since0, pub := { b.pub with position := some 500 } },
      flow := { b.flow with fill := ⟨.waiting, 40, 0, some 100⟩, liftAsked := 2, liftGranted := 2 } }
    let after (a : Action) : (Bool × Option Time) × Motion × Nat × Nat :=
      match exec .supplyTimerExpiry (acting s .supplyLow a) with
      | .next t => ((t.flow.hold, t.flow.fill.wait), t.hr.motion, t.flow.liftAsked, t.flow.liftGranted)
      | _ => ((false, none), .idle, 0, 0)
    s.running = true ∧ s.hrHold = false ∧ after .degrade = ((true, none), .idle, 0, 0) ∧
    after .advisory = ((false, some 100), .raise, 2, 2) := by decide +kernel

/-- The draft as a RANGE and a SINGLE step start at a published draft of 120 and of none. -/
theorem test_meets_PlanLeadsToTheWish_freeze :
    let starting (k : StepKind) (draft : Option Int) : Option Int × Bool × Bool :=
      let b := boxed 5 .released (manual 0) [(.cf, .locked), (.ca, .locked), (.c1, .locked)]
      let s := withStep { b with mu := { b.mu with pub := { b.mu.pub with draft := draft } } }
        { GearStep.fresh .range [.cb] [.ca] ⟨some .forward, some .b, some .s1⟩ with kind := k }
      (s.tryStart.hr.frozen, s.tryStart.hr.frozenLost, s.tryStart.sq.flags.draftFreeze)
    starting .range (some 120) = (some 120, false, true) ∧ starting .shuttle none = (none, true, true) ∧
    starting .single (some 120) = (none, false, false) := by decide +kernel

/-- Flags that clear: with a frozen draft, without, and with a deferred release that is granted, that waits, and that is not
wanted; a step abandoned with its freeze. -/
theorem test_meets_PlanLeadsToTheWish_flags :
    let flagged (s : State) : State := { s with
      sq := { s.sq with flags := ⟨true, true, true⟩ }, hr := { s.hr with frozen := some 120 } }
    let view (s : State) : Option Int × Coupling := (s.hr.frozen, s.acu.coupling)
    let full (s : State) : State := { s with flow := { s.flow with fill := ⟨.granted, 21, 21, none⟩ } }
    view (flagged (coupled 1 .engaged)).clearFlags = (none, .releasing) ∧
    view (flagged (full (coupled 1 .engaged))).clearFlags = (none, .releaseWait) ∧
    view (flagged (coupled 0 .engaged)).clearFlags = (none, .engaged) ∧
    (coupled 1 .engaged).acuWantsReleased = true ∧
    (let s : State := { flagged (coupled 1 .engaged) with sq := { Sq.reset with flags := ⟨false, true, false⟩ } }
     view s.clearFlags = (some 120, .engaged)) ∧
    (let s := flagged (withStep (boxed 5 .released (manual 0) [(.cf, .locked), (.ca, .locked), (.c1, .locked)])
       { syncing with phase := some .hold })
     view s.abandonHead = (none, .engaged)) := by decide +kernel

/-- HOLD of a RANGE and of a SINGLE step ends with a release waiting, and with one under way. -/
theorem test_meets_FillAndHoldEnd_deferral :
    let ending (k : StepKind) (c : Coupling) (f : FlowEntry) : Coupling × ReqState :=
      let b := coupled 1 c
      let s := withStep { b with flow := { b.flow with axle := f }, lcu := { b.lcu with now := 80 } }
        { inPhase syncing .hold 80 with kind := k }
      match exec .holdEnd s with | .next t => (t.acu.coupling, t.flow.axle.state) | _ => (.engaging, .idle)
    ending .range .releaseWait ⟨.waiting, 40, 0, some 0⟩ = (.engaged, .idle) ∧
    ending .single .releaseWait ⟨.waiting, 40, 0, some 0⟩ = (.releaseWait, .waiting) ∧
    ending .range .releasing ⟨.granted, 5, 5, none⟩ = (.releasing, .granted) := by decide +kernel

/-- A step that locks drops the frozen draft. -/
theorem test_meets_ClutchesLock_frozen :
    let st : GearStep := { syncing with kind := .range, on := [.c1], off := [.c2] }
    let b := boxed 1500 .released (manual 0) [(.cf, .locked), (.ca, .locked), (.c1, .sync)]
    let s : State := withStep
      { b with sq := { b.sq with flags := ⟨true, false, true⟩ }, hr := { b.hr with frozen := some 120 } } st
    s.sq.flags.draftFreeze = true ∧
    (match exec (.syncLimitExpiry .step) s with | .next t => (t.sq.queue, t.hr.frozen) | _ => ([st], some 0)) = ([], none) := by
  decide +kernel

/-! Invariants: a state in RUN with a command to run meets each of them. -/

/-- In RUN with a leased order, a fill grant and a command in the queue. -/
def busy : State :=
  let s := withLease (runAt 5) leased 500
  { s with
    pending := [.fillEnd]
    flow := { s.flow with fill := ⟨.granted, 8, 8, none⟩ }
    rp := s.rp.set .cab { s.rp.get .cab with changed := [0, 8, 47] } }

theorem test_meets_step : ∃ t, step busy = .next t := ⟨_, rfl⟩

theorem test_meets_FlowSafeKept : busy.FlowSafe where
  fits := by decide +kernel
  reserve := by decide +kernel
  capacity := by decide +kernel
  config := by intro h; exact absurd h (by decide)

theorem test_meets_InternalLiveKept : busy.InternalLive where
  size := by decide +kernel
  live := by
    intro k hk
    match k, hk with
    | 0, _ | 1, _ | 2, _ | 3, _ | 4, _ | 5, _ | 6, _ | 7, _ => exact ⟨_, rfl, rfl, _, rfl, rfl⟩

theorem test_meets_ValvesApartKept : busy.ValvesApart := ⟨by decide, by decide⟩

theorem test_meets_QueueFormKept : (withStep (runAt 5) syncing).QueueForm := ⟨by decide, by decide⟩

theorem test_meets_SetsAscendKept : busy.SetsAscend := by
  intro p
  cases p <;> simp [busy, ascending, withLease, withOrder, State.port, runAt, quiet, State.powerOn, PortRec.reset,
    ByPort.get, ByPort.set, ByPort.tabulate]

theorem test_meets_LeaseFormKept : (withLease (runAt 5) leased 500).LeaseForm := leaseForm_withLease

theorem test_meets_StoreFormKept : ready.StoreForm := storeForm_ready

theorem test_meets_SetpointsHandedKept : State.SetpointsHanded { ready with pending := [.start .cab 1] } where
  clutches := by intro c; cases c <;> rfl
  pending := by intro h; exact absurd h (by decide)

/-- In RUN with the internal orders alone and a command in the queue. -/
def listed : State := { runAt 5 with pending := [.fillEnd] }

/-- The form of the precedence lists, from checks of 48 slots and of the slots on each list. -/
theorem listForm_of {s : State} (size : s.otu.slots.length = 48) (once : ∀ ch, (s.list ch).Nodup)
    (held : ∀ ch, ∀ k < 48, decide (k ∈ s.list ch) = (s.order k).any fun o => o.channel = ch)
    (inside : ∀ ch, ∀ j ∈ s.list ch, j < 48)
    (rising : ∀ ch, (s.list ch).Pairwise fun j k => s.clsOf j ≤ s.clsOf k)
    (states : ∀ ch, ∀ j ∈ s.list ch, (s.order j).all (fun o =>
      o.state = o.stateBy (((s.list ch).takeWhile (· ≠ j)).all fun i => !(s.order i).any Order.eligible)) = true)
    (keeping : ∀ k < 48, (s.order k).all (fun o => o.state = .governing || o.keeping = .none) = true) : s.ListForm where
  size := size
  once := once
  holds := by
    intro ch k
    rcases Nat.lt_or_ge k 48 with hk | hk
    · have hkk := held ch k hk
      cases ho : s.order k <;> simpa [ho] using hkk
    · have ho : s.order k = none := by
        simp [State.order, List.getElem?_eq_none (show s.otu.slots.length ≤ k from size ▸ hk)]
      simp only [ho]
      exact ⟨fun hm => absurd (inside ch k hm) (by omega), fun ⟨_, h0, _⟩ => by simp at h0⟩
  ascending := rising
  states := by
    intro ch k o hk ho
    simpa [ho] using states ch k hk
  keeping := by
    refine order_of_lt size (P := fun _ x => ∀ o, x = some o → o.state ≠ .governing → o.keeping = .none)
      (by intro k o h; simp at h) ?_
    intro k hk o ho hs
    simpa [ho, hs] using keeping k hk

theorem test_meets_ListFormKept : listed.ListForm :=
  listForm_of (by decide +kernel) (by intro ch; cases ch <;> decide +kernel) (by intro ch; cases ch <;> decide +kernel)
    (by intro ch; cases ch <;> decide +kernel) (by intro ch; cases ch <;> decide +kernel)
    (by intro ch; cases ch <;> decide +kernel) (by decide +kernel)

theorem test_meets_ListFormKept_defaults : listed.DefaultsStand where
  stands := by intro ch; cases ch <;> exact ⟨_, rfl, by decide +kernel⟩
  unleased := by intro e he; cases he
  unreported := by intro r hr; cases hr

/-- Equal deadlines stand by slot; the timebase turns with time left, or does not turn. -/
theorem test_meets_LeasesOrderedKept :
    let s : State := { busy with lcu := { busy.lcu with leases := [⟨9, 400⟩, ⟨8, 500⟩, ⟨10, 500⟩] } }
    s.LeasesOrdered ∧ (∀ e ∈ s.lcu.leases, 0 < remaining s.now e.deadline) ∧
    (match step s with | .next t => t.now | _ => 0) = s.now := by
  refine ⟨?_, by decide +kernel, by decide +kernel⟩
  unfold State.LeasesOrdered
  decide +kernel

/-- As the end of an event leaves it; a started step in and out of FLOW_WAIT, a waiting head, an empty queue. -/
theorem test_meets_KeepingsAreWritten :
    (runAt 5).keepAll.ListForm ∧ (runAt 5).keepAll.KeepingsWritten ∧ (runAt 5).keepAll.running = true ∧
    (runAt 5).keepAll.enable = true ∧
    ({ runAt 5 with inputs := ⟨false, false, false⟩ } : State).enable = false ∧
    (withStep (runAt 5) syncing).sq.started = some syncing ∧ (runAt 5).sq.queue = [] ∧
    (withStep (runAt 5) freeRange).sq.waitingHead = some freeRange := by
  refine ⟨listForm_of (by decide +kernel) (by intro ch; cases ch <;> decide +kernel)
    (by intro ch; cases ch <;> decide +kernel) (by intro ch; cases ch <;> decide +kernel)
    (by intro ch; cases ch <;> decide +kernel) (by intro ch; cases ch <;> decide +kernel) (by decide +kernel), ?_,
    by decide +kernel⟩
  intro _ ch k o hk ho
  have h : ((runAt 5).keepAll.governing ch).all (fun k => ((runAt 5).keepAll.order k).all fun o =>
      o.keeping = (runAt 5).keepAll.keepingOf ch) = true := by cases ch <;> decide +kernel
  rw [hk, Option.all_some, ho, Option.all_some] at h
  exact of_decide_eq_true h

/-- F1 in C1 crosses over to C2. -/
def crossing : State :=
  withStep (boxed 5 .released (manual 0) [(.cf, .locked), (.ca, .locked), (.c1, .rampOff), (.c2, .rampOn)])
    { inPhase syncing .rampOn 300 with syncStart := none }

theorem test_meets_QueueFormKept_gearbox : crossing.GearboxForm where
  size := by decide +kernel
  orders := by
    have h : ∀ k ∈ crossing.list .gear, (crossing.order k).any (fun o => o.channel = .gear && setpointOk .gear o.setpoint) := by
      decide +kernel
    intro k hk
    have := h k hk
    cases ho : crossing.order k with
    | none => simp [ho] at this
    | some o => exact ⟨o, rfl, by simpa [ho] using this⟩
  taken := by
    intro t h
    obtain rfl : _ = t := Option.some.inj h
    decide +kernel
  target := by intro _ h; exact absurd h (by decide +kernel)
  head := by decide
  neutral := by decide
  others := by decide
  free := by
    intro st h hk
    obtain rfl := List.mem_singleton.1 h
    exact absurd hk (by decide)
  still := by intro h; rcases h with h | h <;> exact absurd h (by decide)
  waits := ⟨fun h => absurd h (by decide), fun ⟨st, h, hp⟩ => by obtain rfl := Option.some.inj h; exact absurd hp (by decide)⟩
  fills := ⟨fun h => absurd h (by decide), fun ⟨st, h, hp⟩ => by obtain rfl := Option.some.inj h; exact absurd hp (by decide)⟩
  filling := by
    have h : ∀ c, crossing.sq.state c ≠ .fill := by intro c; cases c <;> decide +kernel
    exact fun c hc => absurd hc (h c)
  fit := by
    refine ⟨⟨⟨some .forward, some .a, some .s1⟩, ?_⟩, trivial, ?_⟩
    · intro c; cases c <;> decide
    · intro c; cases c <;> decide +kernel

theorem test_meets_QueueFormKept_groups :
    crossing.GroupsShare ∧ crossing.sq.state .c1 ≠ .opened ∧ crossing.sq.state .c2 ≠ .opened ∧
    groupOf .c1 = groupOf .c2 ∧ crossing.sq.state .cf = .locked := by
  refine ⟨⟨?_, ?_⟩, by decide +kernel⟩
  · intro c d; cases c <;> cases d <;> decide +kernel
  · intro c d e; cases c <;> cases d <;> cases e <;> decide +kernel

theorem test_meets_FlowSafeKept_coupling :
    busy.CouplingForm ∧
    ({ coupled 1 .releasing with flow := { Flow.reset with axle := ⟨.granted, 5, 5, none⟩ } } : State).CouplingForm ∧
    ({ coupled 1 .releaseWait with flow := { Flow.reset with axle := ⟨.waiting, 5, 0, some 0⟩ } } : State).CouplingForm :=
  ⟨⟨by decide, by decide⟩, ⟨by decide, by decide⟩, ⟨by decide, by decide⟩⟩

theorem test_meets_SetsAscendKept_attend : busy.LinesAttend := by
  intro p
  cases p <;> exact ⟨fun h => absurd h (by decide), fun h => absurd h (by decide)⟩

theorem test_meets_ListFormKept_counts :
    busy.CountForm ∧ busy.live .cab = 1 ∧ busy.liveOrders .cab = [8] ∧ quota busy.items .cab = 16 :=
  ⟨⟨by decide +kernel, by intro p; cases p <;> decide +kernel, by intro p; cases p <;> decide +kernel,
    fun h => absurd h (by decide)⟩, by decide +kernel⟩

end Sys2Proof.Machine.Tests
end

section
/-! SUPPORT. What power-on reset leaves of the order table and the store. -/

namespace Sys2Proof.Machine

/-- The state that POWER_ON_RESET leaves. -/
def State.poweredOn (s : State) : State :=
  { State.powerOn s.inputs (.tabulate fun p => keptTxn (s.port p)) (.tabulate fun p => (s.port p).resetHeld) with
    pending := s.pending }

@[simp] theorem State.port_poweredOn (s : State) (p : Port) :
    s.poweredOn.port p = .reset (keptTxn (s.port p)) (s.port p).resetHeld := by
  cases p <;> rfl

/-- The slots of the table right after power-on reset, by the level of ENABLE. -/
theorem resetSlots_free (enable : Bool) :
    ∀ k < 48, 8 ≤ k → ((Otu.reset enable).slots[k]?).bind (·.order) = none := by
  cases enable <;> decide +kernel

theorem resetSlots_inc (enable : Bool) :
    ∀ k < 48, (((Otu.reset enable).slots[k]?).map (·.inc)).getD 0 = 0 := by
  cases enable <;> decide +kernel

/-- The internal orders right after power-on reset are as R13 gives them. -/
theorem resetSlots_internal (enable : Bool) :
    ∀ k < 8, ∃ o, ((Otu.reset enable).slots[k]?).bind (·.order) = some o ∧ o.owner = .internal ∧ o.gen = 1 ∧
      o.lease = 0 ∧ o.termCount = 0 ∧ o.keeping = .none := by
  intro k hk
  interval_cases k <;> exact ⟨_, rfl, rfl, rfl, rfl, rfl, rfl⟩

/-- Only the internal slots are live right after power-on reset. -/
theorem resetSlots_live {enable : Bool} {k : Nat} {o : Order}
    (live : ((Otu.reset enable).slots[k]?).bind (·.order) = some o) : k < 8 := by
  by_contra pool
  have lt : k < 48 := by
    by_contra past
    have size : (Otu.reset enable).slots.length = 48 := rfl
    rw [List.getElem?_eq_none (by omega)] at live
    cases live
  rw [resetSlots_free enable k lt (by omega)] at live
  cases live

section
variable {s : State} {enable : Bool}

theorem order_of_reset (otu : s.otu = .reset enable) {k : Nat} {o : Order} (live : s.order k = some o) :
    k < 8 ∧ o.owner = .internal ∧ o.lease = 0 ∧ o.keeping = .none := by
  unfold State.order at live
  rw [otu] at live
  obtain ⟨o', live', owner, -, lease, -, keeping⟩ := resetSlots_internal enable k (resetSlots_live live)
  rw [live', Option.some.injEq] at live
  exact ⟨resetSlots_live (live ▸ live'), live ▸ owner, live ▸ lease, live ▸ keeping⟩

theorem internalLive_of_reset (otu : s.otu = .reset enable) : s.InternalLive := by
  refine ⟨by rw [otu]; rfl, fun k hk => ?_⟩
  rw [otu]
  interval_cases k <;> exact ⟨_, rfl, rfl, _, rfl, rfl⟩

theorem leaseForm_of_reset (otu : s.otu = .reset enable) (leases : s.lcu.leases = []) : s.LeaseForm where
  size := by rw [otu]; rfl
  backed := fun _ h => by rw [leases] at h; cases h
  once := by rw [leases]; exact .nil
  entered := fun _ _ live leased => absurd (order_of_reset otu live).2.2.1 leased
  unleased := fun _ _ live _ => (order_of_reset otu live).2.2.1
  config := fun _ _ _ live => (order_of_reset otu live).2.1

end

theorem storeForm_of_reset {s : State} (items : s.items = defaultItems) : s.StoreForm where
  lengths := by rw [items]; decide
  values := by
    have short : ∀ i < 29, ∀ x < itemLength i, valueOk i x (itemValue defaultItems i x) = true := by decide +kernel
    intro i x hx
    rw [items]
    refine short i ?_ x hx
    by_contra big
    unfold itemLength at hx
    rw [List.getD_eq_getElem?_getD, List.getElem?_eq_none (by show itemLengths.length ≤ i; exact Nat.le_of_not_lt big)] at hx
    exact absurd hx (Nat.not_lt_zero _)
  cross := by
    intro i
    rw [items]
    unfold crossOk
    split
    all_goals rfl

end Sys2Proof.Machine
end

section
/-! The queue, and power-on reset (O1, O4, O5), and a state on which the class-3 defaults are not kept (O14). -/

namespace Sys2Proof.Machine

/-- Settles O1. -/
theorem stepRunsTheFrontCommand : Obligations.StepRunsTheFrontCommand :=
  ⟨fun _ _ _ => rfl, fun s idle => by unfold step; rw [idle]⟩

/-! Power-on reset. -/

/-- SAFE_NEUTRAL governs GEAR exactly while ENABLE is low (R43). -/
theorem State.governing_poweredOn (s : State) (ch : Channel) :
    s.poweredOn.governing ch =
      some (match ch with
        | .gear => if s.inputs.enable then 4 else 0
        | .axle => 5
        | .hitch => 6
        | .tbrake => 7) := by
  unfold State.governing State.list State.isGoverning State.order State.poweredOn State.powerOn
  cases s.inputs.enable <;> cases ch <;> rfl

/-- Settles O4. -/
theorem powerOnResetLeaves : Obligations.PowerOnResetLeaves := by
  refine ⟨fun s => ⟨s.poweredOn, rfl, rfl, rfl, rfl, rfl, resetSlots_inc _, resetSlots_free _, resetSlots_internal _,
    rfl, rfl, ?_, ?_, rfl, ?_, rfl, rfl, rfl, rfl, rfl, rfl, rfl, rfl, ?_, ?_, rfl, ?_⟩, fun s => ⟨s.poweredOn, rfl, ?_⟩⟩
  · intro ch; cases ch <;> rfl
  · intro ch; cases ch <;> rfl
  · intro c; cases c <;> rfl
  · intro ch; cases ch <;> exact ⟨rfl, rfl, rfl⟩
  · intro k; cases k <;> rfl
  · intro p
    rw [State.port_poweredOn]
    cases p <;> exact ⟨rfl, rfl, rfl, rfl, rfl, rfl, rfl, rfl, rfl, rfl⟩
  · exact ⟨s.governing_poweredOn .gear, s.governing_poweredOn .axle, s.governing_poweredOn .hitch,
      s.governing_poweredOn .tbrake, rfl⟩


theorem reset_flowSafe : State.reset.FlowSafe where
  fits := by decide
  reserve := by decide
  capacity := by decide
  config := fun _ => ⟨rfl, rfl, rfl, rfl, rfl, rfl, rfl⟩

theorem reset_setsAscend : State.reset.SetsAscend := by
  intro p
  cases p <;> exact trivial

theorem reset_listForm : State.reset.ListForm where
  size := rfl
  once := by
    intro ch
    cases ch <;> decide
  holds := by
    intro ch k
    constructor
    · intro h
      cases ch <;>
        · fin_cases h
          · exact ⟨_, rfl, rfl⟩
          · exact ⟨_, rfl, rfl⟩
    · rintro ⟨o, live, rfl⟩
      have hk := (order_of_reset (enable := false) rfl live).1
      interval_cases k <;> cases live <;> decide
  ascending := by
    intro ch
    cases ch <;> decide
  states := by
    intro ch k o mem live
    cases ch <;>
      · fin_cases mem <;> cases live <;> decide
  keeping := fun _ _ live _ => (order_of_reset (enable := false) rfl live).2.2.2

theorem reset_defaultsStand : State.reset.DefaultsStand where
  stands := by
    intro ch
    cases ch <;> exact ⟨_, rfl, rfl, rfl, rfl, rfl, by decide⟩
  unleased := fun _ h => by cases h
  unreported := fun _ h => by cases h

theorem reset_setpointsHanded : State.reset.SetpointsHanded where
  clutches := by
    intro c
    cases c <;> rfl
  pending := fun h => by cases h

theorem reset_gearboxForm : State.reset.GearboxForm where
  size := rfl
  orders := by
    intro k h
    fin_cases h
    · exact ⟨_, rfl, rfl, by decide⟩
    · exact ⟨_, rfl, rfl, by decide⟩
  taken := fun _ h => by cases h
  target := fun h => by cases h
  head := fun _ h => by cases h
  neutral := fun _ h => by cases h
  others := fun _ h => by cases h
  free := fun _ h => by cases h
  still := fun _ => ⟨rfl, fun c => by cases c <;> rfl⟩
  waits := iff_of_false (fun h => by cases h) (by rintro ⟨_, h, _⟩; cases h)
  fills := iff_of_false (fun h => by cases h) (by rintro ⟨_, h, _⟩; cases h)
  filling := by
    intro c h
    cases c <;> cases h
  fit := by
    intro c h
    cases c <;> exact absurd rfl h

theorem reset_countForm : State.reset.CountForm where
  size := rfl
  counts := by
    intro p
    cases p <;> decide
  quota := by
    intro p
    cases p <;> decide
  config := fun _ _ _ live => (order_of_reset (enable := false) rfl live).2.1

/-- Settles O5. -/
theorem invariantsHoldAtReset : Obligations.InvariantsHoldAtReset := by
  refine ⟨reset_flowSafe, internalLive_of_reset (enable := false) rfl, ⟨.inl rfl, .inl rfl⟩, ⟨Nat.zero_le _, fun _ h => nomatch h⟩,
    reset_setsAscend, leaseForm_of_reset (enable := false) rfl rfl, storeForm_of_reset rfl, reset_setpointsHanded, reset_listForm, reset_defaultsStand,
    .nil, ?_, ?_, reset_gearboxForm, ?_, reset_countForm⟩
  · intro running
    cases running
  · exact ⟨iff_of_false (by decide) (by decide), iff_of_false (by decide) (by decide)⟩
  · intro p
    cases p <;> exact ⟨fun asserted => absurd asserted (by decide), fun unmasked => absurd rfl unmasked⟩

/-! The class-3 defaults. -/

/-- A default whose first term is still arming though the order has no terms: no command writes such a record, but
`DefaultsStand` admits it. -/
def armingDefault : State :=
  { State.reset with
    pending := [.dwellEnd 4 .first],
    otu := { State.reset.otu with
      slots := State.reset.otu.slots.set 4
        ⟨0, some { internalOrder 4 true .outranked with term1 := { Term.blank with eval := some (.arming 0) } }⟩ } }

theorem armingDefault_stands : armingDefault.DefaultsStand where
  stands := by
    intro ch
    cases ch
    all_goals exact ⟨_, rfl, rfl, rfl, rfl, rfl, by decide⟩
  unleased := by
    intro e he
    cases he
  unreported := by
    intro r hr
    cases hr

/-- The dwell end of that term is reported, since a term without marks is not true while the order's condition is. -/
theorem armingDefault_reports :
    ∃ t, step armingDefault = .next t ∧ (defaultSlot .gear, false) ∈ t.lcu.reports :=
  ⟨_, rfl, by decide +kernel⟩

/-- Refutes O14: `DefaultsStand` says nothing of the terms' evaluations, and a dwell end on a class-3 default without
terms is reported by the LCU. -/
theorem not_listFormKept : ¬ Obligations.ListFormKept := by
  unfold Obligations.ListFormKept
  rintro ⟨-, -, kept, -⟩
  obtain ⟨t, run, reported⟩ := armingDefault_reports
  exact (kept _ t armingDefault_stands run).unreported _ reported .gear rfl

end Sys2Proof.Machine
end

section
/-! SUPPORT. What a command does to the order table, said once. A `Touch` is one elementary change inside an event that
places, frees and moves no order; a `Move` is one that may. Every invariant of the order table is then a statement about
a `Touch` and a `Move`. -/

namespace Sys2Proof.Machine

/-- A rewritten order record is the same entry of the table: what it is on which list for, whose it is, its lease, and
whether it is LAPSED. -/
structure Order.SameEntry (o o' : Order) : Prop where
  channel : o'.channel = o.channel
  cls : o'.cls = o.cls
  owner : o'.owner = o.owner
  lease : o'.lease = o.lease
  lapsed : o'.state = .lapsed ↔ o.state = .lapsed

theorem Order.SameEntry.of_state {o o' : Order} (channel : o'.channel = o.channel := by rfl)
    (cls : o'.cls = o.cls := by rfl) (owner : o'.owner = o.owner := by rfl) (lease : o'.lease = o.lease := by rfl)
    (state : o'.state = o.state := by rfl) : o.SameEntry o' :=
  ⟨channel, cls, owner, lease, by rw [state]⟩

/-- The state that R10 gives an order is LAPSED exactly where the order is. -/
theorem Order.stateBy_lapsed (o : Order) (first : Bool) :
    o.stateBy first = .lapsed ↔ o.state = .lapsed := by
  unfold Order.stateBy
  split
  · next lapsed => simp [lapsed]
  · next alive => cases o.cond <;> cases first <;> simp [alive]

/-- One elementary change inside an event that places, frees and moves no order. -/
inductive Touch : State → State → Prop where
  | frame {s t : State} (otu : t.otu = s.otu) (leases : t.lcu.leases = s.lcu.leases) (cs : t.cs = s.cs)
      (rp : t.rp = s.rp) : Touch s t
  | cause (s : State) (p : Port) (c : Cause) : Touch s (s.setCause p c)
  | enter (s : State) (p : Port) {k : Nat} {o : Order} (live : s.order k = some o) : Touch s (s.enterSet p k)
  | write {s : State} {k : Nat} {o o' : Order} (live : s.order k = some o) (same : o.SameEntry o') :
      Touch s (s.setOrder k o')

/-- Elementary changes one after the other. -/
def Touches : State → State → Prop := Relation.ReflTransGen Touch

namespace Touches

theorem refl (s : State) : Touches s s := Relation.ReflTransGen.refl

theorem trans {s t u : State} (h : Touches s t) (g : Touches t u) : Touches s u := Relation.ReflTransGen.trans h g

variable {s t u : State}

theorem touch (h : Touches s t) (g : Touch t u) : Touches s u := Relation.ReflTransGen.tail h g

theorem frame (h : Touches s t) (otu : u.otu = t.otu := by rfl) (leases : u.lcu.leases = t.lcu.leases := by rfl)
    (cs : u.cs = t.cs := by rfl) (rp : u.rp = t.rp := by rfl) : Touches s u :=
  h.touch (.frame otu leases cs rp)

theorem ite {c : Prop} [Decidable c] {a b : State} (ha : Touches s a) (hb : Touches s b) :
    Touches s (if c then a else b) := by
  split
  · exact ha
  · exact hb

theorem foldl {α : Type} (f : State → α → State) (hf : ∀ u a, Touches s u → Touches s (f u a)) :
    ∀ (l : List α) (u : State), Touches s u → Touches s (l.foldl f u) := by
  intro l
  induction l with
  | nil => exact fun _ h => h
  | cons a l ih => exact fun u h => ih _ (hf u a h)

theorem job (h : Touches s t) (g : JobOnly t u) : Touches s u := h.frame g.otu (by rw [g.lcu]) g.cs g.rp

theorem setCause (h : Touches s t) (p : Port) (c : Cause) : Touches s (t.setCause p c) := h.touch (.cause t p c)

theorem setCauseBoth (h : Touches s t) (c : Cause) : Touches s (t.setCauseBoth c) :=
  (h.setCause .cab c).setCause .implement c

/-- A write of a live order, noted in a changed-order set. -/
theorem writeNoted (h : Touches s t) {k : Nat} {o o' : Order} (live : t.order k = some o) (same : o.SameEntry o')
    (o'' : Order) : Touches s ((t.setOrder k o').noteChange k o'') :=
  (h.touch (.write live same)).touch
    (.enter _ _ (o := o') (by rw [State.order_setOrder_live live, if_pos rfl]))

/-! Detections. -/

theorem reportFault (h : Touches s t) (k : FaultKind) : Touches s (t.reportFault k) := by
  have told : ∀ {u : State}, Touches s u → ∀ p,
      Touches s (if (u.fu.mask.get p).getLsbD k.code then u else u.setCause p .fault) :=
    fun hu p => ite hu (hu.setCause p .fault)
  exact ite ((told (told h .cab) .implement).setCauseBoth _) (told (told h .cab) .implement)

theorem markUnits (h : Touches s t) (k : FaultKind) (site : Word) : Touches s (t.markUnits k site) := by
  unfold State.markUnits
  dsimp only
  repeat' split
  all_goals exact h.frame

theorem fuConditions (h : Touches s t) : Touches s t.fuConditions := h.frame

theorem unitsFollow (h : Touches s t) : Touches s t.unitsFollow := h.job (JobOnly.refl t).unitsFollow

theorem detect (h : Touches s t) (k : FaultKind) (site : Word) : Touches s (t.detect k site) :=
  (((h.frame (u := { t with
    fu := { t.fu with record := t.recordFirst k site, entry := t.fu.entry.set k ⟨true, some site⟩ } }).reportFault
      k).markUnits k site).unitsFollow).fuConditions

theorem unmarkUnits (h : Touches s t) (k : FaultKind) : Touches s (t.unmarkUnits k) := by
  unfold State.unmarkUnits
  split
  all_goals exact h.frame

theorem unlatch (h : Touches s t) (k : FaultKind) : Touches s (t.unlatch k) :=
  ((h.frame (u := { t with
    fu := { t.fu with
      record := recordAfter t.fu.record k,
      entry := t.fu.entry.set k { t.fu.entry.get k with latched := false } } }).unmarkUnits
      k).unitsFollow).fuConditions

theorem hotTest (h : Touches s t) (c : Clutch) : Touches s (t.hotTest c) :=
  ite ((h.job ((JobOnly.refl t).setSq _)).detect _ _) (ite (h.job ((JobOnly.refl t).setSq _)) h)

theorem hotTests (h : Touches s t) : Touches s t.hotTests := foldl _ (fun _ c hu => hu.hotTest c) _ _ h

theorem sqPublish (h : Touches s t) (old : Band) : Touches s (t.sqPublish old) := by
  unfold State.sqPublish
  refine ite h ?_
  refine (h.job (JobOnly.refl t).heatUp).hotTests.job ?_
  exact ((((((JobOnly.refl _).observe).pedalChange old).standstill).lockStart).looseStart).tryStart

theorem starve (h : Touches s t) (c : WaitClass) : Touches s (t.starve c) := by
  unfold State.starve
  dsimp only
  split
  · exact ((h.job ((JobOnly.refl t).setFlow _)).detect _ _).job (JobOnly.refl _).grantPass.sqStarved
  · exact ((h.job ((JobOnly.refl t).setFlow _)).detect _ _).job (JobOnly.refl _).grantPass.acuStarved

theorem enableLost (h : Touches s t) : Touches s t.enableLost := ite h (h.detect _ _)

/-! Resolutions. -/

theorem handOver (h : Touches s t) (ch : Channel) : Touches s (t.handOver ch) := by
  unfold State.handOver
  refine ite h ?_
  split
  · exact h.job (JobOnly.refl t).sqTake
  · exact h.job (JobOnly.refl t).acuTake
  · exact h.job (JobOnly.refl t).hrTake
  · exact h.frame

theorem resolveSlot (h : Touches s t) (q : Option Nat) {k : Nat} {o : Order} (live : t.order k = some o)
    (first : Bool) : Touches s (t.resolveSlot q k o (o.stateBy first)) := by
  unfold State.resolveSlot
  dsimp only
  have same : ∀ kp, o.SameEntry { o with state := o.stateBy first, keeping := kp } :=
    fun kp => ⟨rfl, rfl, rfl, rfl, o.stateBy_lapsed first⟩
  exact ite h (ite (h.touch (.write live (same _))) (h.writeNoted live (same _) _))

theorem resolveWalk (q : Option Nat) (l : List Nat) :
    ∀ (first : Bool) (u : State), Touches s u → Touches s (State.resolveWalk q l first u) := by
  induction l with
  | nil => exact fun _ _ h => h
  | cons k l ih =>
    intro first u h
    unfold State.resolveWalk
    split
    · next o live => exact ih _ _ (h.resolveSlot q live first)
    · exact ih _ _ h

theorem resolve (h : Touches s t) (ch : Channel) (q a : Option Nat) : Touches s (t.resolve ch q a) := by
  have walked := resolveWalk q (t.list ch) true t h
  exact ite (walked.handOver ch) walked

theorem resolveAll (h : Touches s t) (l : List Channel) : Touches s (t.resolveAll l) :=
  foldl _ (fun _ ch hu => hu.resolve ch none none) _ _ h

theorem takeCondition (h : Touches s t) (k : Nat) (b : Bool) : Touches s (t.takeCondition k b) := by
  unfold State.takeCondition
  split
  · next o live => exact (h.touch (.write live .of_state)).resolve _ _ _
  · exact h

theorem stopKeeping (h : Touches s t) (k : Nat) : Touches s (t.stopKeeping k) := by
  unfold State.stopKeeping
  split
  · next o live => exact ite h (h.writeNoted live .of_state o)
  · exact h

theorem followLaw (h : Touches s t) : Touches s t.followLaw := by
  unfold State.followLaw
  split
  · next o live => exact ite h (h.touch (.write live .of_state))
  · exact h

/-! Conditions. -/

theorem lcuReport (h : Touches s t) {k : Nat} {o o' : Order} (live : t.order k = some o) (same : o.SameEntry o') :
    Touches s (t.lcuReport k o') := by
  unfold State.lcuReport
  dsimp only
  split
  · exact h.touch (.write live same)
  · exact (h.touch (.write live (o' := { o' with lcuCond := o'.termsTrue })
      ⟨same.channel, same.cls, same.owner, same.lease, same.lapsed⟩)).frame

theorem dwellEnds (h : Touches s t) (k : Nat) (n : TermNo) : Touches s (t.dwellEnds k n) := by
  unfold State.dwellEnds
  split
  · next o live =>
    refine h.lcuReport live ?_
    cases n <;> exact .of_state
  · exact h

theorem sweepSlot (h : Touches s t) (about : Quantity → Bool) (k : Nat) : Touches s (State.sweepSlot about t k) := by
  unfold State.sweepSlot
  split
  · next o live => exact ite h (h.lcuReport live .of_state)
  · exact h

theorem sweep (h : Touches s t) (about : Quantity → Bool) : Touches s (t.sweep about) :=
  foldl _ (fun _ k hu => hu.sweepSlot about k) _ _ h

theorem brakeAxlePublish (h : Touches s t) : Touches s t.brakeAxlePublish := by
  unfold State.brakeAxlePublish
  exact ite h.frame (ite h.frame h)

theorem transportPublish (h : Touches s t) : Touches s t.transportPublish := by
  unfold State.transportPublish
  exact ite (ite h.frame h) (ite h.frame h)

theorem lcuPublish (h : Touches s t) : Touches s t.lcuPublish := (h.sweep _).brakeAxlePublish.transportPublish

/-! The end of an event. -/

theorem writeKeeping (h : Touches s t) (ch : Channel) (v : Keeping) : Touches s (t.writeKeeping ch v) := by
  unfold State.writeKeeping
  split
  · exact h
  · split
    · exact h
    · next o live => exact ite h (h.writeNoted live .of_state o)

theorem keepAll (h : Touches s t) : Touches s t.keepAll := by
  unfold State.keepAll
  exact ite ((((h.writeKeeping _ _).writeKeeping _ _).writeKeeping _ _).writeKeeping _ _) h

theorem gearReport (h : Touches s t) (old : Sq) : Touches s (t.gearReport old) := by
  have told := ite (c := t.sq.record = old.record) h (h.setCauseBoth .gear)
  exact ite told (told.sweep _)

theorem osGuard (h : Touches s t) : Touches s t.osGuard := h.frame

theorem sqGuard (h : Touches s t) : Touches s t.sqGuard := h.frame

theorem followLost (h : Touches s t) : Touches s t.followLost := h.frame

theorem followMismatch (h : Touches s t) : Touches s t.followMismatch := h.frame

theorem unitGuards (h : Touches s t) : Touches s t.unitGuards := h.frame

theorem clutchCurrents (h : Touches s t) : Touches s t.clutchCurrents := h.frame

theorem endPeriod (h : Touches s t) (mean : ByOut Word) : Touches s (t.endPeriod mean) := h.frame

theorem loadSetpoints (h : Touches s t) : Touches s t.loadSetpoints := h.frame

theorem turnDither (h : Touches s t) : Touches s t.turnDither := h.frame

theorem handSetpoints (h : Touches s t) : Touches s t.handSetpoints := ite h.frame h

theorem settle (h : Touches s t) (old : Sq) : Touches s (t.settle old) := by
  have guarded := (h.osGuard.sqGuard.gearReport old).followLost.followMismatch.unitGuards
  exact guarded.clutchCurrents.handSetpoints.keepAll

theorem tick (h : Touches s t) : Touches s t.tick := h.frame

theorem turned (h : Touches s t) : Touches s t.turned := h.tick.settle t.sq

end Touches

end Sys2Proof.Machine
end

section
/-! SUPPORT. The moves of the order table: placements, amendments of leases, frees, lapses, and the changes of device state
and store that come with them. -/

namespace Sys2Proof.Machine

/-- An order placed in slot `k`, on its list and with its lease, before its channel is resolved (R19). -/
def State.entered (s : State) (p : Port) (k : Nat) (o : Order) : State :=
  let s1 := ((s.setOrder k o).setLive p (s.live p + 1)).moveFront o.channel k
  if o.lease = 0 then s1 else s1.restartLease k o.lease

theorem State.placeAt_eq (s : State) (p : Port) (k : Nat) (o : Order) :
    s.placeAt p k o = (s.entered p k o).resolve o.channel (some k) none := rfl

/-- One elementary change of the order table inside an event. -/
inductive Move : State → State → Prop where
  | touch {s t : State} (h : Touch s t) : Move s t
  | place {s : State} {p : Port} {k : Nat} {o : Order} (free : s.freeSlot = some k) (running : s.running = true)
      (owner : o.owner = ownerOf p) (alive : o.state ≠ .lapsed) : Move s (s.entered p k o)
  | lease {s : State} {k : Nat} {o o' : Order} (live : s.order k = some o) (external : o.owner ≠ .internal)
      (alive : o.state ≠ .lapsed) (channel : o'.channel = o.channel) (owner : o'.owner = o.owner)
      (state : o'.state = o.state) : Move s ((s.setOrder k o').restartLease k o'.lease)
  | front {s : State} {k : Nat} {o : Order} (live : s.order k = some o) : Move s (s.moveFront o.channel k)
  | free {s : State} {k : Nat} {o : Order} (live : s.order k = some o) (external : o.owner ≠ .internal) :
      Move s (s.freeOrder k o)
  | lapse {s : State} {k : Nat} {o o' : Order} (live : s.order k = some o) (channel : o'.channel = o.channel)
      (owner : o'.owner = o.owner) (lease : o'.lease = o.lease) (lapsed : o'.state = .lapsed) :
      Move s ((s.lcuForget k).setOrder k o')
  | forget {s : State} {k : Nat} (free : s.order k = none) : Move s (s.lcuForget k)
  | device {s : State} (d : Device)
      (internal : d = .config → s.otu.slots.length = 48 → ∀ k o, s.order k = some o → o.owner = .internal) :
      Move s { s with cs := { s.cs with device := d } }
  | items {s : State} {item first n : Nat} {vals : List Word} {items : List (List Word)}
      (ok : s.configCheck item first n vals = .ok items) (short : vals.length ≤ n) : Move s { s with cs := { s.cs with items := items } }

/-- Moves one after the other. -/
def Moves : State → State → Prop := Relation.ReflTransGen Move

/-- A property of states that every move keeps holds after any moves. -/
theorem Moves.keep {P : State → Prop} (kept : ∀ s t, Move s t → P s → P t) {s t : State} (h : Moves s t) (hs : P s) :
    P t := by
  induction h with
  | refl => exact hs
  | tail _ m ih => exact kept _ _ m ih

/-- A property of states that every touch keeps holds after any touches. -/
theorem Touches.keep {P : State → Prop} (kept : ∀ s t, Touch s t → P s → P t) {s t : State} (h : Touches s t)
    (hs : P s) : P t := by
  induction h with
  | refl => exact hs
  | tail _ m ih => exact kept _ _ m ih

theorem Touches.moves {s t : State} (h : Touches s t) : Moves s t := by
  induction h with
  | refl => exact Relation.ReflTransGen.refl
  | tail _ g ih => exact ih.tail (.touch g)

/-! Writes of a run of fields. -/

/-- What a write of fields leaves of an order record. -/
structure Order.Rewritten (o o' : Order) : Prop where
  channel : o'.channel = o.channel
  cls : o'.cls = o.cls
  owner : o'.owner = o.owner
  state : o'.state = o.state
  keeping : o'.keeping = o.keeping
  termCount : o'.termCount = o.termCount
  gen : o'.gen = o.gen
  cond : o'.cond = o.cond

theorem Order.rewritten_writeField (o : Order) (i : Nat) (w : Word) : o.Rewritten (o.writeField i w) := by
  unfold Order.writeField
  repeat' split
  all_goals exact ⟨rfl, rfl, rfl, rfl, rfl, rfl, rfl, rfl⟩

theorem Order.rewritten_writeFields (o : Order) (first : Nat) (ws : List Word) :
    o.Rewritten (o.writeFields first ws) := by
  induction ws generalizing o first with
  | nil => exact ⟨rfl, rfl, rfl, rfl, rfl, rfl, rfl, rfl⟩
  | cons w ws ih =>
    have one := o.rewritten_writeField first w
    have rest := ih (o.writeField first w) (first + 1)
    exact ⟨rest.channel.trans one.channel, rest.cls.trans one.cls, rest.owner.trans one.owner,
      rest.state.trans one.state, rest.keeping.trans one.keeping, rest.termCount.trans one.termCount,
      rest.gen.trans one.gen, rest.cond.trans one.cond⟩

/-- The lease interval is field 5 alone. -/
theorem Order.lease_writeFields (o : Order) (first : Nat) (ws : List Word) (h : inRun first ws.length 5 = false) :
    (o.writeFields first ws).lease = o.lease := by
  induction ws generalizing o first with
  | nil => rfl
  | cons w ws ih =>
    simp only [inRun, List.length_cons, Bool.and_eq_false_iff, decide_eq_false_iff_not] at h
    refine (ih (o.writeField first w) (first + 1) ?_).trans ?_
    · simp only [inRun, Bool.and_eq_false_iff, decide_eq_false_iff_not]
      omega
    · unfold Order.writeField
      rw [if_neg (by omega)]
      repeat' split
      all_goals rfl

/-- An AMEND that passes its checks comes from the owner of an order that is not LAPSED, and writes the run (R20). -/
theorem Order.amendCheck_ok {o o' : Order} {p : Port} {first n : Nat} {gen : Word} {v : Values}
    (ok : o.amendCheck p first n gen v = .ok o') :
    o.owner = ownerOf p ∧ o.state ≠ .lapsed ∧ n ≤ 8 ∧ o' = o.writeFields first (v.toList.take n) := by
  unfold Order.amendCheck at ok
  dsimp only at ok
  repeat' split at ok
  all_goals try cases ok
  next owner alive gen fields inRange =>
    rw [Bool.not_eq_true, Bool.or_eq_false_iff] at fields
    exact ⟨not_not.mp owner, alive, by simpa using fields.1, rfl⟩

theorem ownerOf_ne_internal (p : Port) : ownerOf p ≠ .internal := by cases p <;> decide

/-! Frees. -/

theorem State.order_freeOrder {s : State} {k : Nat} {o : Order} (live : s.order k = some o) (j : Nat) :
    (s.freeOrder k o).order j = if j = k then none else s.order j := by
  have lt := State.order_lt live
  unfold State.freeOrder
  dsimp only
  split <;>
    · rw [State.order_setSlot]
      by_cases hj : j = k
      · rw [if_pos hj, if_pos ⟨hj, lt⟩]
      · rw [if_neg hj, if_neg (fun h => hj h.1)]
        rfl

theorem State.order_freeIf (who : Owner → Bool) (s : State) (k j : Nat) :
    (State.freeIf who s k).order j = if j = k then (s.order k).filter fun o => !who o.owner else s.order j := by
  unfold State.freeIf
  by_cases hj : j = k
  · subst hj
    cases live : s.order j with
    | none => simp [live]
    | some o =>
      by_cases freed : who o.owner = true
      · simp [freed, State.order_freeOrder live, Option.filter]
      · simp [freed, live, Option.filter]
  · rw [if_neg hj]
    split
    · next o live =>
      split
      · rw [State.order_freeOrder live, if_neg hj]
      · rfl
    · rfl

/-- What the frees of a list of slots leave. -/
theorem State.order_foldl_freeIf (who : Owner → Bool) (l : List Nat) (s : State) (j : Nat) :
    (l.foldl (State.freeIf who) s).order j = if j ∈ l then (s.order j).filter fun o => !who o.owner else s.order j := by
  induction l generalizing s with
  | nil => rfl
  | cons k l ih =>
    rw [List.foldl_cons, ih, State.order_freeIf]
    by_cases hj : j = k
    · subst hj
      simp [Option.filter_filter]
    · simp [hj]

theorem State.order_freeAll (who : Owner → Bool) (s : State) (j : Nat) :
    (s.freeAll who).order j = if j < 48 then (s.order j).filter fun o => !who o.owner else s.order j := by
  unfold State.freeAll
  rw [State.order_foldl_freeIf]
  simp only [List.mem_range]

/-- Frees do not look at the store. -/
theorem State.freeIf_setCs (who : Owner → Bool) (s : State) (c : Cs) (k : Nat) :
    State.freeIf who { s with cs := c } k = { State.freeIf who s k with cs := c } := by
  unfold State.freeIf
  rw [show ({ s with cs := c } : State).order k = s.order k from rfl]
  split
  · next o _ =>
    split
    · unfold State.freeOrder
      dsimp only
      cases o.owner.countPort <;> rfl
    · rfl
  · rfl

theorem State.freeAll_setCs (who : Owner → Bool) (s : State) (c : Cs) :
    ({ s with cs := c } : State).freeAll who = { s.freeAll who with cs := c } := by
  unfold State.freeAll
  generalize List.range 48 = l
  induction l generalizing s with
  | nil => rfl
  | cons k l ih => rw [List.foldl_cons, List.foldl_cons, State.freeIf_setCs, ih]

/-! Amendments. -/

/-- A report of the LCU writes the record with its condition as worked out. -/
theorem State.order_lcuReport {s : State} {k : Nat} {o : Order} (live : s.order k = some o) (o' : Order) (j : Nat) :
    (s.lcuReport k o').order j = if j = k then some { o' with lcuCond := o'.termsTrue } else s.order j := by
  unfold State.lcuReport
  dsimp only
  split
  · next e => rw [State.order_setOrder_live live, show ({ o' with lcuCond := o'.termsTrue } : Order) = o' by rw [e]]
  · exact State.order_setOrder_live live _ j

/-- The record an AMEND leaves, from the record with its run written. -/
def State.amendedRecord (s : State) (o : Order) (first n : Nat) : Order :=
  let o' := s.handTerms { o with gen := if n = 0 then o.gen else nextGen o.gen } first n
  { o' with lcuCond := if o.termCount = 0 then o'.lcuCond else o'.termsTrue }

/-- The table and the leases after an AMEND, before the list and the channel follow (R21). -/
def State.amended (s : State) (k : Nat) (o : Order) (first n : Nat) : State :=
  let o' := s.handTerms { o with gen := if n = 0 then o.gen else nextGen o.gen } first n
  let s' := if o.termCount = 0 then s.setOrder k o' else s.lcuReport k o'
  if inRun first n 5 then s'.restartLease k o.lease else s'

theorem State.amendAt_eq (s : State) (k : Nat) (o : Order) (first n : Nat) (front : Bool) :
    s.amendAt k o first n front =
      (if front then (s.amended k o first n).moveFront o.channel k else s.amended k o first n).resolve o.channel none
        (if (List.range 8).any fun i => inRun first n (8 + i) then some k else none) := rfl

theorem State.order_amended {s : State} {k : Nat} {o' : Order} (live : s.order k = some o') (o : Order) (first n j : Nat) :
    (s.amended k o first n).order j = if j = k then some (s.amendedRecord o first n) else s.order j := by
  unfold State.amended State.amendedRecord
  dsimp only
  have restart : ∀ (u : State) (c : Prop) [Decidable c], (if c then u.restartLease k o.lease else u).order j = u.order j := by
    intro u c _
    split <;> rfl
  rw [restart]
  split
  · exact State.order_setOrder_live live _ j
  · exact State.order_lcuReport live _ j

namespace Moves

theorem refl (s : State) : Moves s s := Relation.ReflTransGen.refl

theorem trans {s t u : State} (h : Moves s t) (g : Moves t u) : Moves s u := Relation.ReflTransGen.trans h g

variable {s t u : State}

theorem move (h : Moves s t) (g : Move t u) : Moves s u := Relation.ReflTransGen.tail h g

theorem touches (h : Moves s t) (g : Touches t u) : Moves s u := h.trans g.moves

theorem resolve (h : Moves s t) (ch : Channel) (q a : Option Nat) : Moves s (t.resolve ch q a) :=
  h.touches ((Touches.refl t).resolve ch q a)

theorem placeAt (h : Moves s t) {p : Port} {k : Nat} {o : Order} (free : t.freeSlot = some k)
    (running : t.running = true) (owner : o.owner = ownerOf p) (alive : o.state ≠ .lapsed) :
    Moves s (t.placeAt p k o) := by
  rw [State.placeAt_eq]
  exact (h.move (.place free running owner alive)).resolve _ _ _

/-- A report of the LCU with a lease that restarts: the report is beside the order and its lease. -/
theorem lcuReport_restartLease (h : Moves s t) {k : Nat} {o o' : Order} (live : t.order k = some o)
    (external : o.owner ≠ .internal) (alive : o.state ≠ .lapsed) (channel : o'.channel = o.channel)
    (owner : o'.owner = o.owner) (state : o'.state = o.state) :
    Moves s ((t.lcuReport k o').restartLease k o'.lease) := by
  unfold State.lcuReport
  dsimp only
  split
  · exact h.move (.lease live external alive channel owner state)
  · exact (h.move (.lease live external alive (o' := { o' with lcuCond := o'.termsTrue }) channel owner state)).touches
      (Touches.refl _).frame

theorem amended (h : Moves s t) {k first n : Nat} {o o' : Order} {p : Port} {gen : Word} {v : Values}
    (live : t.order k = some o) (ok : o.amendCheck p first n gen v = .ok o') : Moves s (t.amended k o' first n) := by
  obtain ⟨owner, alive, small, rfl⟩ := o.amendCheck_ok ok
  have length : (v.toList.take n).length = n := List.length_take_of_le small
  have external : o.owner ≠ .internal := owner ▸ ownerOf_ne_internal p
  have same := o.rewritten_writeFields first (v.toList.take n)
  have unleased := o.lease_writeFields first (v.toList.take n)
  rw [length] at unleased
  generalize o.writeFields first (v.toList.take n) = o1 at same unleased ⊢
  unfold State.amended
  dsimp only
  split
  · split
    · exact h.move (.lease live external alive same.channel same.owner same.state)
    · exact h.lcuReport_restartLease live external alive same.channel same.owner same.state
  · next out =>
    have entry : o.SameEntry (t.handTerms { o1 with gen := if n = 0 then o1.gen else nextGen o1.gen } first n) :=
      .of_state same.channel same.cls same.owner (unleased (Bool.eq_false_iff.mpr out)) same.state
    split
    · exact h.touches ((Touches.refl t).touch (.write live entry))
    · exact h.touches ((Touches.refl t).lcuReport live entry)

/-- An AMEND that passes its checks (R21). -/
theorem amendAt (h : Moves s t) {k first n : Nat} {o o' : Order} {p : Port} {gen : Word} {v : Values} (front : Bool)
    (live : t.order k = some o) (ok : o.amendCheck p first n gen v = .ok o') :
    Moves s (t.amendAt k o' first n front) := by
  have amended := h.amended live ok
  rw [State.amendAt_eq]
  split
  · exact (amended.move (.front (o := t.amendedRecord o' first n) (by rw [State.order_amended live, if_pos rfl]))).resolve _ _ _
  · exact amended.resolve _ _ _

theorem retire (h : Moves s t) {k : Nat} {o : Order} (live : t.order k = some o) (external : o.owner ≠ .internal) :
    Moves s ((t.freeOrder k o).resolve o.channel none none) :=
  (h.move (.free live external)).resolve _ _ _

theorem foldl {α : Type} (f : State → α → State) (hf : ∀ u a, Moves s u → Moves s (f u a)) :
    ∀ (l : List α) (u : State), Moves s u → Moves s (l.foldl f u) := by
  intro l
  induction l with
  | nil => exact fun _ h => h
  | cons a l ih => exact fun u h => ih _ (hf u a h)

theorem freeIf (h : Moves s t) {who : Owner → Bool} (external : who .internal = false) (k : Nat) :
    Moves s (State.freeIf who t k) := by
  unfold State.freeIf
  split
  · next o live =>
    split
    · next freed => exact h.move (.free live fun e => absurd (e ▸ freed) (by rw [external]; exact Bool.false_ne_true))
    · exact h
  · exact h

theorem freeAll (h : Moves s t) {who : Owner → Bool} (external : who .internal = false) : Moves s (t.freeAll who) :=
  foldl _ (fun _ k hu => hu.freeIf external k) _ _ h

theorem freeAndResolve (h : Moves s t) {who : Owner → Bool} (external : who .internal = false) :
    Moves s (t.freeAndResolve who) :=
  (h.freeAll external).touches ((Touches.refl _).resolveAll _)

/-- The head of the lease list expires (R27, R31). -/
theorem leaseEnds (h : Moves s t) : Moves s t.leaseEnds := by
  unfold State.leaseEnds
  split
  · next k _ =>
    unfold State.lapse
    split
    · next o live =>
      have lapsed := h.move (.lapse (o' := { o with
        state := .lapsed, keeping := .none, term1 := { o.term1 with eval := none },
        term2 := { o.term2 with eval := none } }) (show t.order k = some o from live) rfl rfl rfl rfl)
      exact (lapsed.touches ((Touches.refl _).touch
        (.enter _ _ (by rw [State.order_setOrder_live live, if_pos rfl])))).resolve _ _ _
    · next free => exact h.move (.forget free)
  · exact h

/-- STOP frees every order of the ports as the device enters CONFIG (R185). -/
theorem stopFrees (s : State) :
    Moves s (({ s with cs := { s.cs with device := .config } } : State).freeAll fun o => o ≠ .internal) := by
  have freed := (refl s).freeAll (who := fun o => o ≠ .internal) (by decide)
  have store := ((ClaimOnly.refl s).freeAll fun o => o ≠ .internal).cs
  rw [State.freeAll_setCs, ← store]
  refine freed.move (Move.device .config fun _ size k o live => ?_)
  have lt : k < 48 := size ▸ State.order_lt live
  rw [State.order_freeAll, if_pos lt, Option.filter_eq_some_iff] at live
  simpa using live.2

theorem stopUnits (h : Moves s t) : Moves s t.stopUnits := h.touches (Touches.refl t).frame

theorem stopKeepings (h : Moves s t) : Moves s ((List.range 8).foldl State.stopKeeping t) :=
  h.touches (Touches.foldl _ (fun _ k hu => hu.stopKeeping k) _ _ (.refl t))

end Moves

end Sys2Proof.Machine
end

section
/-! SUPPORT. The two shapes of a command: it changes a port and what no keeping depends on, or it is an event whose moves are
settled. -/

namespace Sys2Proof.Machine

/-- What the invariants of a port keep through a change of the port. -/
structure PortFine (r r' : PortRec) : Prop where
  ascends : ascending r.changed → ascending r'.changed
  attends : r.Attends → r'.Attends
  empty : r.changed = [] → r'.changed = []

theorem PortFine.refl (r : PortRec) : PortFine r r := ⟨id, id, id⟩

theorem PortFine.trans {a b c : PortRec} (h : PortFine a b) (g : PortFine b c) : PortFine a c :=
  ⟨g.ascends ∘ h.ascends, g.attends ∘ h.attends, g.empty ∘ h.empty⟩

/-- A change of a port that leaves the changed-order set, the causes and the attention line. -/
theorem PortFine.of_eq {r r' : PortRec} (changed : r'.changed = r.changed := by rfl) (causes : r'.causes = r.causes := by rfl)
    (mask : r'.causeMask = r.causeMask := by rfl) (asserted : r'.asserted = r.asserted := by rfl)
    (throttle : r'.throttle = r.throttle := by rfl) : PortFine r r' :=
  ⟨by rw [changed]; exact id, by unfold PortRec.Attends; rw [causes, mask, asserted, throttle]; exact id,
   by rw [changed]; exact id⟩

/-- A change that keeps the changed-order set and brings the attention line up to date. -/
theorem PortFine.attend {r r' : PortRec} (changed : r'.changed = r.changed) (now : Time) (n : Nat) :
    PortFine r (r'.attend now n) := by
  refine ⟨fun h => ?_, fun _ => r'.attends_attend now n, fun h => ?_⟩
  · rw [PortRec.attend_changed, changed]
    exact h
  · rw [PortRec.attend_changed, changed]
    exact h

/-- A change that moves no order and no keeping: of ports, masks, fill offsets, and leases that restart. -/
structure Calm (s t : State) : Prop where
  otu : t.otu = s.otu
  cs : t.cs = s.cs
  record : t.sq.record = s.sq.record
  keepings : s.running = true → ∀ ch, t.keepingOf ch = s.keepingOf ch
  leases : s.LeaseForm → t.LeaseForm
  ports : ∀ p, PortFine (s.port p) (t.port p)

/-- The lease list depends on the orders, the leases and the device state alone. -/
theorem State.LeaseForm.congr {s t : State} (otu : t.otu = s.otu) (leases : t.lcu.leases = s.lcu.leases)
    (cs : t.cs = s.cs) (h : s.LeaseForm) : t.LeaseForm := by
  have order : ∀ k, t.order k = s.order k := fun k => by unfold State.order; rw [otu]
  have running : t.running = s.running := by unfold State.running; rw [cs]
  constructor
  · rw [otu]; exact h.size
  · intro e; rw [leases, order]; exact h.backed e
  · rw [leases]; exact h.once
  · intro k; rw [leases, order]; exact h.entered k
  · intro k; rw [order]; exact h.unleased k
  · intro stopped k; rw [order]; exact h.config (running ▸ stopped) k

namespace Calm

theorem refl (s : State) : Calm s s := ⟨rfl, rfl, rfl, fun _ _ => rfl, id, fun _ => .refl _⟩

variable {s t u : State}

theorem running (h : Calm s t) : t.running = s.running := by unfold State.running; rw [h.cs]

theorem trans (h : Calm s t) (g : Calm t u) : Calm s u :=
  ⟨g.otu.trans h.otu, g.cs.trans h.cs, g.record.trans h.record,
   fun run ch => (g.keepings (h.running.trans run) ch).trans (h.keepings run ch), g.leases ∘ h.leases,
   fun p => (h.ports p).trans (g.ports p)⟩

theorem setPort (s : State) {p : Port} {r : PortRec} (fine : PortFine (s.port p) r) : Calm s (s.setPort p r) := by
  refine ⟨rfl, rfl, rfl, fun _ ch => by cases ch <;> rfl, .congr rfl rfl rfl, fun q => ?_⟩
  rw [State.port_setPort]
  split
  · next e => exact e ▸ fine
  · exact .refl _

end Calm

/-- What an event's end leaves of a port for the answer that follows. -/
def SameCauses (s t : State) : Prop := ∀ p, (t.port p).changed = (s.port p).changed ∧ (t.port p).causes = (s.port p).causes

theorem SameCauses.refl (s : State) : SameCauses s s := fun _ => ⟨rfl, rfl⟩

theorem SameCauses.trans {s t u : State} (h : SameCauses s t) (g : SameCauses t u) : SameCauses s u :=
  fun p => ⟨(g p).1.trans (h p).1, (g p).2.trans (h p).2⟩

theorem SameCauses.setPort (s : State) {p : Port} {r : PortRec} (changed : r.changed = (s.port p).changed := by rfl)
    (causes : r.causes = (s.port p).causes := by rfl) : SameCauses s (s.setPort p r) := by
  intro q
  rw [State.port_setPort]
  split
  · next e => exact e ▸ ⟨changed, causes⟩
  · exact ⟨rfl, rfl⟩

/-- What a command other than power-on reset does: it is calm, or it is an event whose moves are settled. -/
inductive Acts (s t : State) : Prop where
  | calm (h : Calm s t)
  | settled {a u : State} (old : Sq) (before : Calm s a) (moves : Moves a u) (record : old.record = a.sq.record)
      (after : Calm (u.settle old) t) (same : SameCauses (u.settle old) t)

namespace Acts

variable {s t u : State}

theorem refl (s : State) : Acts s s := .calm (.refl s)

/-- The effect of an event and what follows from it. -/
theorem settle {a : State} (before : Calm s a) {old : Sq} (record : old.record = a.sq.record) (moves : Moves a u) :
    Acts s (u.settle old) :=
  .settled old before moves record (.refl _) (.refl _)

theorem prepend (h : Calm s t) (g : Acts t u) : Acts s u := by
  cases g with
  | calm g => exact .calm (h.trans g)
  | settled old before moves record after same => exact .settled old (h.trans before) moves record after same

theorem append (h : Acts s t) (g : Calm t u) (same : SameCauses t u) : Acts s u := by
  cases h with
  | calm h => exact .calm (h.trans g)
  | settled old before moves record after same' =>
    exact .settled old before moves record (after.trans g) (same'.trans same)

/-! Events. -/

theorem event {f : State → State} (moves : Moves s (f s)) (c : Bool) : Acts s (s.event c f) := by
  cases c with
  | false => rw [State.event_neg rfl]; exact refl s
  | true => rw [State.event_pos rfl]; exact settle (.refl s) rfl moves

theorem turned_record (s : State) : s.turned.sq.record = s.sq.record := by
  have kept := s.turned_settled
  unfold Sq.record
  rw [kept.engaged, kept.range, kept.step]
  rfl

theorem expire {f : State → State} (moves : ∀ u, Moves u (f u)) (due : State → Bool) : Acts s (s.expire due f) := by
  unfold State.expire
  dsimp only
  rcases s.reach_cases due with stays | ⟨-, -, comes, turns⟩
  · rw [stays]
    exact event (moves s) _
  · rw [turns, State.event_pos comes]
    exact settle (.refl s) (turned_record s) ((Touches.refl s).turned.moves.trans (moves _))

/-! Requests. -/

theorem beginning (s : State) (p : Port) : Calm s (s.setPort p { (s.port p).begin with txn := none }) := by
  refine .setPort s ?_
  unfold PortRec.begin PortRec.fall
  repeat' split
  all_goals exact .of_eq

theorem request {p : Port} {code tag : Byte} {run : State → State × Option Answer}
    (acts : ∀ u, Acts u (run u).1) : Acts s (s.request p code tag run) := by
  unfold State.request
  dsimp only
  split
  · exact .calm (beginning s p)
  · refine .calm (.setPort s ?_)
    unfold PortRec.begin PortRec.fall
    repeat' split
    all_goals exact .of_eq
  · have run := (acts (s.setPort p { (s.port p).begin with txn := none })).prepend (beginning s p)
    split
    · exact run.append (.setPort _ .of_eq) (.setPort _)
    · exact run

theorem query {p : Port} {code tag : Byte} {answer : State → Answer} : Acts s (s.query p code tag answer) :=
  request fun u => refl u

theorem cabRequest {p : Port} {code tag : Byte} {run : State → State × Answer} (acts : ∀ u, Acts u (run u).1) :
    Acts s (s.cabRequest p code tag run) := by
  refine request fun u => ?_
  cases p with
  | cab => exact acts u
  | implement => exact refl u

/-! Requests on orders. -/

theorem placeCheck_ok {s : State} {p : Port} {ch : Channel} {cls terms : Nat} {lease : Word} {v : Values} {k : Nat}
    (ok : s.placeCheck p ch cls terms lease v = .ok k) : s.running = true ∧ s.freeSlot = some k := by
  unfold State.placeCheck at ok
  repeat' split at ok
  all_goals cases ok
  next running _ _ _ _ free => exact ⟨by simpa using running, free⟩

theorem runPlace (u : State) (p : Port) (tag channel cls terms : Byte) (lease : Word) (v : Values) :
    Acts u (u.runPlace p tag channel cls terms lease v).1 := by
  unfold State.runPlace
  repeat' split
  all_goals try exact refl u
  next k ok =>
    obtain ⟨running, free⟩ := placeCheck_ok ok
    exact settle (.refl u) rfl ((Moves.refl u).placeAt free running rfl (fun h => by cases h))

theorem lookup_order {s : State} {h : Handle} {o : Order} (found : s.lookup h = some o) :
    s.incarnation h.slot.toNat = h.inc ∧ s.order h.slot.toNat = some o := by
  unfold State.lookup at found
  split at found
  · next inc => exact ⟨inc, found⟩
  · cases found

theorem runAmend (u : State) (p : Port) (tag slot inc first : Byte) (front : Bool) (count : BitVec 7) (gen : Word)
    (v : Values) : Acts u (u.runAmend p tag slot inc first front count gen v).1 := by
  unfold State.runAmend
  dsimp only
  split
  · exact refl u
  · next o found =>
    split
    · exact refl u
    · next o' ok => exact settle (.refl u) rfl ((Moves.refl u).amendAt front (lookup_order found).2 ok)

theorem runRetire (u : State) (p : Port) (tag slot inc : Byte) (gen : Word) :
    Acts u (u.runRetire p tag slot inc gen).1 := by
  unfold State.runRetire
  dsimp only
  split
  · exact refl u
  · next o found =>
    split
    · exact refl u
    · next owner =>
      split
      · exact refl u
      · exact settle (.refl u) rfl
          ((Moves.refl u).retire (lookup_order found).2 (not_not.mp owner ▸ ownerOf_ne_internal p))

end Acts

end Sys2Proof.Machine
end

section
/-! SUPPORT. The lease list through every move of the order table (R29, R30). -/

namespace Sys2Proof.Machine

theorem insertLease_perm (now : Time) (e : Lease) (l : List Lease) : (insertLease now e l).Perm (e :: l) := by
  induction l with
  | nil => exact .refl _
  | cons x l ih =>
    unfold insertLease
    split
    · exact .refl _
    · exact (ih.cons x).trans (.swap e x l)

theorem mem_removeLease {k : Nat} {l : List Lease} {e : Lease} : e ∈ removeLease k l ↔ e ∈ l ∧ e.slot ≠ k := by
  simp [removeLease]

theorem removeLease_of_forall_ne {k : Nat} {l : List Lease} (h : ∀ e ∈ l, e.slot ≠ k) : removeLease k l = l := by
  simpa [removeLease] using h

theorem nodup_removeLease {k : Nat} {l : List Lease} (h : (l.map Lease.slot).Nodup) :
    ((removeLease k l).map Lease.slot).Nodup := h.sublist (List.filter_sublist.map _)

/-- What the lease list looks at in an order. -/
def Order.leaseEntry (o : Order) : Owner × Word × Bool := (o.owner, o.lease, o.state = .lapsed)

theorem Order.SameEntry.leaseEntry {o o' : Order} (h : o.SameEntry o') : o'.leaseEntry = o.leaseEntry := by
  unfold Order.leaseEntry
  rw [h.owner, h.lease, decide_eq_decide.mpr h.lapsed]

namespace State.LeaseForm

variable {s t : State}

/-- The lease list depends on the owners, leases and lapses of the orders, the leases and the device state alone. -/
theorem of_entries (h : s.LeaseForm) (size : t.otu.slots.length = s.otu.slots.length)
    (entries : ∀ k, (t.order k).map Order.leaseEntry = (s.order k).map Order.leaseEntry)
    (leases : t.lcu.leases = s.lcu.leases) (running : t.running = s.running) : t.LeaseForm := by
  have back : ∀ {k o}, t.order k = some o → ∃ o', s.order k = some o' ∧ o'.leaseEntry = o.leaseEntry := by
    intro k o live
    have e := entries k
    rw [live, Option.map_some] at e
    exact Option.map_eq_some_iff.mp e.symm
  have field : ∀ {o o' : Order}, o'.leaseEntry = o.leaseEntry →
      o'.owner = o.owner ∧ o'.lease = o.lease ∧ (o'.state = .lapsed ↔ o.state = .lapsed) := by
    intro o o' e
    simpa [Order.leaseEntry] using e
  constructor
  · rw [size, h.size]
  · intro e mem
    rw [leases] at mem
    obtain ⟨o, live, leased, alive⟩ := h.backed e mem
    have e' := entries e.slot
    rw [live, Option.map_some] at e'
    obtain ⟨o', live', same⟩ := Option.map_eq_some_iff.mp e'
    obtain ⟨-, lease, lapsed⟩ := field same
    exact ⟨o', live', lease ▸ leased, fun h => alive (lapsed.mp h)⟩
  · rw [leases]
    exact h.once
  · intro k o live leased alive
    obtain ⟨o', live', same⟩ := back live
    obtain ⟨-, lease, lapsed⟩ := field same
    rw [leases]
    exact h.entered k o' live' (lease ▸ leased) fun h => alive (lapsed.mp h)
  · intro k o live internal
    obtain ⟨o', live', same⟩ := back live
    obtain ⟨owner, lease, -⟩ := field same
    exact lease ▸ h.unleased k o' live' (owner.trans internal)
  · intro stopped k o live
    obtain ⟨o', live', same⟩ := back live
    obtain ⟨owner, -, -⟩ := field same
    exact owner ▸ h.config (running ▸ stopped) k o' live'

/-- A change of one slot and of its entry of the lease list. -/
theorem of_slot (h : s.LeaseForm) (size : t.otu.slots.length = s.otu.slots.length) (k : Nat)
    (others : ∀ j, j ≠ k → t.order j = s.order j) (unleased : ∀ o, t.order k = some o → o.owner = .internal → o.lease = 0)
    (config : t.running = false → s.running = false ∧ ∀ o, t.order k = some o → o.owner = .internal)
    (leases : (∃ o now d, t.order k = some o ∧ o.lease ≠ 0 ∧ o.state ≠ .lapsed ∧
        t.lcu.leases = insertLease now ⟨k, d⟩ (removeLease k s.lcu.leases)) ∨
      (∀ o, t.order k = some o → o.lease = 0 ∨ o.state = .lapsed) ∧ t.lcu.leases = removeLease k s.lcu.leases) :
    t.LeaseForm := by
  have kept : ∀ e ∈ removeLease k s.lcu.leases, ∃ o, t.order e.slot = some o ∧ o.lease ≠ 0 ∧ o.state ≠ .lapsed := by
    intro e mem
    obtain ⟨mem, ne⟩ := mem_removeLease.mp mem
    rw [others _ ne]
    exact h.backed e mem
  have rest : ∀ j o, j ≠ k → t.order j = some o → o.lease ≠ 0 → o.state ≠ .lapsed →
      j ∈ (removeLease k s.lcu.leases).map Lease.slot := by
    intro j o ne live leased alive
    obtain ⟨e, mem, rfl⟩ := List.mem_map.mp (h.entered j o (others j ne ▸ live) leased alive)
    exact List.mem_map.mpr ⟨e, mem_removeLease.mpr ⟨mem, ne⟩, rfl⟩
  have absent : k ∉ (removeLease k s.lcu.leases).map Lease.slot := by
    intro mem
    obtain ⟨e, mem, slot⟩ := List.mem_map.mp mem
    exact (mem_removeLease.mp mem).2 slot
  refine ⟨size.trans h.size, ?_, ?_, ?_, ?_, ?_⟩
  · intro e mem
    rcases leases with ⟨o, now, d, live, leased, alive, list⟩ | ⟨-, list⟩
    · rw [list, (insertLease_perm _ _ _).mem_iff] at mem
      rcases List.mem_cons.mp mem with rfl | mem
      · exact ⟨o, live, leased, alive⟩
      · exact kept e mem
    · exact kept e (list ▸ mem)
  · rcases leases with ⟨o, now, d, live, leased, alive, list⟩ | ⟨-, list⟩
    · rw [list, ((insertLease_perm _ _ _).map _).nodup_iff]
      exact List.nodup_cons.mpr ⟨absent, nodup_removeLease h.once⟩
    · rw [list]
      exact nodup_removeLease h.once
  · intro j o live leased alive
    by_cases hj : j = k
    · subst hj
      rcases leases with ⟨o, now, d, -, -, -, list⟩ | ⟨none, -⟩
      · rw [list, ((insertLease_perm _ _ _).map _).mem_iff]
        exact List.mem_cons_self
      · rcases none o live with free | lapsed
        · exact absurd free leased
        · exact absurd lapsed alive
    · have mem := rest j o hj live leased alive
      rcases leases with ⟨_, _, _, -, -, -, list⟩ | ⟨-, list⟩
      · rw [list, ((insertLease_perm _ _ _).map _).mem_iff]
        exact List.mem_cons_of_mem _ mem
      · rw [list]
        exact mem
  · intro j o live internal
    by_cases hj : j = k
    · exact unleased o (hj ▸ live) internal
    · exact h.unleased j o (others j hj ▸ live) internal
  · intro stopped j o live
    obtain ⟨was, internal⟩ := config stopped
    by_cases hj : j = k
    · exact internal o (hj ▸ live)
    · exact h.config was j o (others j hj ▸ live)

theorem touch (m : Touch s t) (h : s.LeaseForm) : t.LeaseForm := by
  cases m with
  | frame otu leases cs rp => exact .congr otu leases cs h
  | cause p c =>
    have same := (CausesOnly.refl s).setCause p c
    exact .congr same.otu (by rw [same.lcu]) same.cs h
  | @enter p k _ live =>
    have same := (CausesOnly.refl s).enterSet p k
    exact .congr same.otu (by rw [same.lcu]) same.cs h
  | write live same =>
    refine h.of_entries (State.length_setOrder ..) (fun j => ?_) rfl rfl
    rw [State.order_setOrder_live live]
    split
    · next e => rw [e, live, Option.map_some, Option.map_some, same.leaseEntry]
    · rfl

theorem touches (m : Touches s t) (h : s.LeaseForm) : t.LeaseForm := m.keep (fun _ _ m h => h.touch m) h

/-- The lease of an order that a port may renew or amend starts anew. -/
theorem lease (h : s.LeaseForm) {k : Nat} {o o' : Order} (live : s.order k = some o) (external : o.owner ≠ .internal)
    (alive : o.state ≠ .lapsed) (owner : o'.owner = o.owner) (state : o'.state = o.state) :
    ((s.setOrder k o').restartLease k o'.lease).LeaseForm := by
  have order : ∀ j, ((s.setOrder k o').restartLease k o'.lease).order j = if j = k then some o' else s.order j :=
    State.order_setOrder_live live o'
  have here : ∀ o'', ((s.setOrder k o').restartLease k o'.lease).order k = some o'' → o'' = o' := by
    intro o'' live
    rw [order, if_pos rfl, Option.some.injEq] at live
    exact live.symm
  refine h.of_slot (State.length_setOrder ..) k (fun j ne => by rw [order, if_neg ne]) ?_ ?_ ?_
  · intro o'' live internal
    rw [here _ live, owner] at internal
    exact absurd internal external
  · intro stopped
    exact absurd (h.config stopped k o live) external
  · by_cases leased : o'.lease = 0
    · exact .inr ⟨fun o'' live => .inl (here _ live ▸ leased), by simp [State.restartLease, leased]⟩
    · refine .inl ⟨o', s.now, s.now + o'.lease.setWidth 32, by rw [order, if_pos rfl], leased, state ▸ alive, ?_⟩
      simp only [State.restartLease, leased, if_false]
      rfl

/-- The lease of a live order starts anew with its own interval (R22). -/
theorem renew (h : s.LeaseForm) {k : Nat} {o : Order} (live : s.order k = some o) (external : o.owner ≠ .internal)
    (alive : o.state ≠ .lapsed) : (s.restartLease k o.lease).LeaseForm := by
  refine (h.lease live external alive rfl rfl).of_entries (State.length_setOrder s k o).symm (fun j => ?_) rfl rfl
  refine congrArg _ ?_
  have e : ((s.setOrder k o).restartLease k o.lease).order j = if j = k then some o else s.order j :=
    State.order_setOrder_live live o j
  rw [e]
  split
  · next hj => rw [hj]; exact live
  · rfl

end State.LeaseForm

/-- The lowest FREE slot of the pool (R19). -/
theorem State.freeSlot_eq_some {s : State} {k : Nat} (h : s.freeSlot = some k) :
    8 ≤ k ∧ k < 48 ∧ s.order k = none ∧ ∀ j, 8 ≤ j → j < k → s.order j ≠ none := by
  have pool : (List.range 40).map (· + 8) = List.range' 8 40 := by decide
  unfold State.freeSlot at h
  rw [pool, List.find?_range'_eq_some] at h
  obtain ⟨free, mem, lower⟩ := h
  rw [List.mem_range'_1] at mem
  exact ⟨mem.1, mem.2, by simpa using free, fun j low high => by simpa [Option.isSome_iff_ne_none] using lower j low high⟩

/-! Placements. -/

theorem State.order_entered {s : State} {k : Nat} (lt : k < s.otu.slots.length) (p : Port) (o : Order) (j : Nat) :
    (s.entered p k o).order j = if j = k then some o else s.order j := by
  have written := State.order_setOrder s k j o
  simp only [lt, and_true] at written
  unfold State.entered
  dsimp only
  split <;> exact written

theorem State.length_entered (s : State) (p : Port) (k : Nat) (o : Order) :
    (s.entered p k o).otu.slots.length = s.otu.slots.length := by
  have written := State.length_setOrder s k o
  unfold State.entered
  dsimp only
  split <;> exact written

namespace State.LeaseForm

variable {s t : State}

theorem placing (h : s.LeaseForm) {p : Port} {k : Nat} {o : Order} (free : s.freeSlot = some k)
    (running : s.running = true) (owner : o.owner = ownerOf p) (alive : o.state ≠ .lapsed) :
    (s.entered p k o).LeaseForm := by
  obtain ⟨-, lt, free, -⟩ := State.freeSlot_eq_some free
  have order := State.order_entered (h.size.symm ▸ lt) p o
  have here : ∀ o', (s.entered p k o).order k = some o' → o' = o := by
    intro o' live
    rw [order, if_pos rfl, Option.some.injEq] at live
    exact live.symm
  refine h.of_slot (State.length_entered ..) k (fun j ne => by rw [order, if_neg ne]) ?_ ?_ ?_
  · intro o' live internal
    rw [here _ live, owner] at internal
    exact absurd internal (ownerOf_ne_internal p)
  · have run : (s.entered p k o).running = true := by
      unfold State.entered
      dsimp only
      split <;> exact running
    exact fun stopped => absurd (stopped.symm.trans run) Bool.false_ne_true
  · by_cases leased : o.lease = 0
    · refine .inr ⟨fun o' live => .inl (here _ live ▸ leased), ?_⟩
      rw [removeLease_of_forall_ne]
      · simp only [State.entered, leased, if_true]
        rfl
      · intro e mem slot
        obtain ⟨o', live, -⟩ := h.backed e mem
        rw [slot, free] at live
        cases live
    · refine .inl ⟨o, s.now, s.now + o.lease.setWidth 32, by rw [order, if_pos rfl], leased, alive, ?_⟩
      simp only [State.entered, leased, if_false, State.restartLease]
      rfl

theorem freed (h : s.LeaseForm) {k : Nat} {o : Order} (live : s.order k = some o) : (s.freeOrder k o).LeaseForm := by
  have order := State.order_freeOrder live
  have here : ∀ o', (s.freeOrder k o).order k ≠ some o' := by
    intro o' live
    rw [order, if_pos rfl] at live
    cases live
  have frame := (ClaimOnly.refl s).freeOrder k o
  refine h.of_slot frame.size k (fun j ne => by rw [order, if_neg ne]) (fun o' live => absurd live (here o'))
    (fun stopped => ⟨?_, fun o' live => absurd live (here o')⟩) (.inr ⟨fun o' live => absurd live (here o'), ?_⟩)
  · unfold State.running at stopped ⊢
    exact frame.cs ▸ stopped
  · unfold State.freeOrder
    dsimp only
    split <;> rfl

theorem move (m : Move s t) (h : s.LeaseForm) : t.LeaseForm := by
  cases m with
  | touch m => exact h.touch m
  | place free running owner alive => exact h.placing free running owner alive
  | lease live external alive channel owner state => exact h.lease live external alive owner state
  | front live => exact h.of_entries rfl (fun _ => rfl) rfl rfl
  | free live external => exact h.freed live
  | @lapse k o o' live channel owner lease lapsed =>
    have order : ∀ j, ((s.lcuForget k).setOrder k o').order j = if j = k then some o' else s.order j :=
      State.order_setOrder_live (s := s.lcuForget k) live o'
    have here : ∀ o'', ((s.lcuForget k).setOrder k o').order k = some o'' → o'' = o' := by
      intro o'' live
      rw [order, if_pos rfl, Option.some.injEq] at live
      exact live.symm
    refine h.of_slot (State.length_setOrder ..) k (fun j ne => by rw [order, if_neg ne]) ?_ ?_
      (.inr ⟨fun o'' live => .inr (here _ live ▸ lapsed), rfl⟩)
    · intro o'' live' internal
      rw [here _ live'] at internal ⊢
      exact lease.trans (h.unleased k o live (owner ▸ internal))
    · intro stopped
      refine ⟨stopped, fun o'' live' => ?_⟩
      rw [here _ live', owner]
      exact h.config stopped k o live
  | @forget k free =>
    refine .congr (s := s) rfl (removeLease_of_forall_ne fun e mem slot => ?_) rfl h
    obtain ⟨o, live, -⟩ := h.backed e mem
    rw [slot, free] at live
    cases live
  | device d internal =>
    refine ⟨h.size, h.backed, h.once, h.entered, h.unleased, fun stopped k o live => ?_⟩
    refine internal ?_ h.size k o live
    cases d
    · rfl
    · cases stopped
  | items ok short => exact ⟨h.size, h.backed, h.once, h.entered, h.unleased, h.config⟩

theorem moves (m : Moves s t) (h : s.LeaseForm) : t.LeaseForm := m.keep (fun _ _ m h => h.move m) h

end State.LeaseForm

end Sys2Proof.Machine
end

section
/-! SUPPORT. Every command other than power-on reset is calm, or an event whose moves are settled. -/

namespace Sys2Proof.Machine

namespace Calm

/-- A lease that restarts. -/
theorem renew (s : State) {k : Nat} {o : Order} (live : s.order k = some o) (external : o.owner ≠ .internal)
    (alive : o.state ≠ .lapsed) : Calm s (s.restartLease k o.lease) :=
  ⟨rfl, rfl, rfl, fun _ ch => by cases ch <;> rfl, fun h => h.renew live external alive, fun _ => .refl _⟩

/-- A report mask. -/
theorem setMask (s : State) (p : Port) (m : BitVec 15) :
    Calm s { s with fu := { s.fu with mask := s.fu.mask.set p m } } :=
  ⟨rfl, rfl, rfl, fun _ ch => by cases ch <;> rfl, .congr rfl rfl rfl, fun _ => .refl _⟩

end Calm

/-- A port reset clears the set and the causes, and deasserts the line. -/
theorem PortFine.cleared (r : PortRec) (now : Time) (n : Nat) : PortFine r (r.cleared now n) := by
  have off : (r.cleared now n).asserted = false := by
    unfold PortRec.cleared PortRec.deassert
    cases h : r.asserted <;> simp [h]
  refine ⟨fun _ => trivial, fun _ => ⟨fun on => ?_, fun unmasked => absurd (BitVec.zero_and (x := ~~~0)) unmasked⟩, fun _ => rfl⟩
  rw [off] at on
  cases on

/-- The gear record looks at the clutch states alone. -/
theorem Sq.record_congr {q q' : Sq} (h : ∀ c, q'.state c = q.state c) : q'.record = q.record := by
  have locked : ∀ c, q'.locked c = q.locked c := fun c => by unfold Sq.locked; rw [h]
  unfold Sq.record Sq.engaged Sq.range Sq.step
  simp only [locked]

theorem ascending_drop (n : Nat) (l : List Nat) (h : ascending l) : ascending (l.drop n) := by
  induction l generalizing n with
  | nil => rw [List.drop_nil]; exact h
  | cons x l ih =>
    cases n with
    | zero => exact h
    | succ n => exact ih n h.2

/-- Written offsets leave the states of the clutches. -/
theorem state_writeOffsets (t : ByClutch ClutchRec) (l : List (Clutch × Word)) (c : Clutch) :
    ((writeOffsets t l).get c).state = (t.get c).state := by
  induction l generalizing t with
  | nil => rfl
  | cons x l ih =>
    obtain ⟨d, w⟩ := x
    refine (ih _).trans ?_
    rw [ByClutch.get_set]
    split
    · next e => rw [e]
    · rfl

namespace Acts

variable {s t u : State}

theorem runRenew (u : State) (p : Port) (tag slot inc : Byte) : Acts u (u.runRenew p tag slot inc).1 := by
  unfold State.runRenew
  dsimp only
  split
  · exact refl u
  · next o found =>
    split
    · exact refl u
    · next owner =>
      split
      · exact refl u
      · next alive =>
        dsimp only
        split
        · exact refl u
        · exact .calm (.renew u (lookup_order found).2 (not_not.mp owner ▸ ownerOf_ne_internal p) alive)

/-! Requests on ports. -/

theorem runCollect (u : State) (p : Port) (tag : Byte) : Acts u (u.runCollect p tag).1 :=
  .calm (.setPort u ⟨ascending_drop 8 _, id, fun e => by rw [e]; rfl⟩)

/-- A change of causes or mask that the attention line follows. -/
theorem attended (u : State) (p : Port) (r : PortRec) (changed : r.changed = (u.port p).changed) :
    Calm u ((u.setPort p r).attend p) := by
  unfold State.attend
  rw [State.port_setPort_self, State.setPort_setPort]
  exact .setPort u (.attend changed _ _)

theorem runCauses (u : State) (p : Port) (tag : Byte) : Acts u (u.runCauses p tag).1 := .calm (attended u p _ rfl)

theorem runMask (u : State) (p : Port) (code tag mask : Byte) (f : {n : Nat} → BitVec n → BitVec n → BitVec n)
    (value : Word) : Acts u (u.runMask p code tag mask f value).1 := by
  unfold State.runMask
  split
  · exact .calm (attended u p _ rfl)
  · exact .calm (.setMask u p _)
  · exact refl u

theorem resetPort (u : State) (p : Port) : Acts u (u.resetPort p) := by
  have cleared : Calm u (u.setPort p ((u.port p).cleared u.now (throttleMs u.items p))) := .setPort u (.cleared _ _ _)
  have freed := (Moves.refl { u.setPort p ((u.port p).cleared u.now (throttleMs u.items p)) with
    fu := { u.fu with mask := u.fu.mask.set p 0 } }).freeAndResolve (who := fun o => o = ownerOf p)
      (by cases p <;> decide)
  exact append (settle (old := u.sq) (cleared.trans (.setMask _ p 0)) rfl freed) (.setPort _ (.attend rfl _ _))
    (.setPort _ (PortRec.attend_changed _ _ _) (PortRec.attend_causes _ _ _))

theorem badFrame (u : State) (p : Port) (n : Nat) :
    Acts u (u.setPort p { u.port p with badFrames := n }) := .calm (.setPort u .of_eq)

/-! Requests on faults, configuration and adaptation. -/

theorem runClear (u : State) (tag kind : Byte) : Acts u (u.runClear tag kind).1 := by
  unfold State.runClear
  split
  · exact refl u
  · next k _ =>
    split
    · exact refl u
    · split
      · exact refl u
      · dsimp only
        exact settle (.refl u) rfl ((Touches.refl u).unlatch k).moves

theorem itemWritten (h : Touches s t) (item first n : Nat) : Touches s (t.itemWritten item first n) := by
  unfold State.itemWritten
  split
  · exact Touches.foldl _ (fun v ch hv => .ite hv.frame hv) _ _ h
  · exact h.hotTests
  · exact h.followLaw
  · exact (h.job (JobOnly.refl t).followHold).fuConditions
  · exact h

theorem runConfigWrite (u : State) (tag item first count : Byte) (v : Values) :
    Acts u (u.runConfigWrite tag item first count v).1 := by
  unfold State.runConfigWrite
  dsimp only
  split
  · exact refl u
  · next items ok =>
    exact settle (.refl u) rfl (((Moves.refl u).move (.items ok (List.length_take_le _ _))).touches (itemWritten (.refl _) _ _ _))

theorem runAdaptRead (u : State) (tag first count : Byte) : Acts u (u.runAdaptRead tag first count).1 := by
  unfold State.runAdaptRead
  split <;> exact refl u

theorem runAdaptWrite (u : State) (tag first count : Byte) (v : Values) :
    Acts u (u.runAdaptWrite tag first count v).1 := by
  unfold State.runAdaptWrite
  dsimp only
  split
  · exact refl u
  · next stopped =>
    split
    · exact refl u
    · split
      · exact refl u
      · exact .calm ⟨rfl, rfl, Sq.record_congr (state_writeOffsets _ _), fun run => absurd run stopped,
          .congr rfl rfl rfl, fun _ => .refl _⟩

theorem tbuTake (h : Touches s t) : Touches s t.tbuTake := h.frame

theorem runStart (u : State) (tag : Byte) : Acts u (u.runStart tag).1 := by
  unfold State.runStart
  split
  · exact refl u
  · split
    · exact refl u
    · have entered := (Moves.refl u).move (Move.device .run fun e => by cases e)
      have units := (tbuTake ((Touches.refl { u with cs := { u.cs with device := .run } }).job
        (JobOnly.refl _).sqStart.acuTake.hrStart)).enableLost
      dsimp only
      exact settle (.refl u) rfl (entered.touches units)

theorem runStop (u : State) (tag : Byte) : Acts u (u.runStop tag).1 := by
  unfold State.runStop
  split
  · exact settle (.refl u) rfl
      (((Moves.stopFrees u).touches ((Touches.refl _).resolveAll _)).stopKeepings.stopUnits)
  · exact refl u

/-! Events. -/

theorem stepExpire {step : State → Option GearStep} {f : State → GearStep → State} (moves : ∀ u st, Touches u (f u st))
    (done : s.stepExpire step f = .next t) : Acts s t := by
  cases done
  refine expire (fun u => ?_) _
  split
  · exact (moves u _).moves
  · exact .refl u

theorem looseExpire {due : State → Dir → Bool} {f : State → Dir → State} (moves : ∀ u d, Touches u (f u d))
    (done : s.looseExpire due f = .next t) : Acts s t := by
  cases done
  refine expire (fun u => ?_) _
  split
  · exact (moves u _).moves
  · exact .refl u

theorem enableFalls (u : State) : Touches u u.enableFalls := by
  unfold State.enableFalls
  dsimp only
  refine .ite ?_ (Touches.refl u).frame
  have guarded : Touches u ({ u with inputs := { u.inputs with enable := false } } : State).osGuard :=
    (Touches.refl u).frame
  exact (guarded.job (JobOnly.refl _).acuEnableFall.hrRefresh.halt).detect _ _

theorem enableRises (u : State) : Touches u u.enableRises := by
  unfold State.enableRises
  dsimp only
  have raised : Touches u { u with inputs := { u.inputs with enable := true } } := (Touches.refl u).frame
  exact (Touches.ite (raised.job (JobOnly.refl _).acuFollow.hrRefresh.replan) raised).fuConditions

theorem publication (u : State) (raw : ByConv (BitVec 12)) (old : Band) (was lowering : Bool) :
    Touches u (((((u.pubTime.muPublish raw).lcuPublish).sqPublish old).acuPublish was).hrPublish lowering) := by
  have timed : Touches u u.pubTime := .ite (.tick (.refl u)) (.refl u)
  have measured : Touches u (u.pubTime.muPublish raw) := timed.frame
  exact (measured.lcuPublish.sqPublish old).job ((JobOnly.refl _).acuPublish _ |>.hrPublish _)

theorem throttled (p : Port) (done : execThrottleTimerExpiry p s = .next t) : Acts s t := by
  cases done
  have reached : Acts s (s.reach fun s => s.throttleDue p) := by
    rcases s.reach_cases fun s => s.throttleDue p with stays | ⟨-, -, -, turns⟩
    · rw [stays]; exact refl s
    · rw [turns]; exact settle (.refl s) rfl (Touches.refl s).tick.moves
  generalize (s.reach fun s => s.throttleDue p) = u at reached
  split
  · refine reached.append (attended u p _ rfl) ?_
    unfold State.attend State.onPort
    rw [State.port_setPort_self, State.setPort_setPort]
    exact .setPort _ (PortRec.attend_changed _ _ _) (PortRec.attend_causes _ _ _)
  · exact reached

theorem onPort {p : Port} {f : PortRec → PortRec} (fine : ∀ r, PortFine r (f r)) : Acts s (s.onPort p f) :=
  .calm (.setPort s (fine _))

end Acts

theorem PortFine.begin (r : PortRec) : PortFine r r.begin := by
  unfold PortRec.begin PortRec.fall
  repeat' split
  all_goals exact .of_eq

end Sys2Proof.Machine
end

section
/-! SUPPORT. The table of commands: what each of them does to the state. -/

namespace Sys2Proof.Machine

namespace Acts

variable {s t u : State}

/-- A command with one next state. -/
theorem of_next (h : Acts s u) (done : (Host.Outcome.next u : Host.Outcome State Fault Refusal) = .next t) :
    Acts s t := by
  cases done
  exact h

end Acts

open Acts in
/-- What every command does (chapter 13 and the opcode table): power-on reset, or an act. -/
theorem exec_acts {c : Instr} {s t : State} (h : exec c s = .next t) :
    Acts s t ∨ c = .powerOnReset ∧ t = s.poweredOn := by
  cases c with
  | powerOnReset =>
    cases h
    exact .inr ⟨rfl, rfl⟩
  | nop | read | find | list | status | faultRead | configRead | badRequest => exact .inl (of_next query h)
  | place => exact .inl (of_next (request fun u => runPlace u ..) h)
  | amend => exact .inl (of_next (request fun u => runAmend u ..) h)
  | renew => exact .inl (of_next (request fun u => runRenew u ..) h)
  | retire => exact .inl (of_next (request fun u => runRetire u ..) h)
  | collect p tag => exact .inl (of_next (request fun u => runCollect u p tag) h)
  | causes p tag => exact .inl (of_next (request fun u => runCauses u p tag) h)
  | maskSet | maskClear => exact .inl (of_next (request fun u => runMask u ..) h)
  | portReset => exact .inl (of_next (request fun u => resetPort u _) h)
  | badFrame => exact .inl (of_next (request fun u => badFrame u _ _) h)
  | clearFault => exact .inl (of_next (cabRequest fun u => runClear u ..) h)
  | configWrite => exact .inl (of_next (cabRequest fun u => runConfigWrite u ..) h)
  | adaptRead => exact .inl (of_next (cabRequest fun u => runAdaptRead u ..) h)
  | adaptWrite => exact .inl (of_next (cabRequest fun u => runAdaptWrite u ..) h)
  | start => exact .inl (of_next (cabRequest fun u => runStart u _) h)
  | stop => exact .inl (of_next (cabRequest fun u => runStop u _) h)
  | busy p tag code =>
    refine .inl (of_next (onPort fun r => ?_) h)
    split
    · exact (PortFine.begin r).trans .of_eq
    · exact .refl r
  | transactionBegin => exact .inl (of_next (onPort PortFine.begin) h)
  | answerWritten =>
    refine .inl (of_next (onPort fun r => ?_) h)
    unfold PortRec.answer
    repeat' split
    all_goals exact .of_eq
  | heldResetDiscard =>
    refine .inl (of_next (onPort fun r => ?_) h)
    split
    · exact (PortFine.begin r).trans .of_eq
    · exact .refl r
  | portResetInput p level =>
    change execPortResetInput p level s = .next t at h
    unfold execPortResetInput at h
    split at h
    · exact .inl (of_next (onPort fun _ => .of_eq) h)
    · split at h
      · exact .inl (of_next (refl s) h)
      · exact .inl (of_next (prepend (.setPort s .of_eq) (resetPort _ p)) h)
  | enableFall => cases h; exact .inl (event (enableFalls s).moves _)
  | enableRise => cases h; exact .inl (event (enableRises s).moves _)
  | periodBoundary mean =>
    cases h
    exact .inl (event ((Touches.refl s).endPeriod mean).loadSetpoints.osGuard.turnDither.moves _)
  | trailerPresentChange | breakawayInputChange | selectedEdge =>
    cases h
    refine .inl (event (Touches.moves ?_) _)
    exact .frame (.refl s)
  | muPublication raw =>
    refine .inl (of_next (event ?_ true) h)
    exact (publication s raw s.pub.band s.pub.slip.isSome (s.hr.motion = .lower)).moves
  | coolingStep =>
    cases h
    exact .inl (event (((Touches.refl s).job (JobOnly.refl s).cool).hotTests.job (JobOnly.refl _).tryStart).moves _)
  | shortCircuitTrip =>
    cases h
    refine .inl (event (Touches.moves (.detect ?_ _ _)) _)
    exact .frame (.refl s)
  | conditionReport slot =>
    change execConditionReport slot s = .next t at h
    unfold execConditionReport at h
    split at h
    · cases h
      refine .inl (event (Touches.moves (.takeCondition ?_ _ _)) _)
      exact .frame (.refl s)
    · exact .inl (of_next (refl s) h)
  | faultConditionReport which =>
    change execFaultConditionReport which s = .next t at h
    unfold execFaultConditionReport at h
    split at h
    · cases h
      refine .inl (event (Touches.moves (.takeCondition ?_ _ _)) _)
      exact .frame (.refl s)
    · exact .inl (of_next (refl s) h)
  | debounceTimerExpiry =>
    cases h
    refine .inl (expire (fun u => Touches.moves (.setCauseBoth ?_ _)) _)
    exact .frame (.refl u)
  | speedChannelStall | recordedEdgeExpiry | excessTimerExpiry | stepTimerExpiry | brakeAxleReleaseTimerExpiry =>
    cases h
    refine .inl (expire (fun u => Touches.moves ?_) _)
    exact .frame (.refl u)
  | breakawayTimerExpiry | lostTimerExpiry | windowTimerExpiry | mismatchTimerExpiry | supplyTimerExpiry
  | gearSlipTimerExpiry | axleMismatchTimerExpiry | stallTimerExpiry | trackingTimerExpiry | openLoadTimerExpiry =>
    cases h
    refine .inl (expire (fun u => Touches.moves (.detect ?_ _ _)) _)
    exact .frame (.refl u)
  | leaseExpiry => cases h; exact .inl (expire (fun u => (Moves.refl u).leaseEnds) _)
  | dwellEnd => cases h; exact .inl (expire (fun u => ((Touches.refl u).dwellEnds _ _).moves) _)
  | flowWaitExpiry => cases h; exact .inl (expire (fun u => ((Touches.refl u).starve _).moves) _)
  | fillEnd => exact .inl (stepExpire (fun u st => (Touches.refl u).job ((JobOnly.refl u).fillDone st)) h)
  | holdEnd => exact .inl (stepExpire (fun u st => (Touches.refl u).job ((JobOnly.refl u).holdDone st)) h)
  | rampOnEnd => exact .inl (stepExpire (fun u st => (Touches.refl u).job ((JobOnly.refl u).rampDone st)) h)
  | rampOffEnd => exact .inl (stepExpire (fun u st => (Touches.refl u).job ((JobOnly.refl u).zeroNeutral st).tryStart) h)
  | lockRampEnd owner =>
    cases owner with
    | step => exact .inl (stepExpire (fun u st => (Touches.refl u).job ((JobOnly.refl u).lockStep st true)) h)
    | direction => exact .inl (looseExpire (fun u d => (Touches.refl u).job ((JobOnly.refl u).lockLoose d)) h)
  | syncLimitExpiry owner =>
    cases owner with
    | step =>
      exact .inl (stepExpire (fun u st => ((Touches.refl u).job ((JobOnly.refl u).lockStep st false)).detect _ _) h)
    | direction => exact .inl (looseExpire (fun u d => ((Touches.refl u).job ((JobOnly.refl u).lockLoose d)).detect _ _) h)
  | decelerationLimitExpiry =>
    exact .inl (stepExpire (fun u st => (Touches.refl u).job ((JobOnly.refl u).endDecel st)) h)
  | upTimerExpiry => cases h; exact .inl (expire (fun u => ((Touches.refl u).job (JobOnly.refl u).upExpires).moves) _)
  | downTimerExpiry => cases h; exact .inl (expire (fun u => ((Touches.refl u).job (JobOnly.refl u).downExpires).moves) _)
  | setTimerExpiry | clearTimerExpiry | settleEnd =>
    cases h
    refine .inl (expire (fun u => Touches.moves (.job (.refl u) (.acuFollow ?_))) _)
    exact .setAcu (.refl u) _
  | axleFillEnd =>
    cases h
    refine .inl (expire (fun u => Touches.moves (.job (.refl u) (.releaseAxle ?_))) _)
    exact .setAcu (.refl u) _
  | deviationTimerExpiry =>
    cases h
    refine .inl (expire (fun u => Touches.moves (.job (.refl u) (.hrCorrect ?_))) _)
    exact .setHr (.refl u) _
  | throttleTimerExpiry p => exact .inl (throttled p h)

/-- What a step does to a state: it acts on the state with the front command taken, or resets it. -/
theorem step_acts {s t : State} (h : step s = .next t) : Acts s t ∨ ∃ u : State, t = u.poweredOn := by
  unfold step at h
  split at h
  · next c rest _ =>
    have front : Calm s { s with pending := rest } :=
      ⟨rfl, rfl, rfl, fun _ ch => by cases ch <;> rfl, .congr rfl rfl rfl, fun _ => .refl _⟩
    rcases exec_acts h with acts | ⟨-, powered⟩
    · exact .inl (acts.prepend front)
    · exact .inr ⟨_, powered⟩
  · cases h
    exact .inl (.refl s)

end Sys2Proof.Machine
end

section
/-! SUPPORT. The invariants of the order table, the ports and the store, through every step. -/

namespace Sys2Proof.Machine

variable {s t : State}

/-- What calm changes, moves and power-on reset keep, every step keeps. -/
theorem step_keeps {P : State → Prop} (calm : ∀ s t, Calm s t → P s → P t) (move : ∀ s t, Move s t → P s → P t)
    (power : ∀ s, P (State.poweredOn s)) (s t : State) (h : P s) (done : step s = .next t) : P t := by
  rcases step_acts done with acts | ⟨u, rfl⟩
  · cases acts with
    | calm c => exact calm _ _ c h
    | settled old before moves record after same =>
      have settled := moves.touches ((Touches.refl _).settle old)
      exact calm _ _ after (settled.keep move (calm _ _ before h))
  · exact power u

/-! The internal orders (R1, R2). -/

theorem State.internalLive_iff (s : State) :
    s.InternalLive ↔ s.otu.slots.length = 48 ∧ ∀ k < 8, s.incarnation k = 0 ∧ (s.order k).map Order.owner = some .internal := by
  constructor
  · intro h
    refine ⟨h.size, fun k hk => ?_⟩
    obtain ⟨sl, slot, inc, o, live, owner⟩ := h.live k hk
    exact ⟨by simp [State.incarnation, slot, inc], by simp [State.order, slot, live, owner]⟩
  · rintro ⟨size, live⟩
    refine ⟨size, fun k hk => ?_⟩
    obtain ⟨inc, owner⟩ := live k hk
    have slot : s.otu.slots[k]? = some (s.otu.slots[k]'(by omega)) := List.getElem?_eq_getElem _
    obtain ⟨o, order, internal⟩ := Option.map_eq_some_iff.mp owner
    simp only [State.incarnation, slot, Option.map_some, Option.getD_some] at inc
    simp only [State.order, slot, Option.bind_some] at order
    exact ⟨_, slot, inc, o, order, internal⟩

/-- A change that keeps owners and incarnations keeps the internal orders. -/
theorem State.InternalLive.of_owners (h : s.InternalLive) (size : t.otu.slots.length = s.otu.slots.length)
    (inc : ∀ k, s.order k = none ∨ t.incarnation k = s.incarnation k)
    (owners : ∀ k < 8, (s.order k).map Order.owner = some .internal → (t.order k).map Order.owner = some .internal) :
    t.InternalLive := by
  rw [State.internalLive_iff] at h ⊢
  refine ⟨size.trans h.1, fun k hk => ?_⟩
  obtain ⟨was, owner⟩ := h.2 k hk
  rcases inc k with free | same
  · rw [free] at owner
    cases owner
  · exact ⟨same.trans was, owners k hk owner⟩

theorem State.InternalLive.of_otu (h : s.InternalLive) (otu : t.otu = s.otu) : t.InternalLive :=
  ⟨otu ▸ h.size, otu ▸ h.live⟩

/-- A write that keeps the owner keeps the internal orders. -/
theorem State.InternalLive.write (h : s.InternalLive) {k : Nat} {o o' : Order} (live : s.order k = some o)
    (owner : o'.owner = o.owner) : (s.setOrder k o').InternalLive := by
  refine h.of_owners (State.length_setOrder ..) (fun j => .inr (State.incarnation_setOrder ..)) fun j _ was => ?_
  rw [State.order_setOrder_live live]
  split
  · next e =>
    rw [e, live, Option.map_some] at was
    rw [Option.map_some, owner]
    exact was
  · exact was

theorem State.incarnation_setSlot_of_ne (s : State) {j k : Nat} (ne : j ≠ k) (sl : Slot) :
    (s.setSlot k sl).incarnation j = s.incarnation j := by
  unfold State.incarnation
  simp [Ne.symm ne]

theorem State.incarnation_freeOrder (s : State) {j k : Nat} (ne : j ≠ k) (o : Order) :
    (s.freeOrder k o).incarnation j = s.incarnation j := by
  unfold State.freeOrder
  dsimp only
  split <;> exact State.incarnation_setSlot_of_ne _ ne _

theorem State.incarnation_entered (s : State) (p : Port) (k j : Nat) (o : Order) :
    (s.entered p k o).incarnation j = s.incarnation j := by
  unfold State.entered
  dsimp only
  split <;> exact State.incarnation_setOrder s k j o

theorem State.InternalLive.touch (m : Touch s t) (h : s.InternalLive) : t.InternalLive := by
  cases m with
  | frame otu leases cs rp => exact h.of_otu otu
  | cause p c => exact h.of_otu ((CausesOnly.refl s).setCause p c).otu
  | @enter p k o live => exact h.of_otu ((CausesOnly.refl s).enterSet p k).otu
  | write live same => exact h.write live same.owner

theorem State.InternalLive.move (m : Move s t) (h : s.InternalLive) : t.InternalLive := by
  cases m with
  | touch m => exact h.touch m
  | place free running owner alive =>
    obtain ⟨low, lt, -, -⟩ := State.freeSlot_eq_some free
    refine h.of_owners (State.length_entered ..) (fun j => .inr (State.incarnation_entered ..)) fun j hj was => ?_
    rw [State.order_entered (h.size.symm ▸ lt), if_neg (by omega)]
    exact was
  | lease live external alive channel owner state => exact (h.write live owner).of_owners rfl (fun _ => .inr rfl) fun _ _ => id
  | front live => exact h.of_owners rfl (fun _ => .inr rfl) fun _ _ => id
  | @free k o live external =>
    have kept : ∀ j < 8, j ≠ k := by
      rintro j hj rfl
      have was := ((State.internalLive_iff s).mp h).2 j hj |>.2
      rw [live, Option.map_some, Option.some.injEq] at was
      exact external was
    rw [State.internalLive_iff] at h ⊢
    refine ⟨((ClaimOnly.refl s).freeOrder k o).size.trans h.1, fun j hj => ?_⟩
    rw [State.incarnation_freeOrder s (kept j hj), State.order_freeOrder live, if_neg (kept j hj)]
    exact h.2 j hj
  | @lapse k o o' live channel owner lease lapsed =>
    exact (State.InternalLive.of_otu (t := s.lcuForget k) h rfl).write live owner
  | forget free => exact h.of_otu rfl
  | device d internal => exact h.of_otu rfl
  | items ok short => exact h.of_otu rfl

/-- Settles O7, by the owners and incarnations through every move. -/
theorem internalLiveKept : Obligations.InternalLiveKept :=
  step_keeps (fun _ _ c h => h.of_otu c.otu) (fun _ _ m h => h.move m) fun _ => internalLive_of_reset rfl

/-! The lease list (R5, R29). -/

/-- Settles O11. -/
theorem leaseFormKept : Obligations.LeaseFormKept :=
  step_keeps (fun _ _ c => c.leases) (fun _ _ m h => h.move m) fun _ => leaseForm_of_reset rfl rfl

end Sys2Proof.Machine
end

section
/-! SUPPORT and O12. The configuration store: writes of a run of values, and the ranges of every value. -/

namespace Sys2Proof.Machine

/-! Writes of a run. -/

theorem length_writeRun (l : List Word) (first : Nat) (vals : List Word) : (writeRun l first vals).length = l.length := by
  induction vals generalizing l first with
  | nil => rfl
  | cons v vals ih => rw [writeRun, ih, List.length_set]

/-- A run written inside a list: its own values in its places, every other value as before. -/
theorem getD_writeRun (l : List Word) (first : Nat) (vals : List Word) (fits : first + vals.length ≤ l.length) (x : Nat) :
    (writeRun l first vals).getD x 0 =
      if first ≤ x ∧ x < first + vals.length then vals.getD (x - first) 0 else l.getD x 0 := by
  induction vals generalizing l first with
  | nil =>
    rw [if_neg (by simp)]
    rfl
  | cons v vals ih =>
    rw [List.length_cons] at fits ⊢
    rw [writeRun, ih _ _ (by rw [List.length_set]; omega)]
    have written : (l.set first v).getD x 0 = if x = first then v else l.getD x 0 := by
      by_cases e : x = first
      · subst e
        simp [List.getD_eq_getElem?_getD, List.getElem?_set_self (show x < l.length by omega)]
      · simp [List.getD_eq_getElem?_getD, List.getElem?_set_ne (Ne.symm e), e]
    rw [written]
    by_cases inside : first + 1 ≤ x ∧ x < first + 1 + vals.length
    · rw [if_pos inside, if_pos (by omega), show x - first = x - (first + 1) + 1 by omega, List.getD_cons_succ]
    · rw [if_neg inside]
      by_cases e : x = first
      · rw [if_pos e, if_pos (by omega), e, Nat.sub_self, List.getD_cons_zero]
      · rw [if_neg e, if_neg (by omega)]

theorem getD_writeItem (items : List (List Word)) (item first : Nat) (vals : List Word) (inside : item < items.length)
    (j : Nat) :
    (writeItem items item first vals).getD j [] =
      if j = item then writeRun (items.getD item []) first vals else items.getD j [] := by
  unfold writeItem
  rw [List.getD_eq_getElem?_getD]
  split
  · next e => rw [e, List.getElem?_set_self inside, Option.getD_some]
  · next ne => rw [List.getElem?_set_ne (Ne.symm ne), List.getD_eq_getElem?_getD]

theorem lengths_writeItem (items : List (List Word)) (item first : Nat) (vals : List Word) :
    (writeItem items item first vals).map List.length = items.map List.length := by
  unfold writeItem
  rw [List.map_set, length_writeRun]
  by_cases inside : item < items.length
  · have same : (items.getD item []).length = (items.map List.length)[item]'(by rw [List.length_map]; exact inside) := by
      rw [List.getD_eq_getElem _ _ inside, List.getElem_map]
    rw [same, List.set_getElem_self]
  · rw [List.set_eq_of_length_le (by rw [List.length_map]; omega)]

/-- The store after a write: the run in its item, every other value as before. -/
theorem itemValue_writeItem (items : List (List Word)) (item first : Nat) (vals : List Word)
    (inside : item < items.length) (fits : first + vals.length ≤ (items.getD item []).length) (j x : Nat) :
    itemValue (writeItem items item first vals) j x =
      if j = item ∧ first ≤ x ∧ x < first + vals.length then vals.getD (x - first) 0 else itemValue items j x := by
  unfold itemValue
  rw [getD_writeItem _ _ _ _ inside]
  by_cases e : j = item
  · subst e
    rw [if_pos rfl, getD_writeRun _ _ _ fits]
    simp only [true_and]
  · rw [if_neg e, if_neg (fun h => e h.1)]

/-- The checks of R181. -/
theorem State.configCheck_ok {s : State} {item first n : Nat} {vals : List Word} {items : List (List Word)}
    (ok : s.configCheck item first n vals = .ok items) :
    s.running = false ∧ item ≤ 28 ∧ (1 ≤ n ∧ n ≤ 8 ∧ first + n ≤ itemLength item) ∧
      (∀ m, ∀ w, vals[m]? = some w → valueOk item (first + m) w = true) ∧ crossOk items item = true ∧
      items = writeItem s.items item first vals := by
  unfold State.configCheck at ok
  dsimp only at ok
  repeat' split at ok
  all_goals cases ok
  next stopped named run good =>
    have run : 1 ≤ n ∧ n ≤ 8 ∧ first + n ≤ itemLength item := by
      simpa [within, and_assoc, Nat.one_le_iff_ne_zero] using run
    rw [Bool.and_eq_true, List.all_eq_true] at good
    refine ⟨by simpa using stopped, by omega, run, fun m w value => ?_, good.2, rfl⟩
    exact good.1 (w, m) (List.mem_zipIdx_iff_getElem?.mpr value)

/-! The form of the store. -/

/-- What an item has of the store when the layout is right. -/
theorem State.StoreForm.length_item {s : State} (h : s.StoreForm) (i : Nat) :
    (s.items.getD i []).length = itemLength i := by
  unfold itemLength
  rw [← h.lengths, List.getD_eq_getElem?_getD, List.getD_eq_getElem?_getD, List.getElem?_map]
  cases s.items[i]? <;> rfl

theorem State.StoreForm.length_items {s : State} (h : s.StoreForm) : s.items.length = 29 := by
  rw [← List.length_map (f := List.length), h.lengths]
  rfl

theorem State.StoreForm.of_items {s t : State} (h : s.StoreForm) (items : t.items = s.items) : t.StoreForm :=
  ⟨items ▸ h.lengths, items ▸ h.values, items ▸ h.cross⟩

/-- The checks between values look at items 17 and 18 together, and at items 20 and 21. -/
theorem crossOk_congr {a b : List (List Word)} {i : Nat}
    (same : ∀ j, (j = i ∨ j = 17 ∧ i = 18 ∨ j = 18 ∧ i = 17) → ∀ x, itemNat a j x = itemNat b j x) :
    crossOk a i = crossOk b i := by
  unfold crossOk
  split
  · simp only [same 17 (by simp), same 18 (by simp)]
  · simp only [same 17 (by simp), same 18 (by simp)]
  · simp only [same 20 (by simp)]
  · simp only [same 21 (by simp)]
  · rfl

/-- A write that passes its checks keeps the form of the store (R181). -/
theorem State.StoreForm.written {s t : State} (h : s.StoreForm) {item first n : Nat} {vals : List Word}
    (ok : s.configCheck item first n vals = .ok t.items) (short : vals.length ≤ n) : t.StoreForm := by
  obtain ⟨-, named, ⟨-, -, fits⟩, values, cross, items⟩ := State.configCheck_ok ok
  have value := itemValue_writeItem s.items item first vals (by rw [h.length_items]; omega)
    (by rw [h.length_item]; omega)
  rw [← items] at value
  refine ⟨by rw [items, lengths_writeItem, h.lengths], fun i x hx => ?_, fun i => ?_⟩
  · rw [value]
    split
    · next e =>
      obtain ⟨rfl, low, high⟩ := e
      have inside : x - first < vals.length := by omega
      have ok := values (x - first) _ (List.getElem?_eq_getElem inside)
      rw [Nat.add_sub_cancel' low] at ok
      rw [List.getD_eq_getElem _ _ inside]
      exact ok
    · exact h.values i x hx
  · have same : ∀ j, j ≠ item → ∀ x, itemNat t.items j x = itemNat s.items j x := by
      intro j ne x
      unfold itemNat
      rw [value, if_neg fun e => ne e.1]
    by_cases group : i = item ∨ item = 17 ∧ i = 18 ∨ item = 18 ∧ i = 17
    · rcases group with rfl | ⟨rfl, rfl⟩ | ⟨rfl, rfl⟩
      · exact cross
      · exact cross
      · exact cross
    · rw [crossOk_congr (b := s.items) (fun j hj => same j (by rintro rfl; omega))]
      exact h.cross i

theorem State.StoreForm.move {s t : State} (m : Move s t) (h : s.StoreForm) : t.StoreForm := by
  cases m with
  | touch m =>
    refine h.of_items ?_
    cases m with
    | frame otu leases cs rp => unfold State.items; rw [cs]
    | cause p c => unfold State.items; rw [((CausesOnly.refl s).setCause p c).cs]
    | @enter p k _ live => unfold State.items; rw [((CausesOnly.refl s).enterSet p k).cs]
    | write live same => rfl
  | place free running owner alive =>
    refine h.of_items ?_
    unfold State.entered
    dsimp only
    split <;> rfl
  | lease | front | lapse | forget | device => exact h.of_items rfl
  | @free k o live external =>
    refine h.of_items ?_
    unfold State.items
    rw [((ClaimOnly.refl s).freeOrder k o).cs]
  | items ok short => exact h.written ok short

/-! The items by their tables. -/

theorem itemLength_table (i : Nat) (big : 29 ≤ i) : itemLength i = 0 := by
  unfold itemLength
  rw [List.getD_eq_getElem?_getD, List.getElem?_eq_none (by show itemLengths.length ≤ i; exact big)]
  rfl

theorem within_iff (lo hi n : Nat) : within lo hi n = true ↔ lo ≤ n ∧ n ≤ hi := by
  simp [within]

/-- A gain is any value but −32768. -/
theorem gainOk_iff (x : Nat) (w : Word) : valueOk 16 x w = true ↔ -32767 ≤ w.toInt := by
  have low := BitVec.le_toInt w
  simp only [valueOk, decide_eq_true_eq, ne_eq]
  omega

/-- An action is one of those allowed for its kind. -/
theorem actionOk_iff {x : Nat} {k : FaultKind} {allowed : List Nat} (kind : FaultKind.all[x]? = some k)
    (codes : allowedActions k = allowed) (w : Word) : valueOk 27 x w = true ↔ w.toNat ∈ allowed := by
  simp [valueOk, kind, codes]

/-- A value of the store is well formed by its own row: a table row is a lowest value, a highest value and a default. -/
def RowHolds (i x : Nat) (row : Nat × Nat × Nat) : Prop :=
  itemNat defaultItems i x = row.2.2 ∧ ∀ w : Word, valueOk i x w = true ↔ row.1 ≤ w.toNat ∧ w.toNat ≤ row.2.1

theorem RowHolds.of_within {i x : Nat} {row : Nat × Nat × Nat} (default : itemNat defaultItems i x = row.2.2 := by rfl)
    (range : ∀ w : Word, valueOk i x w = within row.1 row.2.1 w.toNat := by intro w; rfl) : RowHolds i x row :=
  ⟨default, fun w => by rw [range, within_iff]⟩

/-- The one value without a range of its own: cool_limit, held against hot_limit alone. -/
theorem rowHolds_coolLimit : RowHolds 20 3 (0, 65535, 20000) :=
  ⟨rfl, fun w => iff_of_true rfl ⟨Nat.zero_le _, Nat.le_of_lt_succ w.isLt⟩⟩

/-- Settles O12. -/
theorem storeFormKept : Obligations.StoreFormKept := by
  refine ⟨step_keeps (fun _ _ c h => h.of_items (by unfold State.items; rw [c.cs])) (fun _ _ m h => h.move m)
    (fun _ => storeForm_of_reset rfl), ?_, ?_⟩
  · intro same clutch rows gains actions
    have unnamed : ∀ i, 29 ≤ i → rows.getD i [] = [] := fun i big => by
      rw [List.getD_eq_getElem?_getD, List.getElem?_eq_none (show rows.length ≤ i from big)]
      rfl
    refine ⟨fun i => ?_, fun i x low high default row => ?_, fun x default gain => ?_, fun x allowed default action => ?_⟩
    · by_cases named : i < 29
      · interval_cases i <;> rfl
      · rw [itemLength_table i (by omega), if_neg (by omega), if_neg (by omega), unnamed i (by omega)]
        rfl
    · show RowHolds i x (low, high, default)
      have named : i < 29 := by
        by_contra big
        rw [unnamed i (by omega)] at row
        cases row
      have small : x < 13 := by
        have most : ∀ i < 29, (rows.getD i []).length ≤ 13 := by decide
        exact Nat.lt_of_lt_of_le (List.getElem?_eq_some_iff.mp row).1 (most i named)
      rcases Nat.lt_trichotomy i 20 with below | rfl | above
      · interval_cases i <;> interval_cases x <;> cases row <;> exact .of_within
      · rcases Nat.lt_trichotomy x 3 with first | rfl | rest
        · interval_cases x <;> cases row <;> exact .of_within
        · cases row
          exact rowHolds_coolLimit
        · interval_cases x <;> cases row
          exact .of_within
      · interval_cases i <;> interval_cases x <;> cases row <;> exact .of_within
    · have small : x < 8 := (List.getElem?_eq_some_iff.mp gain).1
      refine ⟨?_, gainOk_iff x⟩
      interval_cases x <;> cases gain <;> rfl
    · have small : x < 15 := (List.getElem?_eq_some_iff.mp action).1
      interval_cases x <;> cases action <;> exact ⟨rfl, actionOk_iff rfl rfl⟩
  · intro items i
    by_cases group : i = 17 ∨ i = 18 ∨ i = 20 ∨ i = 21
    · rcases group with rfl | rfl | rfl | rfl <;> simp [crossOk]
    · obtain ⟨h17, h18, h20, h21⟩ : i ≠ 17 ∧ i ≠ 18 ∧ i ≠ 20 ∧ i ≠ 21 := by omega
      simp [crossOk, h17, h18, h20, h21]

end Sys2Proof.Machine
end

section
/-! SUPPORT and O10. The changed-order sets and the attention lines through every command. -/

namespace Sys2Proof.Machine

variable {s t : State}

/-! The sets (R16, R174). -/

theorem mem_insertSlot {k j : Nat} {l : List Nat} : j ∈ insertSlot k l ↔ j = k ∨ j ∈ l := by
  induction l with
  | nil => simp [insertSlot]
  | cons x l ih =>
    unfold insertSlot
    split
    · simp
    · split
      · next e => simp [e]
      · simp [ih, or_left_comm]

theorem ascending_insertSlot (k : Nat) (l : List Nat) (h : ascending l) : ascending (insertSlot k l) := by
  induction l with
  | nil => exact ⟨fun _ h => (List.not_mem_nil h).elim, trivial⟩
  | cons x l ih =>
    obtain ⟨first, rest⟩ := h
    unfold insertSlot
    split
    · next lt =>
      refine ⟨fun y mem => ?_, first, rest⟩
      rcases List.mem_cons.mp mem with rfl | mem
      · exact lt
      · exact lt.trans (first y mem)
    · split
      · exact ⟨first, rest⟩
      · next ge ne =>
        refine ⟨fun y mem => ?_, ih rest⟩
        rcases mem_insertSlot.mp mem with rfl | mem
        · omega
        · exact first y mem

theorem ascending_filter (p : Nat → Bool) (l : List Nat) (h : ascending l) : ascending (l.filter p) := by
  induction l with
  | nil => exact h
  | cons x l ih =>
    rw [List.filter_cons]
    split
    · exact ⟨fun y mem => h.1 y (List.mem_filter.mp mem).1, ih h.2⟩
    · exact ih h.2

theorem State.changed_setCause (s : State) (p q : Port) (c : Cause) :
    ((s.setCause p c).port q).changed = (s.port q).changed := by
  rw [State.setCause_eq, State.port_setPort]
  split
  · next e => rw [e, PortRec.attend_changed]
  · rfl

theorem State.changed_enterSet (s : State) (p q : Port) (k : Nat) :
    ((s.enterSet p k).port q).changed = if q = p then insertSlot k (s.port q).changed else (s.port q).changed := by
  have cause : ∀ (d : Prop) [Decidable d] (u : State),
      ((if d then u.setCause p .orders else u).port q).changed = (u.port q).changed := by
    intro d _ u
    split
    · exact u.changed_setCause p q .orders
    · rfl
  unfold State.enterSet
  dsimp only
  rw [cause, State.port_setPort]
  split
  · next same => rw [same]
  · rfl

/-- A slot enters its set. -/
theorem State.mem_changed_enterSet (s : State) (p : Port) (k : Nat) : k ∈ ((s.enterSet p k).port p).changed := by
  rw [State.changed_enterSet, if_pos rfl]
  exact mem_insertSlot.mpr (.inl rfl)

/-! Ports through moves. -/

theorem Touch.ports (m : Touch s t) (p : Port) : PortOnly (s.port p) (t.port p) := by
  cases m with
  | frame otu leases cs rp =>
    unfold State.port
    rw [rp]
    exact .refl _
  | cause q c => exact ((CausesOnly.refl s).setCause q c).ports p
  | @enter q k _ live => exact ((CausesOnly.refl s).enterSet q k).ports p
  | write live same => exact .refl _

theorem Touches.ports (m : Touches s t) (p : Port) : PortOnly (s.port p) (t.port p) :=
  m.keep (P := fun u => PortOnly (s.port p) (u.port p)) (fun _ _ m h => h.trans (m.ports p)) (.refl _)

theorem State.port_entered (s : State) (p q : Port) (k : Nat) (o : Order) : (s.entered p k o).port q = s.port q := by
  unfold State.entered
  dsimp only
  split <;> rfl

theorem Move.ports (m : Move s t) (p : Port) : PortOnly (s.port p) (t.port p) := by
  cases m with
  | touch m => exact m.ports p
  | place =>
    rw [State.port_entered]
    exact .refl _
  | @free k o live external => exact ((ClaimOnly.refl s).freeOrder k o).ports p
  | lease | front | lapse | forget | device | items => exact .refl _

theorem Moves.ports (m : Moves s t) (p : Port) : PortOnly (s.port p) (t.port p) :=
  m.keep (P := fun u => PortOnly (s.port p) (u.port p)) (fun _ _ m h => h.trans (m.ports p)) (.refl _)

theorem State.SetsAscend.move (m : Move s t) (h : s.SetsAscend) : t.SetsAscend := by
  intro p
  cases m with
  | touch m =>
    cases m with
    | frame otu leases cs rp =>
      unfold State.port
      rw [rp]
      exact h p
    | cause q c =>
      rw [State.changed_setCause]
      exact h p
    | enter q live =>
      rw [State.changed_enterSet]
      split
      · exact ascending_insertSlot _ _ (h p)
      · exact h p
    | write live same => exact h p
  | place =>
    rw [State.port_entered]
    exact h p
  | @free k o live external =>
    have left : ((s.freeOrder k o).port p).changed = ((s.leaveSet o.owner.port k).port p).changed := by
      unfold State.freeOrder
      dsimp only
      split <;> rfl
    rw [left]
    unfold State.leaveSet
    rw [State.port_setPort]
    split
    · exact ascending_filter _ _ (h _)
    · exact h p
  | lease | front | lapse | forget | device | items => exact h p

/-! Causes. -/

/-- A new slot in an empty set has set ORDERS, unless the causes were taken since. -/
theorem Acts.orders (acts : Acts s t) (p : Port) (empty : (s.port p).changed = []) (entered : (t.port p).changed ≠ []) :
    (t.port p).causes.getLsbD 0 = true := by
  cases acts with
  | calm c => exact absurd ((c.ports p).empty empty) entered
  | settled old before moves record after same =>
    have through := (moves.touches ((Touches.refl _).settle old)).ports p
    rw [(same p).2]
    exact through.orders ((before.ports p).empty empty) ((same p).1 ▸ entered)

/-- A change of the gear record sets GEAR at both ports as an event is settled (R75). -/
theorem State.settle_gear (u : State) (old : Sq) (changed : u.sq.record ≠ old.record) (p : Port) :
    ((u.settle old).port p).causes.getLsbD 2 = true := by
  have told : (((u.osGuard.sqGuard).gearReport old).port p).causes.getLsbD 2 = true := by
    have set : ((u.osGuard.sqGuard.setCauseBoth .gear).port p).causes.getLsbD 2 = true := by
      unfold State.setCauseBoth
      cases p <;>
        · simp only [State.setCause_eq, State.port_setPort, PortRec.attend_causes, reduceCtorEq, if_true, if_false,
            BitVec.getLsbD_or, Cause.bit]
          simp
    unfold State.gearReport
    rw [if_neg (show u.osGuard.sqGuard.sq.record ≠ old.record from changed)]
    dsimp only
    split
    · exact set
    · exact (((Touches.refl _).sweep _).ports p).causes 2 set
  have rest := ((Touches.refl ((u.osGuard.sqGuard).gearReport old)).followLost.followMismatch.unitGuards.clutchCurrents.handSetpoints.keepAll).ports p
  exact rest.causes 2 told

theorem Acts.gear (acts : Acts s t) (changed : t.sq.record ≠ s.sq.record) (p : Port) :
    (t.port p).causes.getLsbD 2 = true := by
  cases acts with
  | calm c => exact absurd c.record changed
  | @settled a u old before moves record after same =>
    rw [(same p).2]
    refine u.settle_gear old (fun e => changed ?_) p
    have kept := (SettleOnly.refl u).settle old
    have settled : (u.settle old).sq.record = u.sq.record := by
      unfold Sq.record
      rw [kept.engaged, kept.range, kept.step]
    rw [after.record, settled, e, record, before.record]

/-- Settles O10. -/
theorem setsAscendKept : Obligations.SetsAscendKept := by
  refine ⟨step_keeps (fun _ _ c h p => (c.ports p).ascends (h p)) (fun _ _ m h => h.move m) fun s p => ?_,
    step_keeps (fun _ _ c h p => (c.ports p).attends (h p)) (fun _ _ m h p => (m.ports p).attends (h p)) fun s p => ?_,
    fun c s t done p => ?_⟩
  · rw [State.port_poweredOn]
    exact trivial
  · rw [State.port_poweredOn]
    exact ⟨fun asserted => absurd asserted Bool.false_ne_true, fun unmasked => absurd (BitVec.zero_and (x := ~~~0)) unmasked⟩
  · rcases exec_acts done with acts | ⟨power, rfl⟩
    · refine ⟨acts.orders p, fun _ changed => acts.gear (fun same => ?_) p⟩
      unfold Sq.record at same
      simp only [Prod.mk.injEq] at same
      obtain ⟨dir, range, step⟩ := same
      simp [dir, range, step] at changed
    · refine ⟨fun _ entered => ?_, fun other => absurd power other⟩
      rw [State.port_poweredOn] at entered
      exact absurd rfl entered

end Sys2Proof.Machine
end

section
/-! SUPPORT and O16. Each entry of a precedence list is a live order of its channel, so a keeping written on one channel
leaves the keepings of the others, and the end of an event writes all four (R15). -/

namespace Sys2Proof.Machine

variable {s t : State}

/-! The entries of the precedence lists. -/

theorem mem_insertClass {cls : Nat → Nat} {k j : Nat} {l : List Nat} : j ∈ insertClass cls k l ↔ j = k ∨ j ∈ l := by
  induction l with
  | nil => simp [insertClass]
  | cons x l ih =>
    unfold insertClass
    split
    · simp [ih, or_left_comm]
    · simp

theorem State.mem_moveFront {ch c : Channel} {k j : Nat} :
    j ∈ (s.moveFront ch k).list c ↔ c = ch ∧ j = k ∨ j ∈ s.list c := by
  unfold State.moveFront
  rw [State.list_setList]
  by_cases same : c = ch
  · rw [if_pos same, mem_insertClass, List.mem_filter, same]
    by_cases hj : j = k <;> simp [hj]
  · simp [same]

theorem State.list_freeOrder (s : State) (k : Nat) (o : Order) (ch : Channel) :
    (s.freeOrder k o).list ch = if ch = o.channel then (s.list o.channel).filter (· ≠ k) else s.list ch := by
  rw [← State.list_setList]
  unfold State.freeOrder
  dsimp only
  split <;> rfl

/-- The table has its 48 slots, and each entry of a precedence list is a live order of the list's channel. -/
structure State.ListsHold (s : State) : Prop where
  size : s.otu.slots.length = 48
  entry : ∀ ch k, k ∈ s.list ch → (s.order k).map Order.channel = some ch

namespace State.ListsHold

theorem of_listForm (h : s.ListForm) : s.ListsHold := by
  refine ⟨h.size, fun ch k mem => ?_⟩
  obtain ⟨o, live, channel⟩ := (h.holds ch k).mp mem
  rw [live, Option.map_some, channel]

theorem of_otu (h : s.ListsHold) (otu : t.otu = s.otu) : t.ListsHold := by
  have order : ∀ k, t.order k = s.order k := fun k => by unfold State.order; rw [otu]
  refine ⟨otu ▸ h.size, fun ch k mem => ?_⟩
  rw [order]
  refine h.entry ch k ?_
  unfold State.list at mem ⊢
  exact otu ▸ mem

/-- Entries that leave their lists, or orders whose records are rewritten on their channels, keep the lists. -/
theorem of_orders (h : s.ListsHold) (size : t.otu.slots.length = s.otu.slots.length)
    (lists : ∀ ch k, k ∈ t.list ch → k ∈ s.list ch)
    (orders : ∀ ch k, k ∈ t.list ch → (t.order k).map Order.channel = (s.order k).map Order.channel) : t.ListsHold :=
  ⟨size.trans h.size, fun ch k mem => (orders ch k mem).trans (h.entry ch k (lists ch k mem))⟩

theorem write (h : s.ListsHold) {k : Nat} {o o' : Order} (live : s.order k = some o) (channel : o'.channel = o.channel) :
    (s.setOrder k o').ListsHold := by
  refine h.of_orders (State.length_setOrder ..) (fun _ _ => id) fun _ j _ => ?_
  rw [State.order_setOrder_live live]
  split
  · next e => rw [e, live, Option.map_some, Option.map_some, channel]
  · rfl

theorem touch (m : Touch s t) (h : s.ListsHold) : t.ListsHold := by
  cases m with
  | frame otu leases cs rp => exact h.of_otu otu
  | cause p c => exact h.of_otu ((CausesOnly.refl s).setCause p c).otu
  | @enter p k o live => exact h.of_otu ((CausesOnly.refl s).enterSet p k).otu
  | write live same => exact h.write live same.channel

/-- A live order goes to the front of its class segment. -/
theorem front (h : s.ListsHold) {ch : Channel} {k : Nat} (live : (s.order k).map Order.channel = some ch) :
    (s.moveFront ch k).ListsHold := by
  refine ⟨h.size, fun c j mem => ?_⟩
  rcases State.mem_moveFront.mp mem with ⟨rfl, rfl⟩ | mem
  · exact live
  · exact h.entry c j mem

/-- A slot that holds no order stands on no list. -/
theorem not_mem (h : s.ListsHold) {k : Nat} (free : s.order k = none) (ch : Channel) : k ∉ s.list ch := by
  intro mem
  have e := h.entry ch k mem
  rw [free] at e
  cases e

theorem place (h : s.ListsHold) {p : Port} {k : Nat} {o : Order} (free : s.order k = none) (lt : k < 48) :
    (s.entered p k o).ListsHold := by
  have order : ∀ j, (s.setOrder k o).order j = if j = k then some o else s.order j := by
    intro j
    rw [State.order_setOrder]
    simp [h.size, lt]
  have placed : ((s.setOrder k o).setLive p (s.live p + 1)).ListsHold := by
    refine h.of_orders (State.length_setOrder ..) (fun _ _ => id) fun ch j mem => ?_
    have ne : j ≠ k := fun e => h.not_mem free ch (e ▸ mem)
    rw [State.order_setLive, order, if_neg ne]
  have fronted : (((s.setOrder k o).setLive p (s.live p + 1)).moveFront o.channel k).ListsHold :=
    placed.front (by rw [State.order_setLive, order, if_pos rfl, Option.map_some])
  unfold State.entered
  dsimp only
  split
  · exact fronted
  · exact fronted.of_otu rfl

theorem free (h : s.ListsHold) {k : Nat} {o : Order} (live : s.order k = some o) : (s.freeOrder k o).ListsHold := by
  have still : ∀ ch j, j ∈ (s.freeOrder k o).list ch → j ∈ s.list ch ∧ j ≠ k := by
    intro ch j mem
    rw [State.list_freeOrder] at mem
    split at mem
    · next e =>
      rw [List.mem_filter] at mem
      exact ⟨e ▸ mem.1, by simpa using mem.2⟩
    · next other =>
      refine ⟨mem, ?_⟩
      rintro rfl
      have e := h.entry ch j mem
      rw [live, Option.map_some, Option.some.injEq] at e
      exact other e.symm
  refine h.of_orders ((ClaimOnly.refl s).freeOrder k o).size (fun ch j mem => (still ch j mem).1) fun ch j mem => ?_
  rw [State.order_freeOrder live, if_neg (still ch j mem).2]

theorem move (m : Move s t) (h : s.ListsHold) : t.ListsHold := by
  cases m with
  | touch m => exact h.touch m
  | place free running owner alive =>
    obtain ⟨-, lt, none, -⟩ := State.freeSlot_eq_some free
    exact h.place none lt
  | lease live external alive channel owner state => exact (h.write live channel).of_otu rfl
  | front live => exact h.front (by rw [live, Option.map_some])
  | free live external => exact h.free live
  | @lapse k o o' live channel owner lease lapsed => exact (of_otu (t := s.lcuForget k) h rfl).write live channel
  | forget | device | items => exact h.of_otu rfl

end State.ListsHold

/-! Keepings (R15). -/

/-- The governing order of a channel holds the keeping its job unit assesses. -/
def State.KeptOn (s : State) (ch : Channel) : Prop :=
  ∀ k o, s.governing ch = some k → s.order k = some o → o.keeping = s.keepingOf ch

theorem State.mem_of_governing {ch : Channel} {k : Nat} (h : s.governing ch = some k) : k ∈ s.list ch :=
  List.mem_of_find?_eq_some h

theorem State.order_writeKeeping {ch : Channel} {v : Keeping} {j : Nat} :
    (s.writeKeeping ch v).order j =
      if s.governing ch = some j then (s.order j).map ({ · with keeping := v }) else s.order j := by
  unfold State.writeKeeping
  cases governs : s.governing ch with
  | none => simp
  | some k =>
    dsimp only
    cases live : s.order k with
    | none =>
      by_cases hj : k = j
      · rw [← hj, live, if_pos rfl, Option.map_none]
      · simp [hj]
    | some o =>
      dsimp only
      by_cases same : o.keeping = v
      · rw [if_pos same]
        by_cases hj : k = j
        · subst hj same
          simp [live]
        · simp [hj]
      · rw [if_neg same, State.order_noteChange, State.order_setOrder_live live]
        by_cases hj : k = j
        · subst hj
          simp [live]
        · simp [hj, Ne.symm hj]

/-- What a job unit assesses depends on no keeping. -/
theorem State.keepingOf_writeKeeping (s : State) (ch c : Channel) (v : Keeping) :
    (s.writeKeeping ch v).keepingOf c = s.keepingOf c := by
  have kept := (SettleOnly.refl s).writeKeeping ch v
  obtain ⟨mu, sq, acu, tbu⟩ := State.sameUnits_writeKeeping s ch v
  cases c with
  | gear =>
    unfold State.keepingOf State.sqKeeping State.heldBy
    simp only [kept.enable, kept.running, kept.pub, sq]
  | axle =>
    unfold State.keepingOf State.acuKeeping State.acuWishReleased State.acuDegraded State.latched State.action
    simp only [kept.enable, kept.pub, kept.items, kept.fu, sq, acu]
  | hitch =>
    unfold State.keepingOf State.hrKeeping
    simp only [kept.enable, kept.pub, kept.hr, sq]
  | tbrake =>
    unfold State.keepingOf State.tbuKeeping
    simp only [kept.tbuState, kept.enable, kept.pub, tbu]

/-- A channel's job unit writes what it assesses. -/
theorem State.KeptOn.writeKeeping_self (s : State) (ch : Channel) : (s.writeKeeping ch (s.keepingOf ch)).KeptOn ch := by
  intro k o governs live
  rw [((SettleOnly.refl s).writeKeeping ch _).governing] at governs
  rw [State.order_writeKeeping, if_pos governs, Option.map_eq_some_iff] at live
  obtain ⟨o, -, rfl⟩ := live
  exact (s.keepingOf_writeKeeping ch ch _).symm

/-- It leaves the keepings of the other channels. -/
theorem State.KeptOn.writeKeeping_other {ch c : Channel} (ne : c ≠ ch) (v : Keeping) (lists : s.ListsHold)
    (h : s.KeptOn c) : (s.writeKeeping ch v).KeptOn c := by
  intro k o governs live
  rw [((SettleOnly.refl s).writeKeeping ch v).governing] at governs
  have other : s.governing ch ≠ some k := by
    intro e
    have here := lists.entry c k (State.mem_of_governing governs)
    rw [lists.entry ch k (State.mem_of_governing e), Option.some.injEq] at here
    exact ne here.symm
  rw [State.order_writeKeeping, if_neg other] at live
  rw [s.keepingOf_writeKeeping]
  exact h k o governs live

theorem State.ListsHold.writeKeeping (h : s.ListsHold) (ch : Channel) (v : Keeping) :
    (s.writeKeeping ch v).ListsHold :=
  ((Touches.refl s).writeKeeping ch v).keep (fun _ _ m h => h.touch m) h

/-- The job units write all four keepings. -/
theorem State.ListsHold.keepAll (h : s.ListsHold) : s.keepAll.KeepingsWritten := by
  intro running
  rw [((SettleOnly.refl s).keepAll).running] at running
  unfold State.keepAll
  rw [if_pos running]
  dsimp only
  have hg := h.writeKeeping .gear s.sqKeeping
  have ha := hg.writeKeeping .axle (s.writeKeeping .gear s.sqKeeping).acuKeeping
  have hh := ha.writeKeeping .hitch
    ((s.writeKeeping .gear s.sqKeeping).writeKeeping .axle (s.writeKeeping .gear s.sqKeeping).acuKeeping).hrKeeping
  intro ch
  cases ch with
  | gear =>
    exact (((State.KeptOn.writeKeeping_self s .gear).writeKeeping_other (by decide) _ hg).writeKeeping_other
      (by decide) _ ha).writeKeeping_other (by decide) _ hh
  | axle =>
    exact ((State.KeptOn.writeKeeping_self _ .axle).writeKeeping_other (by decide) _ ha).writeKeeping_other
      (by decide) _ hh
  | hitch => exact (State.KeptOn.writeKeeping_self _ .hitch).writeKeeping_other (by decide) _ hh
  | tbrake => exact State.KeptOn.writeKeeping_self _ .tbrake

/-- A calm change leaves the keepings. -/
theorem State.KeepingsWritten.calm (c : Calm s t) (h : s.KeepingsWritten) : t.KeepingsWritten := by
  intro running ch k o governs live
  have order : ∀ j, t.order j = s.order j := fun j => by unfold State.order; rw [c.otu]
  have governed : t.governing ch = s.governing ch := by
    unfold State.governing State.isGoverning State.list
    simp only [order, c.otu]
  have was : s.running = true := c.running ▸ running
  rw [c.keepings was ch]
  exact h was ch k o (governed ▸ governs) (order k ▸ live)

/-- Every command leaves the keepings as the job units assess them. -/
theorem Acts.keepings (acts : Acts s t) (lists : s.ListsHold) (h : s.KeepingsWritten) : t.KeepingsWritten := by
  cases acts with
  | calm c => exact h.calm c
  | @settled a u old before moves record after same =>
    have listed := moves.keep (fun _ _ m h => State.ListsHold.move m h) (lists.of_otu before.otu)
    have settled :=
      ((Touches.refl u).osGuard.sqGuard.gearReport old).followLost.followMismatch.unitGuards.clutchCurrents.handSetpoints
    exact (settled.keep (fun _ _ m h => State.ListsHold.touch m h) listed).keepAll.calm after

/-! The keepings of the four job units (R102, R117, R134, R147). -/

theorem State.seqState_live (running : s.running = true) (enable : s.enable = true) : s.seqState = s.sq.seq := by
  unfold State.seqState
  simp [running, enable]

/-- The keeping of the governing GEAR order in RUN with ENABLE high, by the head of the queue (R102). -/
theorem State.sqKeeping_started (enable : s.enable = true) {st : GearStep} (started : s.sq.started = some st) :
    s.sqKeeping = if st.phase = some .flowWait then .waiting .flowWait else .limited .shifting := by
  unfold State.sqKeeping
  simp [enable, started]

theorem State.sqKeeping_waiting (running : s.running = true) (enable : s.enable = true) {st : GearStep}
    (waiting : s.sq.waitingHead = some st) :
    s.sqKeeping =
      if st.kind = .engage ∧ s.sq.interlock = true then .limited .restartInterlock
      else if ∃ c ∈ st.on, (s.sq.clutch.get c).hot = true then .limited .hotClutch
      else if st.kind ≠ .neutralize ∧ s.pub.band = .modulating ∧ s.seqState = .inch then .waiting .inchWait
      else .kept := by
  have idle : s.sq.started = none := by
    unfold Sq.waitingHead at waiting
    unfold Sq.started
    cases queue : s.sq.queue with
    | nil => rfl
    | cons head rest =>
      rw [queue] at waiting
      dsimp only at waiting ⊢
      cases phase : head.phase <;> simp [phase] at waiting ⊢
  have held : s.heldBy st =
      if st.kind = .engage ∧ s.sq.interlock = true then .interlock
      else if ∃ c ∈ st.on, (s.sq.clutch.get c).hot = true then .hot
      else if st.kind ≠ .neutralize ∧ s.pub.band = .modulating ∧ s.sq.seq = .inch then .pedal else .no := by
    unfold State.heldBy
    simp [running, enable]
  unfold State.sqKeeping
  simp only [enable, idle, waiting, held, State.seqState_live running enable, Bool.not_true, Bool.false_eq_true, if_false]
  split_ifs <;> rfl

theorem State.sqKeeping_idle (enable : s.enable = true) (idle : s.sq.queue = []) :
    s.sqKeeping =
      if s.sq.auto = true ∧ s.pub.engine = none then .limited .faultDegraded
      else if s.sq.auto = true ∧ (s.sq.refusalUp = true ∨ s.sq.refusalDown = true) then .limited .band
      else .kept := by
  unfold State.sqKeeping Sq.started Sq.waitingHead
  simp [enable, idle]

/-- Settles O16: what the end of every event writes, and the four assessments by their tables. -/
theorem keepingsAreWritten : Obligations.KeepingsAreWritten := by
  refine ⟨fun s t listForm h done => ?_, fun s running => ?_, fun s => ?_, fun s => ?_, fun s => ?_⟩
  · rcases step_acts done with acts | ⟨u, rfl⟩
    · exact acts.keepings (.of_listForm listForm) h
    · exact fun running => absurd running Bool.false_ne_true
  · refine ⟨fun disabled => ?_, fun enable => ⟨fun st started => State.sqKeeping_started enable started,
      fun st waiting => State.sqKeeping_waiting running enable waiting, State.sqKeeping_idle enable⟩⟩
    unfold State.keepingOf State.sqKeeping
    simp [disabled]
  · unfold State.keepingOf State.acuKeeping
    simp [and_comm, and_assoc, and_left_comm]
  · unfold State.keepingOf State.hrKeeping Hr.holdMode Hr.draftMode
    have trimmed : ∀ m : Nat, (m = 0 ∨ m = 1 ∨ m = 2) ↔ m ≤ 2 := fun m => by omega
    simp [and_assoc, ← or_and_left, trimmed]
  · unfold State.keepingOf State.tbuKeeping
    dsimp only
    split_ifs <;> simp_all

end Sys2Proof.Machine
end

section
/-! SUPPORT and O22. Answers about orders, and the queries READ, FIND and LIST (R24 to R26). -/

namespace Sys2Proof.Machine

variable {s : State} {p : Port}

/-! Requests that a port takes. -/

/-- An answer about a live order carries its state and its generation. -/
theorem State.answerOn_live {h : Handle} {o : Order} (live : s.order h.slot.toNat = some o) (code tag : Byte) (r : Result)
    (v : Values) : s.answerOn code tag r h v = ⟨code, tag, r, o.state, h, o.gen, v⟩ := by
  unfold State.answerOn
  rw [live]

/-- A request that always answers, taken by its port. -/
theorem State.request_answers (takes : (s.port p).takes) (code tag : Byte) (run : State → State × Answer) :
    (s.request p code tag fun t => let r := run t; (r.1, some r.2)) =
      (run (s.risen p)).1.answering p (run (s.risen p)).2 :=
  State.request_takes takes code tag _

/-- The handle of a slot below 256 names that slot. -/
theorem State.slot_handle (s : State) {k : Nat} (lt : k < 256) : (s.handle k).slot.toNat = k := by
  unfold State.handle
  simp only [BitVec.toNat_ofNat]
  omega

/-! Fields (R5, R26). -/

/-- The fields of an order record as READ returns them. -/
theorem State.fields_eq (s : State) (k : Nat) (o : Order) :
    (List.range 24).map (s.fieldOf k o) =
      [Word.ofNat o.channel.code, Word.ofNat o.cls, Word.ofNat o.owner.code, Word.ofNat o.state.code, o.keeping.code,
        o.lease, Word.ofNat (s.leaseRemaining k), Word.ofNat o.termCount] ++
      o.setpoint.toList ++ [o.term1.quantity, o.term1.threshold, o.term1.hysteresis, o.term1.dwell] ++
      [o.term2.quantity, o.term2.threshold, o.term2.hysteresis, o.term2.dwell] := rfl

theorem channelOf_eq_none {channel : Byte} (h : 3 < channel.toNat) : channelOf channel = none :=
  List.getElem?_eq_none (show 4 ≤ channel.toNat from h)

/-- The governing order of a channel has state GOVERNING. -/
theorem State.state_of_governing {ch : Channel} {k : Nat} {o : Order} (governs : s.governing ch = some k)
    (live : s.order k = some o) : o.state = .governing := by
  have here := List.find?_some governs
  unfold State.isGoverning at here
  rw [live] at here
  exact of_decide_eq_true here

/-- FIND names the governing order (R24). -/
theorem State.findAnswer_governing {tag channel : Byte} {ch : Channel} {k : Nat} {o : Order}
    (names : channelOf channel = some ch) (governs : s.governing ch = some k) (lt : k < 256) (live : s.order k = some o) :
    s.findAnswer tag channel =
      ⟨6, tag, .ok, .governing, s.handle k, o.gen,
        ⟨Word.ofNat o.owner.code, Word.ofNat o.cls, o.keeping.code, Word.ofNat (s.list ch).length, 0, 0, 0, 0⟩⟩ := by
  have slot : s.order (s.handle k).slot.toNat = some o := by rw [s.slot_handle lt, live]
  unfold State.findAnswer
  simp only [names, governs, live]
  rw [State.answerOn_live slot, State.state_of_governing governs live]
  rfl

/-! The three queries at a port that takes them. -/

theorem exec_read (takes : (s.port p).takes) (tag slot inc first count : Byte) :
    exec (.read p tag slot inc first count) s =
      .next ((s.risen p).answering p ((s.risen p).readAnswer tag slot inc first count)) :=
  congrArg _ (State.query_takes takes 2 tag _)

theorem exec_find (takes : (s.port p).takes) (tag channel : Byte) :
    exec (.find p tag channel) s = .next ((s.risen p).answering p ((s.risen p).findAnswer tag channel)) :=
  congrArg _ (State.query_takes takes 6 tag _)

theorem exec_list (takes : (s.port p).takes) (tag channel position : Byte) :
    exec (.list p tag channel position) s =
      .next ((s.risen p).answering p ((s.risen p).listAnswer tag channel position)) :=
  congrArg _ (State.query_takes takes 7 tag _)

/-- Settles O22, each answer read off the state at the rise. -/
theorem orderQueriesReport : Obligations.OrderQueriesReport := by
  refine ⟨fun s k o => ?_, fun p tag slot inc first count s takes => ?_,
    fun p tag channel ch k o s takes names governs lt live => ?_,
    fun p tag channel position ch s takes names => ?_, fun p tag channel position s takes high => ?_⟩
  · rw [s.fields_eq]
    simp only [List.cons_append, List.cons.injEq, and_true, true_and]
    refine ⟨?_, ?_, ?_, ?_, ?_⟩
    · cases o.channel <;> rfl
    · cases o.owner <;> rfl
    · cases o.state <;> rfl
    · rcases o.keeping with _ | _ | r | r
      · rfl
      · rfl
      · cases r <;> rfl
      · cases r <;> rfl
    · unfold State.leaseRemaining
      cases s.lcu.leases.find? fun e => e.slot = k <;> rfl
  · rw [exec_read takes]
    unfold State.readAnswer
    simp only [show (s.risen p).lookup ⟨slot, inc⟩ = s.lookup ⟨slot, inc⟩ from rfl]
    refine ⟨fun unknown => ?_, fun o named => ?_⟩
    · rw [unknown]
      rfl
    · have live : (s.risen p).order slot.toNat = some o := (Acts.lookup_order named).2
      simp only [named]
      refine ⟨fun bad => ?_, fun good => ?_⟩
      · rw [if_neg bad, State.answerOn_live live]
      · rw [if_pos good, State.answerOn_live live]
        rfl
  · rw [exec_find takes, State.findAnswer_governing (s := s.risen p) names governs lt live]
    rfl
  · rw [exec_list takes]
    unfold State.listAnswer
    simp only [names]
    refine ⟨fun high => ?_, fun low => ?_⟩
    · rw [if_pos high]
      rfl
    · rw [if_neg (by omega)]
      rfl
  · have unknown := channelOf_eq_none high
    rw [exec_find takes, exec_list takes]
    unfold State.findAnswer State.listAnswer
    rw [unknown]
    exact ⟨rfl, rfl⟩

end Sys2Proof.Machine
end

section
/-! SUPPORT and O31. The time remaining of a lease that starts anew, and RENEW (R22, R32). -/

namespace Sys2Proof.Machine

variable {s : State} {p : Port}

/-- A lease that starts now has its whole interval before it. -/
theorem remaining_begun (now : Time) (w : Word) : remaining now (now + w.setWidth 32) = w.toNat := by
  unfold remaining
  have interval : (now + w.setWidth 32 - now).toNat = w.toNat := by
    rw [BitVec.add_comm, BitVec.add_sub_cancel, BitVec.toNat_setWidth]
    exact Nat.mod_eq_of_lt (by have := w.isLt; omega)
  have := w.isLt
  rw [interval, if_pos (by omega)]

/-- The entry that takes its place in the list is found, where it is the only one of its slot. -/
theorem find?_insertLease (now : Time) (e : Lease) {l : List Lease} (absent : ∀ x ∈ l, x.slot ≠ e.slot) :
    (insertLease now e l).find? (fun x => x.slot = e.slot) = some e := by
  induction l with
  | nil => simp [insertLease]
  | cons x l ih =>
    unfold insertLease
    split
    · simp
    · rw [List.find?_cons_of_neg (by simpa using absent x List.mem_cons_self)]
      exact ih fun y mem => absent y (List.mem_cons_of_mem _ mem)

/-- A lease interval other than 0 enters the list anew (R30). -/
theorem State.restartLease_leased (k : Nat) {w : Word} (leased : w ≠ 0) :
    s.restartLease k w =
      { s with
        lcu := { s.lcu with leases := insertLease s.now ⟨k, s.now + w.setWidth 32⟩ (removeLease k s.lcu.leases) } } := by
  unfold State.restartLease
  simp only [leased, if_false]

theorem State.leaseRemaining_restartLease (k : Nat) {w : Word} (leased : w ≠ 0) :
    (s.restartLease k w).leaseRemaining k = w.toNat := by
  unfold State.leaseRemaining
  rw [State.restartLease_leased k leased, find?_insertLease (e := ⟨k, s.now + w.setWidth 32⟩) _ fun x mem => (mem_removeLease.mp mem).2]
  exact remaining_begun s.now w

/-- An unleased order has no entry, and so no time remaining. -/
theorem State.LeaseForm.leaseRemaining_unleased (h : s.LeaseForm) {k : Nat} {o : Order} (live : s.order k = some o)
    (unleased : o.lease = 0) : s.leaseRemaining k = 0 := by
  unfold State.leaseRemaining
  rw [List.find?_eq_none.mpr]
  intro e mem
  have other : e.slot ≠ k := by
    rintro rfl
    obtain ⟨o', live', leased, -⟩ := h.backed e mem
    rw [live, Option.some.injEq] at live'
    exact leased (live' ▸ unleased)
  simpa using other

theorem exec_renew (takes : (s.port p).takes) (tag slot inc : Byte) :
    exec (.renew p tag slot inc) s =
      .next (((s.risen p).runRenew p tag slot inc).1.answering p ((s.risen p).runRenew p tag slot inc).2) :=
  congrArg _ (State.request_answers takes 4 tag _)

/-- Settles O31. -/
theorem renewRestartsTheLease : Obligations.RenewRestartsTheLease := by
  intro p tag slot inc s takes form
  have risen : (s.risen p).LeaseForm := .congr (s := s) rfl rfl rfl form
  rw [exec_renew takes]
  unfold State.runRenew
  simp only [show (s.risen p).lookup ⟨slot, inc⟩ = s.lookup ⟨slot, inc⟩ from rfl]
  refine ⟨fun unknown => ?_, fun o named => ?_⟩
  · rw [unknown]
    rfl
  · have live : (s.risen p).order slot.toNat = some o := (Acts.lookup_order named).2
    simp only [named]
    refine ⟨fun foreign => ?_, fun own lapsed => ?_, fun own alive unleased => ?_, fun own alive leased => ?_⟩
    · rw [if_pos foreign, State.answerOn_live live]
    · rw [if_neg (not_not.mpr own), if_pos lapsed, State.answerOn_live live]
    · rw [if_neg (not_not.mpr own), if_neg alive, if_pos unleased, State.answerOn_live live,
        risen.leaseRemaining_unleased live unleased]
      rfl
    · have still : ((s.risen p).restartLease slot.toNat o.lease).order slot.toNat = some o := live
      rw [if_neg (not_not.mpr own), if_neg alive, if_neg leased, State.leaseRemaining_restartLease _ leased,
        State.answerOn_live still, show Word.ofNat o.lease.toNat = o.lease from BitVec.ofNat_toNat ..,
        State.restartLease_leased _ leased]
      rfl

end Sys2Proof.Machine
end

section
/-! SUPPORT and O29. The ranges of an order record, its fields after a run is written, and the checks of PLACE and AMEND
(R18, R20). -/

namespace Sys2Proof.Machine

variable {s : State} {p : Port}

/-! Fields that a claim writes (R5, R20). -/

/-- The fields that a claim may ever write: the lease, the setpoint and the two terms. -/
def claimField (i : Nat) : Prop := i = 5 ∨ 8 ≤ i ∧ i ≤ 23

theorem Order.writable_iff (o : Order) (i : Nat) :
    o.writable i = true ↔
      i = 5 ∨ (8 ≤ i ∧ i ≤ 15 ∧ i < 8 + usedSetpoints o.channel) ∨ (16 ≤ i ∧ i ≤ 23 ∧ i < 16 + 4 * o.termCount) := by
  unfold Order.writable
  simp [within_iff, and_assoc, or_assoc]

theorem claimField_of_writable {o : Order} {i : Nat} (h : o.writable i = true) : claimField i := by
  rw [Order.writable_iff] at h
  unfold claimField
  omega

theorem State.fields_writeField (s : State) (k : Nat) (o : Order) {i : Nat} (h : claimField i) (w : Word) :
    (List.range 24).map (s.fieldOf k (o.writeField i w)) = ((List.range 24).map (s.fieldOf k o)).set i w := by
  rcases h with rfl | ⟨low, high⟩
  · rfl
  · interval_cases i <;> rfl

theorem State.fields_writeFields (s : State) (k : Nat) (o : Order) (first : Nat) (ws : List Word)
    (h : ∀ i < ws.length, claimField (first + i)) :
    (List.range 24).map (s.fieldOf k (o.writeFields first ws)) =
      writeRun ((List.range 24).map (s.fieldOf k o)) first ws := by
  induction ws generalizing o first with
  | nil => rfl
  | cons w ws ih =>
    have here : claimField first := h 0 (by simp)
    rw [Order.writeFields, writeRun, ih, s.fields_writeField k o here]
    intro i lt
    rw [Nat.add_assoc, Nat.add_comm 1]
    exact h (i + 1) (by simpa using lt)

theorem State.getD_fields (s : State) (k : Nat) (o : Order) {i : Nat} (lt : i < 24) :
    ((List.range 24).map (s.fieldOf k o)).getD i 0 = s.fieldOf k o i := by
  simp [lt]

/-- A run of fields is written in its places and nowhere else. -/
theorem State.fieldOf_writeFields (s : State) (k : Nat) (o : Order) (first : Nat) (ws : List Word)
    (h : ∀ i < ws.length, claimField (first + i)) {i : Nat} (lt : i < 24) :
    s.fieldOf k (o.writeFields first ws) i =
      if (first ≤ i && i < first + ws.length) = true then ws.getD (i - first) 0 else s.fieldOf k o i := by
  cases ws with
  | nil =>
    rw [if_neg (by simp)]
    rfl
  | cons w ws =>
    have last := h ws.length (by simp)
    have fits : first + (w :: ws).length ≤ ((List.range 24).map (s.fieldOf k o)).length := by
      unfold claimField at last
      simp only [List.length_cons, List.length_map, List.length_range]
      omega
    rw [← s.getD_fields k _ lt, s.fields_writeFields k o first _ h, getD_writeRun _ _ _ fits, s.getD_fields k o lt]
    simp

/-! Marks (R9). -/

/-- The mark of a term's field, by the number of the field. -/
def Order.mark (o : Order) : Nat → Bool
  | 16 => o.term1.quantityMark
  | 17 => o.term1.thresholdMark
  | 18 => o.term1.hysteresisMark
  | 19 => o.term1.dwellMark
  | 20 => o.term2.quantityMark
  | 21 => o.term2.thresholdMark
  | 22 => o.term2.hysteresisMark
  | 23 => o.term2.dwellMark
  | _ => false

theorem Order.mark_writeField (o : Order) {i m : Nat} (h : claimField i) (low : 16 ≤ m) (high : m ≤ 23) (w : Word) :
    (o.writeField i w).mark m = (o.mark m || i = m) := by
  by_cases term : 16 ≤ i
  · have top : i ≤ 23 := by unfold claimField at h; omega
    interval_cases m <;> interval_cases i <;> simp [Order.mark, Order.writeField, Term.write]
  · have ne : i ≠ m := by omega
    unfold Order.writeField
    simp only [ne, decide_false, Bool.or_false]
    split
    · interval_cases m <;> rfl
    · rw [if_pos (by omega)]
      interval_cases m <;> rfl

/-- A run of fields sets the marks of the fields it writes. -/
theorem Order.mark_writeFields (o : Order) (first : Nat) (ws : List Word)
    (h : ∀ i < ws.length, claimField (first + i)) {m : Nat} (low : 16 ≤ m) (high : m ≤ 23) :
    (o.writeFields first ws).mark m = (o.mark m || (first ≤ m && m < first + ws.length)) := by
  induction ws generalizing o first with
  | nil =>
    have out : ¬ (first ≤ m ∧ m < first + 0) := by omega
    simp only [Order.writeFields, List.length_nil, ← Bool.decide_and, out, decide_false, Bool.or_false]
  | cons w ws ih =>
    have here : claimField first := h 0 (by simp)
    rw [Order.writeFields, ih, o.mark_writeField here low high, Bool.or_assoc]
    · congr 1
      simp only [← Bool.decide_and, ← Bool.decide_or, List.length_cons, decide_eq_decide]
      omega
    · intro i lt
      rw [Nat.add_assoc, Nat.add_comm 1]
      exact h (i + 1) (by simpa using lt)

/-! Ranges (R7, R8, R18, R33). -/

theorem setpointOk_iff (ch : Channel) (v : Values) :
    let n (i : Nat) : Nat := (v.toList.getD i 0).toNat
    setpointOk ch v = true ↔
      match ch with
      | .gear =>
        n 0 ≤ 2 ∧ n 1 ≤ 1 ∧ (1 ≤ n 2 ∧ n 2 ≤ 12) ∧ (1 ≤ n 3 ∧ n 3 ≤ 12) ∧ (n 3 ≤ n 4 ∧ n 4 ≤ 12) ∧
          (1200 ≤ n 5 ∧ n 5 ≤ 2600) ∧ (800 ≤ n 6 ∧ n 6 ≤ 2000 ∧ n 6 + 200 ≤ n 5) ∧ (1 ≤ n 7 ∧ n 7 ≤ 5)
      | .axle =>
        n 0 ≤ 2 ∧ n 1 ≤ 400 ∧ (5 ≤ n 2 ∧ n 2 ≤ 40) ∧ (2 ≤ n 3 ∧ n 3 + 2 ≤ n 2) ∧ n 4 = 0 ∧ n 5 = 0 ∧ n 6 = 0 ∧ n 7 = 0
      | .hitch =>
        n 0 ≤ 4 ∧ n 1 ≤ 1000 ∧ n 2 ≤ 1500 ∧ n 3 ≤ 100 ∧ (10 ≤ n 4 ∧ n 4 ≤ 500) ∧ (100 ≤ n 5 ∧ n 5 ≤ 1000) ∧
          (n 6 = 0 ∨ 5 ≤ n 6 ∧ n 6 ≤ 50) ∧ n 7 = 0
      | .tbrake =>
        (50 ≤ n 0 ∧ n 0 ≤ 150) ∧ n 1 ≤ 1 ∧ n 2 ≤ 4000 ∧ (2000 ≤ n 3 ∧ n 3 ≤ 15000) ∧ n 4 = 0 ∧ n 5 = 0 ∧ n 6 = 0 ∧
          n 7 = 0 := by
  intro n
  have value : ∀ i, (v.nth i).toNat = n i := fun _ => rfl
  unfold setpointOk
  cases ch <;>
    · simp only [value, Bool.and_eq_true, Bool.or_eq_true, decide_eq_true_eq, within_iff]
      omega

theorem leaseOk_iff (owner : Owner) (w : Word) :
    leaseOk owner w = true ↔
      w = 0 ∧ owner ≠ .implement ∨ 20 ≤ w.toNat ∧ w.toNat ≤ 5000 ∧ w.toNat % 10 = 0 := by
  have zero : w = 0 ↔ w.toNat = 0 := by simp [BitVec.toNat_eq]
  unfold leaseOk
  rw [zero]
  dsimp only
  split
  · next unleased => simp [unleased]
  · next leased => simp only [Bool.and_eq_true, within_iff, decide_eq_true_eq, leased, false_and, false_or, and_assoc]

theorem State.mayPlace_iff (s : State) (p : Port) (ch : Channel) (cls : Nat) :
    s.mayPlace p ch cls = true ↔
      match p with
      | .cab => 1 ≤ cls ∧ cls ≤ 3
      | .implement => 2 ≤ cls ∧ cls ≤ 3 ∧ itemValue s.items 25 ch.code = 1 := by
  have granted : itemNat s.items 25 ch.code = 1 ↔ itemValue s.items 25 ch.code = 1 := by
    simp [itemNat, BitVec.toNat_eq]
  unfold State.mayPlace
  rcases cls with _ | _ | _ | _ | cls <;> cases p <;> simp [granted]

/-- A quantity of condition terms by its code, with its limits. -/
theorem quantityOf_limits (c : Nat) :
    (quantityOf c).map Quantity.limits =
      ([(600, 100), (100, 50), (3500, 500), (1000, 200), (12, 2), (16000, 2000)] : List (Nat × Nat))[c]? := by
  rcases c with _ | _ | _ | _ | _ | _ | c <;> rfl

theorem Term.inRange_iff (r : Term) :
    r.inRange = true ↔
      r.dwell.toNat ≤ 2000 ∧
        (r.quantityMark = true →
          ∃ l, ([(600, 100), (100, 50), (3500, 500), (1000, 200), (12, 2), (16000, 2000)] :
              List (Nat × Nat))[r.quantity.hi.toNat]? = some l ∧
            r.quantity.lo.toNat ≤ 1 ∧ r.threshold.toNat ≤ l.1 ∧ r.hysteresis.toNat ≤ l.2) := by
  unfold Term.inRange Term.quantityName
  rw [← quantityOf_limits]
  cases quantityOf r.quantity.hi.toNat <;> cases r.quantityMark <;> simp [and_assoc]

/-! The requests at a port that takes them. -/

theorem exec_place (takes : (s.port p).takes) (tag channel cls terms : Byte) (lease : Word) (v : Values) :
    exec (.place p tag channel cls terms lease v) s =
      .next (((s.risen p).runPlace p tag channel cls terms lease v).1.answering p
        ((s.risen p).runPlace p tag channel cls terms lease v).2) :=
  congrArg _ (State.request_answers takes 1 tag _)

theorem exec_amend (takes : (s.port p).takes) (tag slot inc first : Byte) (front : Bool) (count : BitVec 7) (gen : Word)
    (v : Values) :
    exec (.amend p tag slot inc first front count gen v) s =
      .next (((s.risen p).runAmend p tag slot inc first front count gen v).1.answering p
        ((s.risen p).runAmend p tag slot inc first front count gen v).2) :=
  congrArg _ (State.request_answers takes 3 tag _)

/-- A PLACE with a header byte out of range changes nothing but its port (R18). -/
theorem State.runPlace_badRequest {channel cls : Byte} (bad : channelOf channel = none ∨ 3 < cls.toNat) (tag terms : Byte)
    (lease : Word) (v : Values) :
    s.runPlace p tag channel cls terms lease v = (s, .plain 1 tag .badRequest .zero) := by
  unfold State.runPlace
  cases names : channelOf channel with
  | none => rfl
  | some ch =>
    have high : 3 < cls.toNat := bad.resolve_left (by simp [names])
    simp only [high, if_true]

/-- A PLACE that a check refuses changes nothing but its port (R18). -/
theorem exec_place_refused (takes : (s.port p).takes) {channel : Byte} {ch : Channel}
    (names : channelOf channel = some ch) {cls terms : Byte} (low : cls.toNat ≤ 3) {lease : Word} {v : Values} {r : Result}
    (refused : s.placeCheck p ch cls.toNat terms.toNat lease v = .error r) (tag : Byte) :
    exec (.place p tag channel cls terms lease v) s =
      .next ((s.risen p).answering p ⟨1, tag, r, .dormant, .empty, 0, .zero⟩) := by
  have check : (s.risen p).placeCheck p ch cls.toNat terms.toNat lease v = .error r := refused
  rw [exec_place takes]
  unfold State.runPlace
  simp only [names, check, show ¬ 3 < cls.toNat by omega, if_false]
  rfl

/-- An AMEND of no live order changes nothing but its port (R17). -/
theorem exec_amend_stale (takes : (s.port p).takes) {slot inc : Byte} (unknown : s.lookup ⟨slot, inc⟩ = none)
    (tag first : Byte) (front : Bool) (count : BitVec 7) (gen : Word) (v : Values) :
    exec (.amend p tag slot inc first front count gen v) s =
      .next ((s.risen p).answering p ⟨3, tag, .stale, .dormant, ⟨slot, inc⟩, 0, .zero⟩) := by
  have none : (s.risen p).lookup ⟨slot, inc⟩ = none := unknown
  rw [exec_amend takes]
  unfold State.runAmend
  simp only [none]
  rfl

/-- An AMEND that a check refuses changes nothing but its port (R20). -/
theorem exec_amend_refused (takes : (s.port p).takes) {slot inc first : Byte} {o : Order}
    (named : s.lookup ⟨slot, inc⟩ = some o) {count : BitVec 7} {gen : Word} {v : Values} {r : Result}
    (refused : o.amendCheck p first.toNat count.toNat gen v = .error r) (tag : Byte) (front : Bool) :
    exec (.amend p tag slot inc first front count gen v) s =
      .next ((s.risen p).answering p ⟨3, tag, r, o.state, ⟨slot, inc⟩, o.gen, .zero⟩) := by
  have named : (s.risen p).lookup ⟨slot, inc⟩ = some o := named
  have live : (s.risen p).order slot.toNat = some o := (Acts.lookup_order named).2
  rw [exec_amend takes]
  unfold State.runAmend
  simp only [named, refused, State.answerOn_live (h := ⟨slot, inc⟩) live]

/-- Fields that a run may write, as the check of R20 asks for them. -/
theorem Order.fields_iff (o : Order) (first n : Nat) :
    (n ≤ 8 ∧ ∀ i < n, o.writable (first + i) = true) ↔
      (8 < n || !((List.range n).all fun i => o.writable (first + i))) = false := by
  simp

/-- Settles O29. -/
theorem placeAndAmendCheckInOrder : Obligations.PlaceAndAmendCheckInOrder := by
  refine ⟨⟨setpointOk_iff, leaseOk_iff, State.mayPlace_iff, Term.inRange_iff, fun o => ⟨?_, fun i => ?_, ?_⟩⟩,
    fun p tag channel cls terms lease v s takes => ?_, fun p tag slot inc first front count gen v s takes => ?_⟩
  · unfold Order.inRange
    simp [and_assoc]
  · rw [o.writable_iff]
    cases o.channel <;>
      · simp only [usedSetpoints]
        omega
  · intro first ws writable
    have fields : ∀ i < ws.length, claimField (first + i) := fun i lt => claimField_of_writable (writable i lt)
    have same := o.rewritten_writeFields first ws
    have marks := fun m => o.mark_writeFields first ws fields (m := m)
    refine ⟨same.channel, same.owner, fun s k i lt => s.fieldOf_writeFields k o first ws fields lt, fun n => ?_⟩
    cases n with
    | first => exact ⟨marks 16 (by decide) (by decide), marks 17 (by decide) (by decide), marks 18 (by decide) (by decide),
        marks 19 (by decide) (by decide)⟩
    | second => exact ⟨marks 20 (by decide) (by decide), marks 21 (by decide) (by decide), marks 22 (by decide) (by decide),
        marks 23 (by decide) (by decide)⟩
  · refine ⟨fun bad => ?_, fun ch names low => ?_⟩
    · dsimp only
      rw [exec_place takes, State.runPlace_badRequest bad]
      rfl
    · refine ⟨fun stopped => exec_place_refused takes names low ?_ tag,
        fun running denied => exec_place_refused takes names low ?_ tag,
        fun running may out => exec_place_refused takes names low ?_ tag,
        fun running may fine full => exec_place_refused takes names low ?_ tag,
        fun running may fine room none => exec_place_refused takes names low ?_ tag⟩
      all_goals unfold State.placeCheck
      · simp [stopped]
      · simp [running, denied]
      · simp only [running, may, out, Bool.not_true, Bool.not_false, Bool.false_eq_true, if_false, if_true]
      · simp only [running, may, fine, full, Bool.not_true, Bool.false_eq_true, if_false, if_true]
      · simp only [running, may, fine, show ¬ quota s.items p ≤ s.live p by omega, none, Bool.not_true, Bool.false_eq_true,
          if_false]
  · refine ⟨fun unknown => exec_amend_stale takes unknown tag first front count gen v, fun o named => ?_⟩
    refine ⟨fun foreign => exec_amend_refused takes named ?_ tag front,
      fun own lapsed => exec_amend_refused takes named ?_ tag front,
      fun own alive other => exec_amend_refused takes named ?_ tag front,
      fun own alive same bad => exec_amend_refused takes named ?_ tag front,
      fun own alive same fields out => exec_amend_refused takes named ?_ tag front⟩
    all_goals unfold Order.amendCheck
    · rw [if_pos foreign]
    · rw [if_neg (not_not.mpr own), if_pos lapsed]
    · rw [if_neg (not_not.mpr own), if_neg alive, if_pos other]
    · rw [o.fields_iff, Bool.not_eq_false] at bad
      rw [if_neg (not_not.mpr own), if_neg alive, if_neg (not_not.mpr same), if_pos bad]
    · rw [o.fields_iff] at fields
      rw [if_neg (not_not.mpr own), if_neg alive, if_neg (not_not.mpr same), fields]
      simp [out]

end Sys2Proof.Machine
end

section
/-! SUPPORT and O33. Resolution: the walk of a list, and the hand-over that may follow it (R11). -/

namespace Sys2Proof.Machine

variable {s t u : State}

/-! The walk. -/

/-- What the walk of a list leaves alone: everything but the order table and the ports. -/
structure UnitsStay (s t : State) : Prop where
  flow : t.flow = s.flow
  sq : t.sq = s.sq
  acu : t.acu = s.acu
  hr : t.hr = s.hr
  tbu : t.tbu = s.tbu
  cs : t.cs = s.cs
  inputs : t.inputs = s.inputs
  mu : t.mu = s.mu
  fu : t.fu = s.fu
  lcu : t.lcu = s.lcu
  os : t.os = s.os

namespace UnitsStay

theorem refl (s : State) : UnitsStay s s := ⟨rfl, rfl, rfl, rfl, rfl, rfl, rfl, rfl, rfl, rfl, rfl⟩

theorem trans (h : UnitsStay s t) (g : UnitsStay t u) : UnitsStay s u :=
  ⟨g.flow.trans h.flow, g.sq.trans h.sq, g.acu.trans h.acu, g.hr.trans h.hr, g.tbu.trans h.tbu, g.cs.trans h.cs,
   g.inputs.trans h.inputs, g.mu.trans h.mu, g.fu.trans h.fu, g.lcu.trans h.lcu, g.os.trans h.os⟩

theorem causes (h : CausesOnly s t) : UnitsStay s t :=
  ⟨h.flow, h.sq, h.acu, h.hr, h.tbu, h.cs, h.inputs, h.mu, h.fu, h.lcu, h.os⟩

theorem setOrder (s : State) (k : Nat) (o : Order) : UnitsStay s (s.setOrder k o) :=
  ⟨rfl, rfl, rfl, rfl, rfl, rfl, rfl, rfl, rfl, rfl, rfl⟩

theorem resolveSlot (s : State) (quiet : Option Nat) (k : Nat) (o : Order) (st : OrderState) :
    UnitsStay s (s.resolveSlot quiet k o st) := by
  unfold State.resolveSlot
  dsimp only
  split
  · exact .refl s
  · split
    · exact .setOrder ..
    · exact (setOrder s k _).trans (.causes ((CausesOnly.refl _).noteChange k o))

theorem resolveWalk (quiet : Option Nat) (l : List Nat) (first : Bool) (s : State) :
    UnitsStay s (s.resolveWalk quiet l first) := by
  induction l generalizing first s with
  | nil => exact .refl s
  | cons k l ih =>
    unfold State.resolveWalk
    split
    · exact (UnitsStay.resolveSlot s quiet k _ _).trans (ih _ _)
    · exact ih _ _

end UnitsStay

/-- A slot that stands in a changed-order set stays there through touches. -/
theorem Touches.changed (m : Touches s t) {p : Port} {k : Nat} (h : k ∈ (s.port p).changed) : k ∈ (t.port p).changed := by
  refine m.keep (P := fun u => k ∈ (u.port p).changed) (fun v w m h => ?_) h
  cases m with
  | frame otu leases cs rp =>
    unfold State.port
    rw [rp]
    exact h
  | cause q c =>
    rw [State.changed_setCause]
    exact h
  | enter q live =>
    rw [State.changed_enterSet]
    split
    · exact mem_insertSlot.mpr (.inr h)
    · exact h
  | write live same => exact h

/-- An order that a walk gives another state is in the changed-order set of its owner's port (R11, R16). -/
theorem State.changed_resolveWalk (l : List Nat) (hl : l.Nodup) :
    ∀ (first : Bool) (s : State) {k : Nat} {o o' : Order}, k ∈ l → s.order k = some o →
      (s.resolveWalk none l first).order k = some o' → o'.state ≠ o.state →
      k ∈ ((s.resolveWalk none l first).port o.owner.port).changed := by
  induction l with
  | nil => exact fun _ _ _ _ _ mem => absurd mem List.not_mem_nil
  | cons j l ih =>
    intro first s k o o' mem live after ne
    obtain ⟨notMem, nodup⟩ := List.nodup_cons.mp hl
    unfold State.resolveWalk at after ⊢
    by_cases hj : k = j
    · subst hj
      simp only [live] at after ⊢
      rw [State.order_resolveWalk none l nodup, if_neg notMem, State.order_resolveSlot live, if_pos rfl,
        Option.some.injEq] at after
      have differs : o.state ≠ o.stateBy first := by
        subst after
        exact ne.symm
      refine ((Touches.refl _).resolveWalk none l _).changed ?_
      unfold State.resolveSlot
      simp only [differs, if_false, reduceCtorEq]
      exact State.mem_changed_enterSet _ _ k
    · have mem : k ∈ l := (List.mem_cons.mp mem).resolve_left hj
      cases other : s.order j with
      | none =>
        simp only [other] at after ⊢
        exact ih nodup _ _ mem live after ne
      | some o2 =>
        simp only [other] at after ⊢
        refine ih nodup _ _ mem ?_ after ne
        rw [State.order_resolveSlot other, if_neg hj]
        exact live

/-! Hand-overs. -/

theorem State.handOver_eq (running : s.running = true) (ch : Channel) :
    s.handOver ch = match ch with | .gear => s.sqTake | .axle => s.acuTake | .hitch => s.hrTake | .tbrake => s.tbuTake := by
  cases ch <;> exact if_neg (by simp [running])

theorem State.handOver_stopped (stopped : s.running = false) (ch : Channel) : s.handOver ch = s := by
  unfold State.handOver
  simp only [stopped, Bool.not_false, if_true]

/-- A hand-over leaves the order table, the leases and the ports alone. -/
theorem State.handOver_frame (s : State) (ch : Channel) :
    (s.handOver ch).otu = s.otu ∧ (s.handOver ch).lcu = s.lcu ∧ (s.handOver ch).rp = s.rp := by
  unfold State.handOver
  split
  · exact ⟨rfl, rfl, rfl⟩
  · cases ch with
    | gear => exact have job := (JobOnly.refl s).sqTake; ⟨job.otu, job.lcu, job.rp⟩
    | axle => exact have job := (JobOnly.refl s).acuTake; ⟨job.otu, job.lcu, job.rp⟩
    | hitch => exact have job := (JobOnly.refl s).hrTake; ⟨job.otu, job.lcu, job.rp⟩
    | tbrake => exact ⟨rfl, rfl, rfl⟩

theorem Hr.taken_trimTake (h : Hr) (now : Time) (slips : Bool) : (h.trimTake now slips).taken = h.taken := by
  unfold Hr.trimTake Hr.fall
  split
  · split <;> rfl
  · rfl

/-- The orders as taken after a hand-over: that channel's unit takes its governing order, every other stays with its own. -/
theorem State.takenBy_handOver (running : s.running = true) (ch c : Channel) :
    (s.handOver ch).takenBy c = if c = ch then s.takenNow ch else s.takenBy c := by
  rw [State.handOver_eq running]
  cases ch with
  | gear =>
    have kept := s.kept_sqTake
    simp only [State.kept, Sq.kept, Acu.kept, Hr.kept, Prod.mk.injEq] at kept
    obtain ⟨⟨gear, -⟩, ⟨axle, -⟩, hitch, -⟩ := kept
    cases c
    · exact gear
    · exact axle
    · exact hitch
    · exact congrArg Tbu.taken (JobOnly.refl s).sqTake.tbu
  | axle =>
    have kept := s.kept_acuTake
    simp only [State.kept, Sq.kept, Acu.kept, Hr.kept, Prod.mk.injEq] at kept
    obtain ⟨⟨gear, -⟩, ⟨axle, -⟩, hitch, -⟩ := kept
    cases c
    · exact gear
    · exact axle
    · exact hitch
    · exact congrArg Tbu.taken (JobOnly.refl s).acuTake.tbu
  | hitch =>
    have kept := s.kept_hrTake
    simp only [State.kept, Sq.kept, Acu.kept, Hr.kept, Prod.mk.injEq, Hr.taken_trimTake] at kept
    obtain ⟨⟨gear, -⟩, ⟨axle, -⟩, hitch, -⟩ := kept
    cases c
    · exact gear
    · exact axle
    · exact hitch
    · exact congrArg Tbu.taken (JobOnly.refl s).hrTake.tbu
  | tbrake => cases c <;> rfl

/-- The order that a unit takes is the governing order of its channel. -/
theorem State.takenNow_eq {ch : Channel} {k : Nat} {o : Order} (governs : s.governing ch = some k)
    (live : s.order k = some o) : s.takenNow ch = some ⟨s.handle k, o.setpoint⟩ := by
  unfold State.takenNow
  simp only [governs, live, Option.map_some]

/-! Resolution. -/

/-- A resolution before the hand-over. -/
def State.walked (s : State) (ch : Channel) (quiet : Option Nat) : State := s.resolveWalk quiet (s.list ch) true

/-- A resolution is handed over: the governing order has changed, or its setpoint was amended (R11). -/
def State.handed (s : State) (ch : Channel) (quiet amended : Option Nat) : Prop :=
  (s.walked ch quiet).governing ch ≠ s.governing ch ∨
    (((s.walked ch quiet).governing ch).isSome ∧ (s.walked ch quiet).governing ch = amended)

theorem State.resolve_handed {ch : Channel} {quiet amended : Option Nat} (h : s.handed ch quiet amended) :
    s.resolve ch quiet amended = (s.walked ch quiet).handOver ch := if_pos h

theorem State.resolve_kept {ch : Channel} {quiet amended : Option Nat} (h : ¬ s.handed ch quiet amended) :
    s.resolve ch quiet amended = s.walked ch quiet := if_neg h

/-- The table, the leases and the ports after a resolution are those after the walk. -/
theorem State.resolve_frame (s : State) (ch : Channel) (quiet amended : Option Nat) :
    (s.resolve ch quiet amended).otu = (s.walked ch quiet).otu ∧ (s.resolve ch quiet amended).lcu = s.lcu ∧
      (s.resolve ch quiet amended).rp = (s.walked ch quiet).rp := by
  have stays := UnitsStay.resolveWalk quiet (s.list ch) true s
  by_cases h : s.handed ch quiet amended
  · obtain ⟨otu, lcu, rp⟩ := (s.walked ch quiet).handOver_frame ch
    rw [State.resolve_handed h]
    exact ⟨otu, lcu.trans stays.lcu, rp⟩
  · rw [State.resolve_kept h]
    exact ⟨rfl, stays.lcu, rfl⟩

/-- States with one order table have the same orders, lists and governing orders. -/
theorem State.order_congr (h : t.otu = s.otu) (k : Nat) : t.order k = s.order k := by
  unfold State.order
  rw [h]

theorem State.handle_congr (h : t.otu = s.otu) (k : Nat) : t.handle k = s.handle k := by
  unfold State.handle State.incarnation
  rw [h]

theorem State.governing_congr (h : t.otu = s.otu) (ch : Channel) : t.governing ch = s.governing ch := by
  unfold State.governing State.isGoverning State.list
  simp only [State.order_congr h, h]

theorem State.order_resolve (s : State) (ch : Channel) (quiet amended : Option Nat) (k : Nat) :
    (s.resolve ch quiet amended).order k = (s.walked ch quiet).order k :=
  State.order_congr (s.resolve_frame ch quiet amended).1 k

theorem State.governing_resolve (s : State) (ch : Channel) (quiet amended : Option Nat) (c : Channel) :
    (s.resolve ch quiet amended).governing c = (s.walked ch quiet).governing c :=
  State.governing_congr (s.resolve_frame ch quiet amended).1 c

/-- A resolution gives every order of a list without repeats the state of R10. -/
theorem State.order_resolve_mem {ch : Channel} (nodup : (s.list ch).Nodup) {k : Nat} {o : Order} (mem : k ∈ s.list ch)
    (live : s.order k = some o) (quiet amended : Option Nat) :
    (s.resolve ch quiet amended).order k = some (o.resolved (s.noneBefore (s.list ch) k)) := by
  rw [State.order_resolve]
  unfold State.walked
  rw [State.order_resolveWalk quiet _ nodup, if_pos mem, live, Option.map_some, Bool.true_and]

/-- Hand-overs in the words of the state that the resolution leaves. -/
theorem State.handed_iff (s : State) (ch : Channel) (quiet amended : Option Nat) :
    s.handed ch quiet amended ↔
      (s.resolve ch quiet amended).governing ch ≠ s.governing ch ∨
        ∃ k, amended = some k ∧ (s.resolve ch quiet amended).governing ch = some k := by
  unfold State.handed
  rw [State.governing_resolve]
  refine or_congr .rfl ⟨?_, ?_⟩
  · rintro ⟨some, same⟩
    obtain ⟨k, governs⟩ := Option.isSome_iff_exists.mp some
    exact ⟨k, same ▸ governs, governs⟩
  · rintro ⟨k, rfl, governs⟩
    exact ⟨by rw [governs]; rfl, governs⟩

/-- A hand-over as a channel is resolved in RUN: the unit takes the governing order, and no other unit takes any. -/
theorem State.takenBy_resolve (running : s.running = true) {ch : Channel} {quiet amended : Option Nat}
    (h : s.handed ch quiet amended) :
    (∀ k o, (s.resolve ch quiet amended).governing ch = some k → (s.resolve ch quiet amended).order k = some o →
      (s.resolve ch quiet amended).takenBy ch = some ⟨(s.resolve ch quiet amended).handle k, o.setpoint⟩) ∧
    ∀ c, c ≠ ch → (s.resolve ch quiet amended).takenBy c = s.takenBy c := by
  have stays := UnitsStay.resolveWalk quiet (s.list ch) true s
  have running : (s.walked ch quiet).running = true := by
    unfold State.running
    rw [show (s.walked ch quiet).cs = s.cs from stays.cs]
    exact running
  obtain ⟨otu, -, -⟩ := s.resolve_frame ch quiet amended
  rw [State.resolve_handed h] at otu ⊢
  refine ⟨fun k o governs live => ?_, fun c ne => ?_⟩
  · rw [State.takenBy_handOver running, if_pos rfl, State.handle_congr otu]
    exact State.takenNow_eq (State.governing_congr otu ch ▸ governs) (State.order_congr otu k ▸ live)
  · rw [State.takenBy_handOver running, if_neg ne]
    unfold State.walked State.takenBy
    rw [stays.sq, stays.acu, stays.hr, stays.tbu]

/-- Settles O33. -/
theorem resolutionGivesStates : Obligations.ResolutionGivesStates := by
  refine ⟨fun s ch amended k o nodup mem live => ?_, fun s ch quiet amended => ?_⟩
  · have after := State.order_resolve_mem nodup mem live none amended
    refine ⟨_, after, rfl, rfl, rfl, rfl, fun changed => ?_⟩
    unfold State.port
    rw [(s.resolve_frame ch none amended).2.2]
    rw [State.order_resolve] at after
    exact State.changed_resolveWalk _ nodup true s mem live after changed
  · have stays := UnitsStay.resolveWalk quiet (s.list ch) true s
    have still : ∀ w : State, UnitsStay s w → w.flow = s.flow ∧ w.sq = s.sq ∧ w.acu = s.acu ∧ w.hr = s.hr ∧ w.tbu = s.tbu ∧
        w.cs = s.cs ∧ w.inputs = s.inputs ∧ w.mu = s.mu ∧ w.fu = s.fu ∧ w.lcu = s.lcu ∧ w.os = s.os := fun w h =>
      ⟨h.flow, h.sq, h.acu, h.hr, h.tbu, h.cs, h.inputs, h.mu, h.fu, h.lcu, h.os⟩
    have running : (s.walked ch quiet).running = s.running := by
      unfold State.running
      rw [show (s.walked ch quiet).cs = s.cs from stays.cs]
    dsimp only
    rw [← State.handed_iff]
    refine ⟨fun run handed => ?_, fun idle => still _ ?_⟩
    · obtain ⟨own, others⟩ := State.takenBy_resolve run handed
      refine ⟨own, others, s.walked ch quiet, still _ stays, (s.resolve_frame ch quiet amended).1.symm, ?_⟩
      rw [State.resolve_handed handed]
      exact (State.handOver_eq (running.trans run) ch).trans (by cases ch <;> rfl)
    · by_cases handed : s.handed ch quiet amended
      · have stopped := idle.resolve_right (not_not.mpr handed)
        rw [State.resolve_handed handed, State.handOver_stopped (running.trans stopped)]
        exact stays
      · rw [State.resolve_kept handed]
        exact stays

end Sys2Proof.Machine
end

section
/-! SUPPORT and O32. What a claim on the order table leaves alone once it is settled, and RETIRE (R3, R23). -/

namespace Sys2Proof.Machine

variable {s t u : State} {p : Port}

/-! The frame of a settled claim. -/

/-- What no claim on the order table changes. -/
structure OutsideClaims (s t : State) : Prop where
  cs : t.cs = s.cs
  inputs : t.inputs = s.inputs
  fu : t.fu = s.fu
  conv : t.mu.conv = s.mu.conv
  pub : t.mu.pub = s.mu.pub
  now : t.now = s.now
  ports : ∀ p, PortOnly (s.port p) (t.port p)

theorem OutsideClaims.settled (h : ClaimOnly s u) (old : Sq) : OutsideClaims s (u.settle old) := by
  have kept := (SettleOnly.refl u).settle old
  exact ⟨kept.cs.trans h.cs, kept.inputs.trans h.inputs, kept.fu.trans h.fu, by rw [kept.mu, h.mu], by rw [kept.mu, h.mu],
    kept.now.trans h.now, fun p => (h.ports p).trans (kept.ports p)⟩

namespace SettleOnly

theorem takenBy (h : SettleOnly s t) (ch : Channel) : t.takenBy ch = s.takenBy ch := by
  unfold State.takenBy
  rw [h.sq, h.acu, h.hr, h.tbu]

/-- An order keeps its record through the end of an event, but for its keeping and what the LCU keeps of it. -/
theorem order_some (h : SettleOnly s t) {k : Nat} {o : Order} (live : s.order k = some o) :
    ∃ o', t.order k = some o' ∧ o'.still = o.still := by
  have e := h.order k
  rw [live, Option.map_some] at e
  exact Option.map_eq_some_iff.mp e

end SettleOnly

theorem Order.body_of_still {o o' : Order} (h : o'.still = o.still) : o'.body = o.body := by
  unfold Order.body
  rw [h]

theorem Order.state_of_still {o o' : Order} (h : o'.still = o.still) : o'.state = o.state := congrArg (·.state) h

theorem Order.cond_of_still {o o' : Order} (h : o'.still = o.still) : o'.cond = o.cond := congrArg (·.cond) h

/-- An order keeps what its placement and its amendments wrote. -/
theorem SameOrders.order_some (h : SameOrders s t) {k : Nat} {o : Order} (live : s.order k = some o) :
    ∃ o', t.order k = some o' ∧ o'.body = o.body := by
  have e := h.body k
  rw [live, Option.map_some] at e
  exact Option.map_eq_some_iff.mp e

theorem SameOrders.order_none (h : SameOrders s t) {k : Nat} (free : s.order k = none) : t.order k = none := by
  have e := h.body k
  rw [free, Option.map_none] at e
  exact Option.map_eq_none_iff.mp e

theorem SameOrders.list (h : SameOrders s t) (ch : Channel) : t.list ch = s.list ch := by
  unfold State.list
  rw [h.lists]

theorem SameOrders.liveCount (h : SameOrders s t) (q : Port) : t.live q = s.live q := by
  unfold State.live
  rw [h.live]

/-- A resolved and settled claim keeps its orders. -/
theorem SameOrders.resolved (s : State) (ch : Channel) (quiet amended : Option Nat) (old : Sq) :
    SameOrders s ((s.resolve ch quiet amended).settle old) :=
  ((SameOrders.refl s).resolve ch quiet amended).trans ((SettleOnly.refl _).settle old).states.orders

/-- A resolved and settled claim leaves the leases. -/
theorem State.leases_resolved (s : State) (ch : Channel) (quiet amended : Option Nat) (old : Sq) :
    ((s.resolve ch quiet amended).settle old).lcu.leases = s.lcu.leases := by
  rw [((SettleOnly.refl _).settle old).leases, (s.resolve_frame ch quiet amended).2.1]

/-! Frees. -/

theorem State.incarnation_freeOrder_self {k : Nat} {o : Order} (live : s.order k = some o) :
    (s.freeOrder k o).incarnation k = s.incarnation k + 1 := by
  have set : ∀ u : State, u.otu.slots = s.otu.slots → ∀ sl : Slot, (u.setSlot k sl).incarnation k = sl.inc := by
    intro u same sl
    unfold State.incarnation
    simp [same, State.order_lt live]
  unfold State.freeOrder
  dsimp only
  split <;> exact set _ rfl _

theorem State.live_freeOrder (s : State) (k : Nat) (o : Order) (q : Port) :
    (s.freeOrder k o).live q = if o.owner.countPort = some q then s.live q - 1 else s.live q := by
  unfold State.freeOrder
  dsimp only
  cases o.owner.countPort with
  | none => rfl
  | some r =>
    refine (State.live_setLive _ r q _).trans ?_
    by_cases same : q = r
    · subst same
      simp only [if_true]
      rfl
    · rw [if_neg same, if_neg (fun h => same (Option.some.inj h).symm)]
      rfl

theorem State.leases_freeOrder (s : State) (k : Nat) (o : Order) :
    (s.freeOrder k o).lcu.leases = removeLease k s.lcu.leases := by
  unfold State.freeOrder
  dsimp only
  split <;> rfl

theorem State.port_freeOrder (s : State) (k : Nat) (o : Order) (q : Port) :
    (s.freeOrder k o).port q = (s.leaveSet o.owner.port k).port q := by
  unfold State.freeOrder
  dsimp only
  split <;> rfl

theorem ownerOf_port (p : Port) : (ownerOf p).port = p := by cases p <;> rfl

theorem ownerOf_countPort (p : Port) : (ownerOf p).countPort = some p := by cases p <;> rfl

theorem port_other_ne (p : Port) : p.other ≠ p := by cases p <;> decide

/-- A slot that holds no order and stands in no set enters none through touches (R3). -/
theorem Touches.unset (m : Touches s t) {k : Nat} (free : s.order k = none) (out : k ∉ (s.port p).changed) :
    k ∉ (t.port p).changed := by
  have kept : t.order k = none ∧ k ∉ (t.port p).changed := by
    refine m.keep (P := fun u => u.order k = none ∧ k ∉ (u.port p).changed) (fun v w m h => ?_) ⟨free, out⟩
    obtain ⟨free, out⟩ := h
    cases m with
    | frame otu leases cs rp =>
      rw [State.order_congr otu]
      unfold State.port
      rw [rp]
      exact ⟨free, out⟩
    | cause q c =>
      rw [State.order_congr ((CausesOnly.refl v).setCause q c).otu, State.changed_setCause]
      exact ⟨free, out⟩
    | @enter q j o live =>
      rw [State.order_congr ((CausesOnly.refl v).enterSet q j).otu, State.changed_enterSet]
      refine ⟨free, ?_⟩
      split
      · rintro mem
        rcases mem_insertSlot.mp mem with rfl | mem
        · rw [free] at live
          cases live
        · exact out mem
      · exact out
    | @write j o o' live same =>
      rw [State.order_setOrder_live live]
      refine ⟨?_, out⟩
      rw [if_neg, free]
      rintro rfl
      rw [free] at live
      cases live
  exact kept.2

theorem exec_retire (takes : (s.port p).takes) (tag slot inc : Byte) (gen : Word) :
    exec (.retire p tag slot inc gen) s =
      .next (((s.risen p).runRetire p tag slot inc gen).1.answering p ((s.risen p).runRetire p tag slot inc gen).2) :=
  congrArg _ (State.request_answers takes 5 tag _)

/-- Settles O32. -/
theorem retireFreesTheOrder : Obligations.RetireFreesTheOrder := by
  intro p tag slot inc gen s takes
  simp only [CompletesWith, exec_retire takes]
  unfold State.runRetire
  simp only [show (s.risen p).lookup ⟨slot, inc⟩ = s.lookup ⟨slot, inc⟩ from rfl]
  refine ⟨fun unknown => ?_, fun o named => ?_⟩
  · rw [unknown]
    rfl
  · have live : (s.risen p).order slot.toNat = some o := (Acts.lookup_order named).2
    simp only [named]
    refine ⟨fun foreign => ?_, fun own other differs => ?_, fun own fits => ?_⟩
    · rw [if_pos foreign, State.answerOn_live live]
    · rw [if_neg (not_not.mpr own), if_pos ⟨other, differs⟩, State.answerOn_live live]
    · have fine : ¬ (gen ≠ 0 ∧ gen ≠ o.gen) := by tauto
      rw [if_neg (not_not.mpr own), if_neg fine]
      refine ⟨_, rfl, ?_⟩
      generalize freed : (s.risen p).freeOrder slot.toNat o = f
      have order := State.order_freeOrder live
      have same := SameOrders.resolved f o.channel none none (s.risen p).sq
      have keeps := OutsideClaims.settled ((((ClaimOnly.refl (s.risen p)).freeOrder slot.toNat o)).resolve o.channel none none)
        (s.risen p).sq
      rw [freed] at order keeps
      have free : f.order slot.toNat = none := by rw [order, if_pos rfl]
      have unset := ((((Touches.refl f).resolve o.channel none none).settle (s.risen p).sq).unset (p := p) free)
      have leases := f.leases_resolved o.channel none none (s.risen p).sq
      generalize (f.resolve o.channel none none).settle (s.risen p).sq = w at same keeps unset leases ⊢
      refine ⟨same.order_none free, (same.inc _).trans ?_, (same.liveCount p).trans ?_, (same.liveCount _).trans ?_,
        (same.list _).trans ?_, fun c ne => (same.list c).trans ?_, ?_, ?_, ?_, fun j ne => ⟨(same.inc j).trans ?_,
        (same.body j).trans ?_⟩, keeps.cs, keeps.inputs, keeps.fu, keeps.conv, keeps.pub, keeps.now⟩
      · rw [← freed]
        exact State.incarnation_freeOrder_self live
      · rw [← freed, State.live_freeOrder, own, ownerOf_countPort, if_pos rfl]
        rfl
      · rw [← freed, State.live_freeOrder, own, ownerOf_countPort, if_neg fun h => port_other_ne p (Option.some.inj h).symm]
        rfl
      · rw [← freed, State.list_freeOrder, if_pos rfl]
        rfl
      · rw [← freed, State.list_freeOrder, if_neg ne]
        rfl
      · rw [State.port_answering_self]
        refine unset ?_
        rw [← freed, State.port_freeOrder, own, ownerOf_port]
        unfold State.leaveSet
        rw [State.port_setPort, if_pos rfl]
        simp
      · refine leases.trans ?_
        rw [← freed, State.leases_freeOrder]
        rfl
      · rw [State.port_answering_self]
      · rw [← freed]
        exact State.incarnation_freeOrder _ ne o
      · rw [order, if_neg ne]
        rfl

end Sys2Proof.Machine
end

section
/-! SUPPORT and O28. The place of an order on its list (R12), and PLACE (R18, R19). -/

namespace Sys2Proof.Machine

variable {s : State} {p : Port}

/-! Class segments (R12). -/

/-- The class of a slot after its order is written. -/
theorem State.clsOf_setOrder {k : Nat} (lt : k < s.otu.slots.length) (o : Order) (j : Nat) :
    (s.setOrder k o).clsOf j = if j = k then o.cls else s.clsOf j := by
  unfold State.clsOf
  rw [State.order_setOrder]
  simp only [lt, and_true]
  split <;> rfl

/-- A slot goes in behind the entries of lower classes that lead the list. -/
theorem insertClass_eq {cls cls' : Nat → Nat} {k c : Nat} {l : List Nat} (here : cls' k = c)
    (others : ∀ j ∈ l, cls' j = cls j) :
    insertClass cls' k l =
      (l.takeWhile fun j => cls j < c) ++ k :: l.drop (l.takeWhile fun j => cls j < c).length := by
  induction l with
  | nil => rfl
  | cons x l ih =>
    unfold insertClass
    rw [here, others x List.mem_cons_self, ih fun j mem => others j (List.mem_cons_of_mem x mem)]
    by_cases lower : cls x < c <;> simp [lower]

/-! The table as an order enters it (R19). -/

theorem State.list_entered (s : State) (p : Port) (k : Nat) (o : Order) (c : Channel) :
    (s.entered p k o).list c =
      if c = o.channel then insertClass (s.setOrder k o).clsOf k ((s.list o.channel).filter (· ≠ k)) else s.list c := by
  have front : ∀ u : State, u.otu.lists = s.otu.lists →
      (u.moveFront o.channel k).list c =
        if c = o.channel then insertClass u.clsOf k ((s.list o.channel).filter (· ≠ k)) else s.list c := by
    intro u same
    unfold State.moveFront
    rw [State.list_setList]
    unfold State.list
    rw [same]
  unfold State.entered
  dsimp only
  split <;> exact front _ rfl

theorem State.live_entered (s : State) (p : Port) (k : Nat) (o : Order) (q : Port) :
    (s.entered p k o).live q = if q = p then s.live p + 1 else s.live q := by
  rw [← State.live_setLive]
  unfold State.entered
  dsimp only
  split <;> rfl

theorem State.leases_entered (s : State) (p : Port) (k : Nat) (o : Order) :
    (s.entered p k o).lcu.leases =
      if o.lease = 0 then s.lcu.leases
      else insertLease s.now ⟨k, s.now + o.lease.setWidth 32⟩ (removeLease k s.lcu.leases) := by
  unfold State.entered
  dsimp only
  split
  · rfl
  · next leased =>
    rw [State.restartLease_leased k leased]
    rfl

/-- The list of a channel after a new order enters it (R12). -/
theorem State.list_entered_new {k : Nat} (lt : k < s.otu.slots.length) {o : Order} (new : k ∉ s.list o.channel) :
    (s.entered p k o).list o.channel =
      ((s.list o.channel).takeWhile fun j => s.clsOf j < o.cls) ++
        k :: (s.list o.channel).drop ((s.list o.channel).takeWhile fun j => s.clsOf j < o.cls).length := by
  have all : (s.list o.channel).filter (· ≠ k) = s.list o.channel := by
    rw [List.filter_eq_self]
    intro j mem
    have ne : j ≠ k := by
      rintro rfl
      exact new mem
    simpa using ne
  rw [State.list_entered, if_pos rfl, all]
  refine insertClass_eq ?_ fun j mem => ?_
  · rw [State.clsOf_setOrder lt, if_pos rfl]
  · have ne : j ≠ k := by
      rintro rfl
      exact new mem
    rw [State.clsOf_setOrder lt, if_neg ne]

/-- An entry among the others of a list without repeats: the list still has none, and the entry's place is where it was
put. -/
theorem takeWhile_middle {a b : List Nat} {k : Nat} (new : k ∉ a ++ b) (nodup : (a ++ b).Nodup) :
    (a ++ k :: b).Nodup ∧ (a ++ k :: b).takeWhile (· ≠ k) = a := by
  refine ⟨List.nodup_middle.mpr (List.nodup_cons.mpr ⟨new, nodup⟩), ?_⟩
  rw [List.takeWhile_append_of_pos, List.takeWhile_cons_of_neg (by simp), List.append_nil]
  intro j mem
  have ne : j ≠ k := by
    rintro rfl
    exact new (List.mem_append_left b mem)
  simpa using ne

/-- The state of a new order among the orders of its channel (R10, R19). -/
theorem State.order_placeAt {k : Nat} (lt : k < s.otu.slots.length) {o : Order} (new : k ∉ s.list o.channel)
    (nodup : (s.list o.channel).Nodup) :
    let before := (s.list o.channel).takeWhile fun j => s.clsOf j < o.cls
    (s.placeAt p k o).order k =
      some (o.resolved (before.all fun j => !(s.order j).any Order.eligible)) := by
  intro before
  have list : (s.entered p k o).list o.channel = before ++ k :: (s.list o.channel).drop before.length :=
    State.list_entered_new lt new
  have parts : before ++ (s.list o.channel).drop before.length = s.list o.channel :=
    List.prefix_iff_eq_append.mp (List.takeWhile_prefix _)
  obtain ⟨nodup', place⟩ := takeWhile_middle (parts.symm ▸ new) (parts.symm ▸ nodup)
  have live : (s.entered p k o).order k = some o := by rw [State.order_entered lt, if_pos rfl]
  rw [State.placeAt_eq, State.order_resolve_mem (list ▸ nodup') (by rw [list]; simp) live]
  unfold State.noneBefore
  rw [list, place]
  refine congrArg (fun b => some (o.resolved b)) ?_
  rw [Bool.eq_iff_iff, List.all_eq_true, List.all_eq_true]
  refine forall₂_congr fun j mem => ?_
  rw [State.order_entered lt, if_neg]
  rintro rfl
  exact new (parts ▸ List.mem_append_left _ mem)

/-- A new order that comes to govern is handed over: it stood on no list before (R11). -/
theorem State.takenBy_placeAt {k : Nat} (lt : k < s.otu.slots.length) {o : Order} (dormant : o.state = .dormant)
    (running : s.running = true) {o' : Order} (governs : (s.placeAt p k o).governing o.channel = some k)
    (live : (s.placeAt p k o).order k = some o') :
    (s.placeAt p k o).takenBy o.channel = some ⟨(s.placeAt p k o).handle k, o'.setpoint⟩ := by
  have entered : (s.entered p k o).order k = some o := by rw [State.order_entered lt, if_pos rfl]
  have run : (s.entered p k o).running = true := by
    unfold State.entered
    dsimp only
    split <;> exact running
  rw [State.placeAt_eq] at governs live ⊢
  have handed : (s.entered p k o).handed o.channel (some k) none := by
    rw [State.handed_iff, governs]
    refine .inl fun same => ?_
    have now := State.state_of_governing same.symm entered
    rw [dormant] at now
    cases now
  exact (State.takenBy_resolve run handed).1 k o' governs live

/-- A PLACE that passes its checks answers with the eight leading fields of its order as they stand at its end (R19). -/
theorem exec_place_ok (takes : (s.port p).takes) {channel : Byte} {ch : Channel} (names : channelOf channel = some ch)
    {cls terms : Byte} (low : cls.toNat ≤ 3) {lease : Word} {v : Values} {k : Nat} (lt : k < 48)
    (ok : s.placeCheck p ch cls.toNat terms.toNat lease v = .ok k) {w : State}
    (placing : w = ((s.risen p).placeAt p k (placed p ch cls.toNat terms.toNat lease v)).settle (s.risen p).sq) {o : Order}
    (live : w.order k = some o) (tag : Byte) :
    exec (.place p tag channel cls terms lease v) s =
      .next (w.answering p
        ⟨1, tag, .ok, o.state, w.handle k, o.gen, .ofList ((List.range 8).map fun i => w.fieldOf k o i)⟩) := by
  have check : (s.risen p).placeCheck p ch cls.toNat terms.toNat lease v = .ok k := ok
  have slot : w.order (w.handle k).slot.toNat = some o := by rw [w.slot_handle (by omega), live]
  rw [exec_place takes]
  unfold State.runPlace
  simp only [names, check, show ¬ 3 < cls.toNat by omega, if_false, ← placing, live]
  rw [State.answerOn_live slot]
  rfl

/-- The checks of PLACE pass (R18). -/
theorem State.placeCheck_eq_ok {ch : Channel} {cls terms : Nat} {lease : Word} {v : Values} {k : Nat}
    (running : s.running = true) (may : s.mayPlace p ch cls = true) (leased : leaseOk (ownerOf p) lease = true)
    (few : terms ≤ 2) (setpoint : setpointOk ch v = true) (room : s.live p < quota s.items p)
    (free : s.freeSlot = some k) : s.placeCheck p ch cls terms lease v = .ok k := by
  unfold State.placeCheck
  simp only [running, may, leased, few, setpoint, show ¬ quota s.items p ≤ s.live p by omega, free, decide_true,
    Bool.and_true, Bool.not_true, Bool.false_eq_true, if_false]

/-- Settles O28. -/
theorem placeCreatesAnOrder : Obligations.PlaceCreatesAnOrder := by
  intro p tag channel cls terms lease v ch k s takes names running may leased few setpoint room free size nodup new o
    before ahead
  obtain ⟨low, lt, none, lower⟩ := State.freeSlot_eq_some free
  have small : cls.toNat ≤ 3 := by
    rw [State.mayPlace_iff] at may
    cases p
    · exact may.2
    · exact may.2.1
  have ok := State.placeCheck_eq_ok running may leased few setpoint room free
  have inside : k < (s.risen p).otu.slots.length := size.symm ▸ lt
  have placedAt : ((s.risen p).placeAt p k o).order k =
      some (o.resolved (before.all fun j => !(s.order j).any Order.eligible)) :=
    State.order_placeAt (s := s.risen p) inside new nodup
  have taken := fun governs => State.takenBy_placeAt (s := s.risen p) (p := p) (o := o) inside rfl running governs placedAt
  have settled := (SettleOnly.refl ((s.risen p).placeAt p k o)).settle (s.risen p).sq
  have same := SameOrders.resolved ((s.risen p).entered p k o) ch (some k) Option.none (s.risen p).sq
  have leases := State.leases_resolved ((s.risen p).entered p k o) ch (some k) Option.none (s.risen p).sq
  have keeps := OutsideClaims.settled ((ClaimOnly.refl (s.risen p)).placeAt p k o) (s.risen p).sq
  obtain ⟨o', live, still⟩ := settled.order_some placedAt
  have done := fun w placing => exec_place_ok (w := w) takes names small lt ok placing (o := o')
  rw [show ((s.risen p).entered p k o).resolve ch (some k) Option.none = (s.risen p).placeAt p k o from rfl] at same leases
  generalize placing : ((s.risen p).placeAt p k o).settle (s.risen p).sq = w at settled same leases keeps live
  have incarnation : ∀ j, w.incarnation j = s.incarnation j := fun j =>
    (same.inc j).trans (State.incarnation_entered (s.risen p) p k j o)
  have handle : w.handle k = ⟨BitVec.ofNat 8 k, s.incarnation k⟩ := by
    unfold State.handle
    rw [incarnation]
  have gen : o'.gen = 1 := congrArg Order.gen still
  have state : o'.state = if terms = 0 then (if ahead then .outranked else .governing) else .dormant := by
    have zero : terms = 0 ↔ terms.toNat = 0 := by simp [BitVec.toNat_eq]
    have first : (before.all fun j => !(s.order j).any Order.eligible) = !ahead := by
      rw [List.not_any_eq_all_not]
    rw [Order.state_of_still still, first]
    simp only [zero]
    unfold Order.resolved Order.stateBy
    by_cases unconditional : terms.toNat = 0 <;> cases ahead <;> simp [o, placed, unconditional]
  refine ⟨_, done w placing.symm live tag, low, lt, none, lower, ⟨o', live, (Order.body_of_still still).trans rfl, state, ?_⟩, ?_, ?_, ?_,
    ?_, ?_, incarnation, ?_, ?_, keeps.cs, keeps.inputs, keeps.fu, keeps.conv, keeps.pub, keeps.now⟩
  · rw [State.port_answering_self, handle, gen]
    rfl
  · intro governs
    have governs : w.governing ch = some k := governs
    rw [settled.governing] at governs
    refine (settled.takenBy ch).trans ((taken governs).trans ?_)
    unfold State.handle
    rw [← settled.states.inc k, incarnation]
    rfl
  · rw [show ∀ a, (w.answering p a).live p = w.live p from fun _ => rfl, same.liveCount, State.live_entered, if_pos rfl]
    rfl
  · exact (same.liveCount _).trans ((State.live_entered ..).trans (if_neg (port_other_ne p)))
  · exact (same.list ch).trans (State.list_entered_new (s := s.risen p) (o := o) inside new)
  · intro c ne
    exact (same.list c).trans ((State.list_entered ..).trans (if_neg ne))
  · intro j ne
    refine (same.body j).trans (congrArg _ ?_)
    rw [State.order_entered inside, if_neg ne]
    rfl
  · exact leases.trans (State.leases_entered (s.risen p) p k o)

end Sys2Proof.Machine
end

section
/-! SUPPORT and O30. The record and the table after an AMEND (R20, R21). -/

namespace Sys2Proof.Machine

variable {s t : State} {p : Port}

/-! What the body of an order says. -/

/-- The fields of READ other than state, keeping and lease remaining are of the order's body. -/
theorem State.fieldOf_body (s t : State) (k : Nat) (o : Order) {i : Nat} (lt : i < 24) (state : i ≠ 3) (keeping : i ≠ 4)
    (left : i ≠ 6) : t.fieldOf k o.body i = s.fieldOf k o i := by
  interval_cases i <;> trivial

theorem Order.mark_body (o : Order) (m : Nat) : o.body.mark m = o.mark m := by
  unfold Order.mark
  split <;> rfl

theorem State.handTerm_blank (s : State) (r : Term) : ({ s.handTerm r with eval := none } : Term) = { r with eval := none } := by
  unfold State.handTerm Term.afresh
  split
  · split <;> rfl
  · rfl

/-- An AMEND writes the body that its run and its generation give. -/
theorem State.body_amendedRecord (s : State) (o : Order) (first n : Nat) :
    (s.amendedRecord o first n).body = ({ o with gen := if n = 0 then o.gen else nextGen o.gen } : Order).body := by
  have term : ∀ (c : Prop) [Decidable c] (r : Term),
      ({ (if c then s.handTerm r else r) with eval := none } : Term) = { r with eval := none } := by
    intro c _ r
    split
    · exact s.handTerm_blank r
    · rfl
  unfold State.amendedRecord State.handTerms Order.body Order.still
  simp only [term]

/-! The table after an AMEND. -/

theorem State.lcuReport_frame (s : State) (k : Nat) (o : Order) :
    (s.lcuReport k o).otu.lists = s.otu.lists ∧ (s.lcuReport k o).otu.live = s.otu.live ∧
      (s.lcuReport k o).lcu.leases = s.lcu.leases ∧ (s.lcuReport k o).now = s.now ∧
      ∀ j, (s.lcuReport k o).incarnation j = s.incarnation j := by
  unfold State.lcuReport
  dsimp only
  split <;> exact ⟨rfl, rfl, rfl, rfl, fun j => State.incarnation_setOrder ..⟩

theorem State.amended_frame (s : State) (k : Nat) (o : Order) (first n : Nat) :
    (s.amended k o first n).otu.lists = s.otu.lists ∧ (s.amended k o first n).otu.live = s.otu.live ∧
      ∀ j, (s.amended k o first n).incarnation j = s.incarnation j := by
  obtain ⟨lists, live, -, -, inc⟩ := s.lcuReport_frame k
    (s.handTerms { o with gen := if n = 0 then o.gen else nextGen o.gen } first n)
  unfold State.amended
  dsimp only
  by_cases plain : o.termCount = 0
  · simp only [plain, if_true]
    split <;> exact ⟨rfl, rfl, fun j => State.incarnation_setOrder ..⟩
  · simp only [plain, if_false]
    split <;> exact ⟨lists, live, inc⟩

theorem State.leases_amended (s : State) (k : Nat) (o : Order) (first n : Nat) :
    (s.amended k o first n).lcu.leases =
      if inRun first n 5 then
        (if o.lease = 0 then removeLease k s.lcu.leases
         else insertLease s.now ⟨k, s.now + o.lease.setWidth 32⟩ (removeLease k s.lcu.leases))
      else s.lcu.leases := by
  have restarted : ∀ u : State, u.lcu.leases = s.lcu.leases → u.now = s.now →
      (if inRun first n 5 then u.restartLease k o.lease else u).lcu.leases =
        if inRun first n 5 then
          (if o.lease = 0 then removeLease k s.lcu.leases
           else insertLease s.now ⟨k, s.now + o.lease.setWidth 32⟩ (removeLease k s.lcu.leases))
        else s.lcu.leases := by
    intro u leases now
    split
    · unfold State.restartLease
      dsimp only
      rw [leases, now]
    · exact leases
  unfold State.amended
  dsimp only
  refine restarted _ ?_ ?_
  · split
    · rfl
    · exact (s.lcuReport_frame k _).2.2.1
  · split
    · rfl
    · exact (s.lcuReport_frame k _).2.2.2.1

/-- The table after an AMEND, with its order at the front of its class segment where the claim asks for it. -/
def State.fronted (s : State) (k : Nat) (o : Order) (first n : Nat) (front : Bool) : State :=
  if front then (s.amended k o first n).moveFront o.channel k else s.amended k o first n

/-- The order whose setpoint an AMEND has written, if it has (R21). -/
def amendedSetpoint (k first n : Nat) : Option Nat :=
  if (List.range 8).any fun i => inRun first n (8 + i) then some k else none

theorem State.amendAt_eq_fronted (s : State) (k : Nat) (o : Order) (first n : Nat) (front : Bool) :
    s.amendAt k o first n front = (s.fronted k o first n front).resolve o.channel none (amendedSetpoint k first n) := rfl

theorem State.order_fronted {k : Nat} {o' : Order} (live : s.order k = some o') (o : Order) (first n : Nat) (front : Bool)
    (j : Nat) :
    (s.fronted k o first n front).order j = if j = k then some (s.amendedRecord o first n) else s.order j := by
  rw [← State.order_amended live]
  unfold State.fronted
  split <;> rfl

theorem State.fronted_frame (s : State) (k : Nat) (o : Order) (first n : Nat) (front : Bool) :
    (s.fronted k o first n front).otu.live = s.otu.live ∧
      (∀ j, (s.fronted k o first n front).incarnation j = s.incarnation j) ∧
      (s.fronted k o first n front).lcu.leases = (s.amended k o first n).lcu.leases := by
  obtain ⟨-, live, inc⟩ := s.amended_frame k o first n
  unfold State.fronted
  split <;> exact ⟨live, inc, rfl⟩

/-- The list of an amended order's channel (R12, R21). -/
theorem State.list_fronted {k : Nat} {o o' : Order} (live : s.order k = some o') (first n : Nat) (front : Bool) :
    let others := (s.list o.channel).filter (· ≠ k)
    let before := others.takeWhile fun j => s.clsOf j < o.cls
    (s.fronted k o first n front).list o.channel =
      if front then before ++ k :: others.drop before.length else s.list o.channel := by
  intro others before
  obtain ⟨lists, -, -⟩ := s.amended_frame k o first n
  have same : (s.amended k o first n).list o.channel = s.list o.channel := by
    unfold State.list
    rw [lists]
  unfold State.fronted
  cases front with
  | false => exact same
  | true =>
    simp only [if_true]
    unfold State.moveFront
    rw [State.list_setList_self, same]
    refine insertClass_eq ?_ fun j mem => ?_
    · unfold State.clsOf
      rw [State.order_amended live, if_pos rfl]
      rfl
    · have ne : j ≠ k := by simpa using (List.mem_filter.mp mem).2
      unfold State.clsOf
      rw [State.order_amended live, if_neg ne]

theorem State.list_fronted_other {c : Channel} {o : Order} (ne : c ≠ o.channel) (k first n : Nat) (front : Bool) :
    (s.fronted k o first n front).list c = s.list c := by
  obtain ⟨lists, -, -⟩ := s.amended_frame k o first n
  unfold State.fronted
  cases front with
  | false =>
    unfold State.list
    exact congrArg (ByChannel.get · c) lists
  | true =>
    refine (State.list_setList ..).trans ((if_neg ne).trans ?_)
    unfold State.list
    rw [lists]

/-- The checks of AMEND pass (R20). -/
theorem Order.amendCheck_eq_ok {o : Order} {first n : Nat} {gen : Word} {v : Values} (own : o.owner = ownerOf p)
    (alive : o.state ≠ .lapsed) (current : gen = o.gen)
    (fields : n ≤ 8 ∧ ∀ i < n, o.writable (first + i) = true)
    (inRange : (o.writeFields first (v.toList.take n)).inRange = true) :
    o.amendCheck p first n gen v = .ok (o.writeFields first (v.toList.take n)) := by
  rw [o.fields_iff] at fields
  unfold Order.amendCheck
  rw [if_neg (not_not.mpr own), if_neg alive, if_neg (not_not.mpr current), fields]
  simp [inRange]

/-- An AMEND that passes its checks is carried out and settled (R21). -/
theorem exec_amend_ok (takes : (s.port p).takes) {slot inc first : Byte} {o o1 : Order}
    (named : s.lookup ⟨slot, inc⟩ = some o) {count : BitVec 7} {gen : Word} {v : Values}
    (ok : o.amendCheck p first.toNat count.toNat gen v = .ok o1) {front : Bool} {w : State}
    (amending : w = ((s.risen p).amendAt slot.toNat o1 first.toNat count.toNat front).settle (s.risen p).sq) {o' : Order}
    (live : w.order slot.toNat = some o') (tag : Byte) :
    exec (.amend p tag slot inc first front count gen v) s =
      .next (w.answering p ⟨3, tag, .ok, o'.state, ⟨slot, inc⟩, o'.gen, .zero⟩) := by
  have named : (s.risen p).lookup ⟨slot, inc⟩ = some o := named
  rw [exec_amend takes]
  unfold State.runAmend
  simp only [named, ok, ← amending, State.answerOn_live (h := ⟨slot, inc⟩) live]

/-- A run that writes a setpoint field names its order as amended. -/
theorem amendedSetpoint_eq {k first n i : Nat} (low : 8 ≤ i) (high : i ≤ 15)
    (inside : (first ≤ i && i < first + n) = true) : amendedSetpoint k first n = some k := by
  refine if_pos (List.any_eq_true.mpr ⟨i - 8, List.mem_range.mpr (by omega), ?_⟩)
  unfold inRun
  rw [show 8 + (i - 8) = i by omega]
  exact inside

/-- The fields of a record whose body a run and a generation give. -/
theorem State.fieldOf_written {o o' : Order} {first n : Nat} {v : Values} {g : Word} (few : n ≤ 8)
    (writable : ∀ i < n, o.writable (first + i) = true)
    (body : o'.body = ({ o.writeFields first (v.toList.take n) with gen := g } : Order).body) (s t : State) (k : Nat)
    {i : Nat} (lt : i < 24) (state : i ≠ 3) (keeping : i ≠ 4) (left : i ≠ 6) :
    t.fieldOf k o' i =
      if (first ≤ i && i < first + n) = true then v.toList.getD (i - first) 0 else s.fieldOf k o i := by
  have length : (v.toList.take n).length = n := List.length_take_of_le few
  have written := s.fieldOf_writeFields k o first (v.toList.take n)
    (fun i lt => claimField_of_writable (writable i (length ▸ lt))) lt
  rw [← State.fieldOf_body t t k o' lt state keeping left, body, State.fieldOf_body s t k _ lt state keeping left]
  refine written.trans ?_
  rw [length]
  refine if_ctx_congr .rfl (fun inside => ?_) fun _ => rfl
  rw [Bool.and_eq_true, decide_eq_true_eq, decide_eq_true_eq] at inside
  rw [List.getD_eq_getElem?_getD, List.getD_eq_getElem?_getD, List.getElem?_take_of_lt (by omega)]

/-- The marks of a record whose body a run and a generation give. -/
theorem Order.mark_written {o o' : Order} {first n : Nat} {v : Values} {g : Word} (few : n ≤ 8)
    (writable : ∀ i < n, o.writable (first + i) = true)
    (body : o'.body = ({ o.writeFields first (v.toList.take n) with gen := g } : Order).body) {m : Nat} (low : 16 ≤ m)
    (high : m ≤ 23) : o'.mark m = (o.mark m || (first ≤ m && m < first + n)) := by
  have length : (v.toList.take n).length = n := List.length_take_of_le few
  have written := o.mark_writeFields first (v.toList.take n)
    (fun i lt => claimField_of_writable (writable i (length ▸ lt))) low high
  rw [length] at written
  rw [← o'.mark_body, body, Order.mark_body]
  exact written

/-- Settles O30. -/
theorem amendWritesARun : Obligations.AmendWritesARun := by
  intro p tag slot inc first front count gen v o s takes named own alive current few writable inRange k o1 g others before
  obtain ⟨incarnation, live⟩ := Acts.lookup_order named
  have written : o.Rewritten o1 := o.rewritten_writeFields first.toNat (v.toList.take count.toNat)
  have ok := Order.amendCheck_eq_ok own alive current ⟨few, writable⟩ inRange
  have live : (s.risen p).order k = some o := live
  generalize amended : (s.risen p).fronted k o1 first.toNat count.toNat front = a
  have order := State.order_fronted live o1 first.toNat count.toNat front
  have list := State.list_fronted (o := o1) live first.toNat count.toNat front
  have lists := fun c (ne : c ≠ o1.channel) => State.list_fronted_other (s := s.risen p) ne k first.toNat count.toNat front
  obtain ⟨liveCount, inc', leases⟩ := (s.risen p).fronted_frame k o1 first.toNat count.toNat front
  have claim := (ClaimOnly.refl (s.risen p)).amendAt k o1 first.toNat count.toNat front
  rw [State.amendAt_eq_fronted, amended] at claim
  rw [amended] at order list lists liveCount inc' leases
  have body : ((s.risen p).amendedRecord o1 first.toNat count.toNat).body = ({ o1 with gen := g } : Order).body := by
    have zero : count = 0 ↔ count.toNat = 0 := by simp [BitVec.toNat_eq]
    rw [State.body_amendedRecord]
    simp only [g, zero, written.gen]
    rfl
  have running : a.running = s.running := by
    have stays := ((ClaimOnly.refl a).resolve o1.channel none (amendedSetpoint k first.toNat count.toNat)).cs
    unfold State.running
    rw [← stays, claim.cs]
    rfl
  have keeps := OutsideClaims.settled claim (s.risen p).sq
  have same := SameOrders.resolved a o1.channel none (amendedSetpoint k first.toNat count.toNat) (s.risen p).sq
  have resolved := (SameOrders.refl a).resolve o1.channel none (amendedSetpoint k first.toNat count.toNat)
  have rest := a.leases_resolved o1.channel none (amendedSetpoint k first.toNat count.toNat) (s.risen p).sq
  have taken := fun run handed => (State.takenBy_resolve (s := a) (ch := o1.channel) (quiet := none)
    (amended := amendedSetpoint k first.toNat count.toNat) run handed).1 k
  have settled := (SettleOnly.refl (a.resolve o1.channel none (amendedSetpoint k first.toNat count.toNat))).settle
    (s.risen p).sq
  obtain ⟨record, liveR, bodyR⟩ := resolved.order_some ((order k).trans (if_pos rfl))
  obtain ⟨o', liveW, still⟩ := settled.order_some liveR
  have bodyW : o'.body = ({ o1 with gen := g } : Order).body := (Order.body_of_still still).trans (bodyR.trans body)
  have done := fun w amending => exec_amend_ok (w := w) takes named ok (front := front) amending (o' := o')
  rw [State.amendAt_eq_fronted, amended] at done
  generalize amending : (a.resolve o1.channel none (amendedSetpoint k first.toNat count.toNat)).settle (s.risen p).sq = w
    at keeps same rest settled liveW
  have gen' : o'.gen = g := congrArg Order.gen bodyW
  have channel : o1.channel = o.channel := written.channel
  rw [channel] at list lists settled taken liveR
  dsimp only at list
  rw [written.cls] at list
  refine ⟨_, done w amending.symm liveW tag, ⟨o', liveW, bodyW, ?_, fun i lt state keeping left => ?_, fun n => ?_,
    fun run governs setpoint => ?_⟩, ?_, fun c ne => ?_, ?_, fun j => ?_, fun j ne => ?_, ?_, keeps.cs, keeps.inputs, keeps.fu,
    keeps.conv, keeps.pub, keeps.now⟩
  · rw [State.port_answering_self, gen']
  · exact State.fieldOf_written few writable bodyW s _ k lt state keeping left
  · have marks := fun m => Order.mark_written (m := m) few writable bodyW
    cases n with
    | first => exact ⟨marks 16 (by decide) (by decide), marks 17 (by decide) (by decide), marks 18 (by decide) (by decide),
        marks 19 (by decide) (by decide)⟩
    | second => exact ⟨marks 20 (by decide) (by decide), marks 21 (by decide) (by decide), marks 22 (by decide) (by decide),
        marks 23 (by decide) (by decide)⟩
  · obtain ⟨i, low, high, inside⟩ := setpoint
    have governs : w.governing o.channel = some k := governs
    rw [settled.governing] at governs
    have handed := (a.handed_iff o.channel none _).mpr (.inr ⟨k, amendedSetpoint_eq low high inside, governs⟩)
    refine (settled.takenBy o.channel).trans ((taken (running.trans run) handed record governs liveR).trans ?_)
    have same_slot : BitVec.ofNat 8 k = slot := BitVec.ofNat_toNat ..
    have setpoint : record.setpoint = o'.setpoint := (congrArg Order.setpoint still).symm
    unfold State.handle
    rw [← settled.states.inc k, same.inc, inc', same_slot, setpoint]
    exact congrArg (fun b => some (Taken.mk ⟨slot, b⟩ o'.setpoint)) incarnation
  · exact (same.list o.channel).trans list
  · exact (same.list c).trans (lists c ne)
  · exact rest.trans (leases.trans (State.leases_amended ..))
  · exact (same.inc j).trans (inc' j)
  · refine (same.body j).trans ?_
    rw [order, if_neg ne]
    rfl
  · exact same.live.trans liveCount

end Sys2Proof.Machine
end

section
/-! SUPPORT, O47 and O50. Lapses and reports of conditions (R27, R31, R38, R162). -/

namespace Sys2Proof.Machine

variable {s t u : State}

/-! Reports of conditions. -/

/-- The first report of a name is taken, and the others stay in their order. -/
theorem takeReport_append {α : Type} [DecidableEq α] (name : α) (truth : Bool) (a b : List (α × Bool))
    (first : ∀ r ∈ a, r.1 ≠ name) : takeReport name (a ++ (name, truth) :: b) = some (truth, a ++ b) := by
  induction a with
  | nil => simp [takeReport]
  | cons r a ih =>
    have ne : r.1 ≠ name := first r List.mem_cons_self
    simp [takeReport, ne, ih fun x mem => first x (List.mem_cons_of_mem r mem)]

/-- What a taken report of a condition leaves, once it is settled. -/
structure ConditionTaken (s t : State) (k : Nat) (o : Order) (truth : Bool) : Prop where
  own : ∃ o', t.order k = some o' ∧ o'.body = o.body ∧ o'.cond = truth ∧ (o.state = .lapsed → o'.state = .lapsed) ∧
    (o.state ≠ .lapsed → truth = false → o'.state = .dormant) ∧
    (o.state ≠ .lapsed → truth = true → o'.state = .governing ∨ o'.state = .outranked)
  orders : SameOrders s t
  outside : OutsideClaims s t
  leases : t.lcu.leases = s.lcu.leases
  reports : ∃ l, t.lcu.reports = s.lcu.reports ++ l

/-- The states that a condition gives an order (R10). -/
theorem Order.resolved_cond (o : Order) (first : Bool) :
    (o.state = .lapsed → (o.resolved first).state = .lapsed) ∧
    (o.state ≠ .lapsed → o.cond = false → (o.resolved first).state = .dormant) ∧
    (o.state ≠ .lapsed → o.cond = true → (o.resolved first).state = .governing ∨ (o.resolved first).state = .outranked) := by
  unfold Order.resolved Order.stateBy
  refine ⟨fun lapsed => by simp [lapsed], fun alive untrue => by simp [alive, untrue], fun alive true => ?_⟩
  cases first <;> simp [alive, true]

theorem State.takeCondition_settled {k : Nat} {o : Order} (live : s.order k = some o) (mem : k ∈ s.list o.channel)
    (nodup : (s.list o.channel).Nodup) (truth : Bool) (old : Sq) :
    ConditionTaken s ((s.takeCondition k truth).settle old) k o truth := by
  have taken : s.takeCondition k truth = (s.setOrder k { o with cond := truth }).resolve o.channel none none := by
    unfold State.takeCondition
    rw [live]
  have written : (s.setOrder k { o with cond := truth }).order k = some { o with cond := truth } := by
    rw [State.order_setOrder_live live, if_pos rfl]
  have resolved := State.order_resolve_mem (s := s.setOrder k { o with cond := truth }) (ch := o.channel) nodup mem written
    none none
  have settled := (SettleOnly.refl (s.takeCondition k truth)).settle old
  have lcu : (s.takeCondition k truth).lcu = s.lcu := by
    rw [taken]
    exact (State.resolve_frame _ o.channel none none).2.1
  rw [← taken] at resolved
  obtain ⟨o', after, still⟩ := settled.order_some resolved
  refine ⟨⟨o', after, (Order.body_of_still still).trans rfl, (Order.cond_of_still still).trans rfl, ?_⟩,
    ((SameOrders.refl s).takeCondition k truth).trans settled.states.orders,
    .settled ((ClaimOnly.refl s).takeCondition k truth) old, by rw [settled.leases, lcu], ?_⟩
  · rw [Order.state_of_still still]
    obtain ⟨lapsed, untrue, true⟩ := Order.resolved_cond { o with cond := truth }
      ((s.setOrder k { o with cond := truth }).noneBefore ((s.setOrder k { o with cond := truth }).list o.channel) k)
    exact ⟨lapsed, untrue, true⟩
  · obtain ⟨l, reports⟩ := settled.reports
    exact ⟨l, by rw [reports, lcu]⟩

/-- The first report that waits about an order is taken (R38). -/
theorem exec_conditionReport {k : Nat} {truth : Bool} {a b : List (Nat × Bool)}
    (reports : s.lcu.reports = a ++ (k, truth) :: b) (first : ∀ r ∈ a, r.1 ≠ k) :
    exec (.conditionReport k) s =
      .next ((({ s with lcu := { s.lcu with reports := a ++ b } } : State).takeCondition k truth).settle s.sq) := by
  show execConditionReport k s = _
  unfold execConditionReport
  rw [reports, takeReport_append k truth a b first]
  dsimp only
  rw [State.event_pos rfl]

/-- The first report of the fault table about one of its orders is taken (R162). -/
theorem exec_faultConditionReport {w : FaultOrder} {truth : Bool} {a b : List (FaultOrder × Bool)}
    (reports : s.fu.reports = a ++ (w, truth) :: b) (first : ∀ r ∈ a, r.1 ≠ w) :
    exec (.faultConditionReport w) s =
      .next ((({ s with fu := { s.fu with reports := a ++ b } } : State).takeCondition (faultOrderSlot w) truth).settle
        s.sq) := by
  show execFaultConditionReport w s = _
  unfold execFaultConditionReport
  rw [reports, takeReport_append w truth a b first]
  dsimp only
  rw [State.event_pos rfl]

/-- Settles O50. -/
theorem conditionReportsAreTaken : Obligations.ConditionReportsAreTaken := by
  intro k truth o s live mem nodup
  have post : ∀ u w : State, u.otu = s.otu → u.lcu.leases = s.lcu.leases → u.lcu.now = s.lcu.now → u.cs = s.cs →
      u.inputs = s.inputs → u.fu.entry = s.fu.entry → u.fu.record = s.fu.record → u.mu = s.mu → u.rp = s.rp →
      ConditionTaken u w k o truth →
      (∃ o', w.order k = some o' ∧ o'.body = o.body ∧ o'.cond = truth ∧ (o.state = .lapsed → o'.state = .lapsed) ∧
        (o.state ≠ .lapsed → truth = false → o'.state = .dormant) ∧
        (o.state ≠ .lapsed → truth = true → o'.state = .governing ∨ o'.state = .outranked)) ∧
      (∀ j, j ≠ k → (w.order j).map Order.body = (s.order j).map Order.body) ∧ w.otu.lists = s.otu.lists ∧
      w.lcu.leases = s.lcu.leases ∧ w.cs = s.cs ∧ w.inputs = s.inputs ∧ w.fu.entry = s.fu.entry ∧
      w.fu.record = s.fu.record ∧ w.mu.conv = s.mu.conv ∧ w.mu.pub = s.mu.pub ∧ w.now = s.now ∧
      ∀ p, PortOnly (s.port p) (w.port p) := by
    intro u w otu leases now cs inputs entry record mu rp taken
    obtain ⟨own, orders, outside, leases', -⟩ := taken
    refine ⟨own, fun j _ => (orders.body j).trans (congrArg _ (State.order_congr otu j)), orders.lists.trans (by rw [otu]),
      leases'.trans leases, outside.cs.trans cs, outside.inputs.trans inputs, by rw [outside.fu, entry],
      by rw [outside.fu, record], outside.conv.trans (by rw [mu]), outside.pub.trans (by rw [mu]), outside.now.trans now,
      fun p => ?_⟩
    have port := outside.ports p
    unfold State.port at port ⊢
    rw [rp] at port
    exact port
  refine ⟨fun a b reports first => ?_, fun w a b reports first slot => ?_⟩
  · have taken := State.takeCondition_settled (s := { s with lcu := { s.lcu with reports := a ++ b } }) live mem nodup truth s.sq
    exact ⟨_, exec_conditionReport reports first, post { s with lcu := { s.lcu with reports := a ++ b } } _ rfl rfl rfl rfl rfl
      rfl rfl rfl rfl taken, taken.reports, by rw [taken.outside.fu]⟩
  · have taken := State.takeCondition_settled (s := { s with fu := { s.fu with reports := a ++ b } }) live mem nodup truth s.sq
    rw [slot] at taken post ⊢
    exact ⟨_, exec_faultConditionReport reports first, post { s with fu := { s.fu with reports := a ++ b } } _ rfl rfl rfl rfl
      rfl rfl rfl rfl rfl taken, by rw [taken.outside.fu], taken.reports⟩

/-! A LAPSED order rests (R27). -/

/-- An order stands unchanged in its slot, and no report of the LCU waits about it. -/
structure State.Rests (s : State) (k : Nat) (o : Order) : Prop where
  order : s.order k = some o
  unreported : ∀ r ∈ s.lcu.reports, r.1 ≠ k

namespace State.Rests

variable {k : Nat} {o : Order}

theorem of_otu (h : s.Rests k o) (otu : t.otu = s.otu := by rfl) (reports : t.lcu.reports = s.lcu.reports := by rfl) :
    t.Rests k o :=
  ⟨(State.order_congr otu k).trans h.order, reports ▸ h.unreported⟩

theorem causes (h : s.Rests k o) (only : CausesOnly s t) : t.Rests k o := h.of_otu only.otu (by rw [only.lcu])

theorem write_other (h : s.Rests k o) {j : Nat} (ne : k ≠ j) (o' : Order) : (s.setOrder j o').Rests k o := by
  refine ⟨?_, h.unreported⟩
  rw [State.order_setOrder, if_neg fun e => ne e.1]
  exact h.order

theorem lcuReport_other (h : s.Rests k o) {j : Nat} (ne : k ≠ j) (o' : Order) : (s.lcuReport j o').Rests k o := by
  unfold State.lcuReport
  dsimp only
  split
  · exact h.write_other ne o'
  · obtain ⟨order, unreported⟩ := h.write_other ne { o' with lcuCond := o'.termsTrue }
    refine ⟨order, fun r mem => ?_⟩
    rcases List.mem_append.mp mem with mem | mem
    · exact unreported r mem
    · rw [List.mem_singleton.mp mem]
      exact ne.symm

theorem resolveSlot_other (h : s.Rests k o) {j : Nat} (ne : k ≠ j) (quiet : Option Nat) (o' : Order) (st : OrderState) :
    (s.resolveSlot quiet j o' st).Rests k o := by
  unfold State.resolveSlot
  dsimp only
  split
  · exact h
  · split
    · exact h.write_other ne _
    · exact (h.write_other ne _).causes ((CausesOnly.refl _).noteChange j o')

variable (lapsed : o.state = .lapsed)

include lapsed

theorem sweep (h : s.Rests k o) (about : Quantity → Bool) : (s.sweep about).Rests k o := by
  unfold State.sweep
  generalize List.range 48 = l
  induction l generalizing s with
  | nil => exact h
  | cons j l ih =>
    refine ih ?_
    unfold State.sweepSlot
    split
    · next o' live =>
      split
      · exact h
      · next swept =>
        refine h.lcuReport_other ?_ _
        rintro rfl
        rw [h.order, Option.some.injEq] at live
        exact swept (.inr (live ▸ lapsed))
    · exact h

theorem writeKeeping (h : s.Rests k o) (ch : Channel) (v : Keeping) : (s.writeKeeping ch v).Rests k o := by
  have idle : s.governing ch ≠ some k := by
    intro governs
    rw [State.state_of_governing governs h.order] at lapsed
    cases lapsed
  refine ⟨by rw [State.order_writeKeeping, if_neg idle, h.order], ?_⟩
  unfold State.writeKeeping
  split
  · exact h.unreported
  · next j _ =>
    split
    · exact h.unreported
    · next o' _ =>
      split
      · exact h.unreported
      · rw [((CausesOnly.refl _).noteChange j o').lcu]
        exact h.unreported

/-- The end of an event leaves a LAPSED order alone. -/
theorem settle (h : s.Rests k o) (old : Sq) : (s.settle old).Rests k o := by
  have guarded : s.osGuard.sqGuard.Rests k o := h.of_otu
  have geared : (s.osGuard.sqGuard.gearReport old).Rests k o := by
    have told : (if s.osGuard.sqGuard.sq.record = old.record then s.osGuard.sqGuard
        else s.osGuard.sqGuard.setCauseBoth .gear).Rests k o := by
      split
      · exact guarded
      · exact guarded.causes ((CausesOnly.refl _).setCauseBoth .gear)
    unfold State.gearReport
    dsimp only
    split
    · exact told
    · exact told.sweep lapsed _
  have timed : ∀ g : State, g.Rests k o →
      (g.followLost.followMismatch.unitGuards.clutchCurrents.handSetpoints).Rests k o := by
    intro g h
    have lost : g.followLost.Rests k o := h.of_otu
    have matched : g.followLost.followMismatch.Rests k o := lost.of_otu
    have units : g.followLost.followMismatch.unitGuards.Rests k o := matched.of_otu
    have currents : g.followLost.followMismatch.unitGuards.clutchCurrents.Rests k o := units.of_otu
    unfold State.handSetpoints
    split
    · exact currents.of_otu
    · exact currents
  have handed := timed _ geared
  unfold State.settle State.keepAll
  split
  · exact (((handed.writeKeeping lapsed _ _).writeKeeping lapsed _ _).writeKeeping lapsed _ _).writeKeeping lapsed _ _
  · exact handed

theorem resolveWalk (quiet : Option Nat) (l : List Nat) (first : Bool) (h : s.Rests k o) :
    (s.resolveWalk quiet l first).Rests k o := by
  induction l generalizing first s with
  | nil => exact h
  | cons j l ih =>
    unfold State.resolveWalk
    split
    · next o' live =>
      refine ih _ ?_
      by_cases hj : k = j
      · subst hj
        rw [h.order, Option.some.injEq] at live
        subst live
        unfold State.resolveSlot
        rw [if_pos (lapsed.trans ((o.stateBy_lapsed first).mpr lapsed).symm)]
        exact h
      · exact h.resolveSlot_other hj quiet o' _
    · exact ih _ h

/-- A resolution leaves a LAPSED order alone. -/
theorem resolve (h : s.Rests k o) (ch : Channel) (quiet amended : Option Nat) : (s.resolve ch quiet amended).Rests k o := by
  obtain ⟨otu, lcu, -⟩ := s.resolve_frame ch quiet amended
  exact ⟨(State.order_congr otu k).trans (resolveWalk lapsed quiet (s.list ch) true h).order, lcu ▸ h.unreported⟩

end State.Rests

/-- An order as its lease expires (R27). -/
def Order.lapsing (o : Order) : Order :=
  { o with
    state := .lapsed, keeping := .none, term1 := { o.term1 with eval := none }, term2 := { o.term2 with eval := none } }

/-- Settles O47. -/
theorem leaseExpiryLapses : Obligations.LeaseExpiryLapses := by
  intro e rest o s leases passed live
  have expired : s.expiredLease = some e.slot := by
    unfold State.expiredLease
    rw [leases]
    exact if_pos passed
  have ends : s.leaseEnds = (s.lcuForget e.slot).lapse e.slot := by
    unfold State.leaseEnds
    rw [expired]
  have lapses : (s.lcuForget e.slot).lapse e.slot =
      (((s.lcuForget e.slot).setOrder e.slot o.lapsing).noteChange e.slot o).resolve o.channel none none := by
    unfold State.lapse
    rw [show (s.lcuForget e.slot).order e.slot = some o from live]
    rfl
  have done : exec .leaseExpiry s = .next (((s.lcuForget e.slot).lapse e.slot).settle s.sq) := by
    rw [← ends]
    exact congrArg _ (State.expire_due (due := fun s => s.expiredLease.isSome) (by rw [expired]; rfl) State.leaseEnds)
  generalize noted : ((s.lcuForget e.slot).setOrder e.slot o.lapsing).noteChange e.slot o = n at lapses
  have note := (CausesOnly.refl ((s.lcuForget e.slot).setOrder e.slot o.lapsing)).noteChange e.slot o
  rw [noted] at note
  have rests : n.Rests e.slot o.lapsing := by
    have written : ((s.lcuForget e.slot).setOrder e.slot o.lapsing).Rests e.slot o.lapsing :=
      ⟨by rw [State.order_setOrder_live (s := s.lcuForget e.slot) live, if_pos rfl],
       fun r mem => by simpa using (List.mem_filter.mp mem).2⟩
    exact written.causes note
  have rest := (rests.resolve rfl o.channel none none).settle rfl s.sq
  have orders := ((SameOrders.refl (s.lcuForget e.slot)).lapse e.slot).trans
    ((SettleOnly.refl ((s.lcuForget e.slot).lapse e.slot)).settle s.sq).states.orders
  have outside := OutsideClaims.settled (((ClaimOnly.refl s).lcuForget e.slot).lapse e.slot) s.sq
  have settled := (SettleOnly.refl ((s.lcuForget e.slot).lapse e.slot)).settle s.sq
  have lcu : ((s.lcuForget e.slot).lapse e.slot).lcu = (s.lcuForget e.slot).lcu := by
    rw [lapses, (n.resolve_frame o.channel none none).2.1, note.lcu]
    rfl
  have entered : e.slot ∈ ((((s.lcuForget e.slot).lapse e.slot).settle s.sq).port o.owner.port).changed := by
    rw [lapses]
    refine (((Touches.refl n).resolve o.channel none none).settle s.sq).changed ?_
    rw [← noted]
    exact State.mem_changed_enterSet _ _ _
  rw [← lapses] at rest
  obtain ⟨l, reports⟩ := settled.reports
  rw [lcu] at reports
  refine ⟨_, done, ⟨o.lapsing, rest.order, rfl, rfl, rfl⟩, entered, settled.leases.trans (by rw [lcu]; rfl), ⟨l, reports⟩,
    rest.unreported, fun j _ => orders.body j, orders.lists, orders.live, orders.inc, outside.cs, outside.inputs,
    outside.fu, outside.conv, outside.pub, outside.now, outside.ports⟩

end Sys2Proof.Machine
end

section
/-! SUPPORT and O35. What the write of an item brings with it in CONFIG (R14, R45, R69, R96, R181). -/

namespace Sys2Proof.Machine

variable {s t : State}

/-! The supply hold (R69). -/

theorem Flow.hold_pass (f : Flow) (budget : Nat) : (f.pass budget).hold = f.hold := by
  have fill : (f.serveFill budget).hold = f.hold := by unfold Flow.serveFill; split <;> rfl
  have axle : ∀ g : Flow, (g.serveAxle budget).hold = g.hold := fun g => by unfold Flow.serveAxle; split <;> rfl
  have lift : ∀ g : Flow, (g.serveLift budget).hold = g.hold := fun g => by unfold Flow.serveLift; split <;> rfl
  unfold Flow.pass
  dsimp only
  rw [lift]
  split
  · rfl
  · rw [axle, fill]

theorem State.flow_sqFillGranted (s : State) : s.sqFillGranted.flow = s.flow := by
  unfold State.sqFillGranted
  split
  · split <;> rfl
  · rfl

theorem State.flow_acuAxleGranted (s : State) : s.acuAxleGranted.flow = s.flow := by
  unfold State.acuAxleGranted
  split <;> rfl

/-- A grant pass leaves the flow as the pass works it out: the consumers it tells change only their own state. -/
theorem State.flow_grantPass (s : State) : s.grantPass.flow = s.flow.pass (flowBudget s.items) := by
  unfold State.grantPass
  dsimp only
  have lift : ∀ (c : Prop) [Decidable c] (u : State), (if c then u else u.hrSync).flow = u.flow := fun c _ u => by
    split <;> rfl
  have axle : ∀ (c : Prop) [Decidable c] (u : State), (if c then u.acuAxleGranted else u).flow = u.flow := fun c _ u => by
    split
    · exact u.flow_acuAxleGranted
    · rfl
  have fill : ∀ (c : Prop) [Decidable c] (u : State), (if c then u.sqFillGranted else u).flow = u.flow := fun c _ u => by
    split
    · exact u.flow_sqFillGranted
    · rfl
  rw [lift, axle, fill]

/-- The supply hold follows the fault table. -/
theorem State.hold_followHold (s : State) : s.followHold.flow.hold = s.supplyDegrade := by
  unfold State.followHold
  dsimp only
  split
  · next same => exact same.symm
  · split
    · next held =>
      rw [State.flow_grantPass, Flow.hold_pass]
      exact held.symm
    · next free =>
      rw [State.flow_grantPass, Flow.hold_pass]
      exact (Bool.eq_false_iff.mpr free).symm

/-! Heat (R96). -/

/-- The heat of a clutch, and whether it is HOT. -/
def State.heatOf (s : State) (c : Clutch) : Nat × Bool := ((s.sq.clutch.get c).heat, (s.sq.clutch.get c).hot)

theorem State.heatOf_congr (h : t.sq = s.sq) (c : Clutch) : t.heatOf c = s.heatOf c := by
  unfold State.heatOf
  rw [h]

theorem State.heatOf_sqFillGranted (s : State) (c : Clutch) : s.sqFillGranted.heatOf c = s.heatOf c := by
  have entered : ∀ (l : List Clutch) (q : ByClutch ClutchRec) (st : ClutchState),
      (((l.foldl (fun t c => t.set c ((t.get c).enter st)) q).get c).heat,
        ((l.foldl (fun t c => t.set c ((t.get c).enter st)) q).get c).hot) = ((q.get c).heat, (q.get c).hot) := by
    intro l q st
    induction l generalizing q with
    | nil => rfl
    | cons d l ih =>
      rw [List.foldl_cons, ih, ByClutch.get_set]
      split
      · next same => rw [same]; rfl
      · rfl
  unfold State.sqFillGranted
  split
  · split
    · exact entered _ _ _
    · rfl
  · rfl

theorem State.heatOf_grantPass (s : State) (c : Clutch) : s.grantPass.heatOf c = s.heatOf c := by
  unfold State.grantPass
  dsimp only
  have lift : ∀ (d : Prop) [Decidable d] (u : State), (if d then u else u.hrSync).heatOf c = u.heatOf c := fun d _ u => by
    split <;> rfl
  have axle : ∀ (d : Prop) [Decidable d] (u : State), (if d then u.acuAxleGranted else u).heatOf c = u.heatOf c :=
    fun d _ u => by
      split
      · unfold State.acuAxleGranted
        split <;> rfl
      · rfl
  have fill : ∀ (d : Prop) [Decidable d] (u : State), (if d then u.sqFillGranted else u).heatOf c = u.heatOf c :=
    fun d _ u => by
      split
      · exact u.heatOf_sqFillGranted c
      · rfl
  rw [lift, axle, fill]
  rfl

theorem State.heatOf_followHold (s : State) (c : Clutch) : s.followHold.heatOf c = s.heatOf c := by
  unfold State.followHold
  dsimp only
  split
  · rfl
  · split <;> exact State.heatOf_grantPass _ c

theorem State.sq_markUnits (s : State) (k : FaultKind) (site : Word) : (s.markUnits k site).sq = s.sq := by
  unfold State.markUnits
  dsimp only
  repeat' split
  all_goals rfl

/-- In CONFIG a detection heats and cools no clutch. -/
theorem State.heatOf_detect (stopped : s.running = false) (k : FaultKind) (site : Word) (c : Clutch) :
    (s.detect k site).heatOf c = s.heatOf c := by
  unfold State.detect
  dsimp only
  generalize latched : ({ s with
    fu := { s.fu with record := s.recordFirst k site, entry := s.fu.entry.set k ⟨true, some site⟩ } } : State) = u
  have told := (CausesOnly.refl u).reportFault k
  have marked := (u.reportFault k).sq_markUnits k site
  have still : (((u.reportFault k).markUnits k site).followHold).running = false := by
    have cs : (((u.reportFault k).markUnits k site).followHold).cs = s.cs := by
      rw [(JobOnly.refl _).followHold.cs, (DetectOnly.refl _).markUnits k site |>.cs, told.cs, ← latched]
    unfold State.running at stopped ⊢
    rw [cs]
    exact stopped
  have follows : ((u.reportFault k).markUnits k site).unitsFollow = ((u.reportFault k).markUnits k site).followHold := by
    unfold State.unitsFollow State.acuFollow
    simp [still]
  rw [follows]
  show ((u.reportFault k).markUnits k site).followHold.heatOf c = _
  rw [State.heatOf_followHold, State.heatOf_congr marked, State.heatOf_congr told.sq, ← latched]
  rfl

/-- HOT as its test leaves it. -/
def hotTested (items : List (List Word)) (h : Nat × Bool) : Nat × Bool :=
  (h.1,
    if h.2 = false ∧ itemNat items 20 2 ≤ h.1 then true
    else if h.2 = true ∧ h.1 ≤ itemNat items 20 3 then false else h.2)

theorem State.heatOf_hotTest (stopped : s.running = false) (d c : Clutch) :
    (s.hotTest d).heatOf c = if c = d then hotTested s.items (s.heatOf c) else s.heatOf c := by
  have written : ∀ b : Bool,
      ({ s with sq := { s.sq with clutch := s.sq.clutch.set d { s.sq.clutch.get d with hot := b } } } : State).heatOf c =
        if c = d then ((s.sq.clutch.get d).heat, b) else s.heatOf c := by
    intro b
    unfold State.heatOf
    dsimp only
    rw [ByClutch.get_set]
    split <;> rfl
  unfold State.hotTest
  dsimp only
  split
  · next comes =>
    refine (State.heatOf_detect (by exact stopped) _ _ c).trans ((written true).trans ?_)
    refine if_ctx_congr .rfl (fun same => ?_) fun _ => rfl
    subst same
    simp only [Bool.and_eq_true, Bool.not_eq_true', decide_eq_true_eq] at comes
    simp [hotTested, State.heatOf, comes]
  · next comes =>
    split
    · next goes =>
      refine (written false).trans ?_
      refine if_ctx_congr .rfl (fun same => ?_) fun _ => rfl
      subst same
      simp only [Bool.and_eq_true, decide_eq_true_eq] at goes
      simp [hotTested, State.heatOf, goes]
    · next stays =>
      split
      · next same =>
        subst same
        simp only [Bool.and_eq_true, Bool.not_eq_true', decide_eq_true_eq] at comes stays
        simp [hotTested, State.heatOf, comes, stays]
      · rfl

/-- The tests take each clutch once. -/
theorem State.heatOf_hotTests (stopped : s.running = false) (c : Clutch) :
    s.hotTests.heatOf c = hotTested s.items (s.heatOf c) := by
  have walk : ∀ (l : List Clutch), l.Nodup → ∀ u : State, u.cs = s.cs →
      (l.foldl State.hotTest u).heatOf c = if c ∈ l then hotTested s.items (u.heatOf c) else u.heatOf c := by
    intro l
    induction l with
    | nil => exact fun _ _ _ => rfl
    | cons d l ih =>
      intro nodup u cs
      obtain ⟨new, nodup⟩ := List.nodup_cons.mp nodup
      have run : u.running = false := by
        unfold State.running at stopped ⊢
        rw [cs]
        exact stopped
      have items : u.items = s.items := congrArg Cs.items cs
      rw [List.foldl_cons, ih nodup _ ((DetectOnly.refl u).hotTest d |>.cs.trans cs), State.heatOf_hotTest run, items]
      by_cases same : c = d
      · subst same
        simp [new]
      · simp [same]
  have every : c ∈ Clutch.all := by cases c <;> decide
  have nodup : Clutch.all.Nodup := by decide
  unfold State.hotTests
  rw [walk Clutch.all nodup s rfl, if_pos every]

/-! The speed channels of a written run (R45). -/

theorem State.timing_stillWritten (s : State) (first n : Nat) (ch : SpeedCh)
    (written : inRun first n ch.code = true ∨ inRun first n (4 + ch.code) = true) :
    ((s.stillWritten first n).mu.speed.get ch).timing = .still none := by
  have walk : ∀ (l : List SpeedCh) (u : State), ch ∈ l ∨ (u.mu.speed.get ch).timing = .still none →
      ((l.foldl (fun s ch => if inRun first n ch.code || inRun first n (4 + ch.code) then s.setTiming ch (.still none) else s)
        u).mu.speed.get ch).timing = .still none := by
    intro l
    induction l with
    | nil => exact fun u h => h.resolve_left List.not_mem_nil
    | cons d l ih =>
      intro u h
      refine ih _ ?_
      by_cases same : ch = d
      · subst same
        right
        dsimp only
        rw [if_pos (by simpa using written)]
        exact State.timing_setTiming _ _ _
      · refine h.imp (fun mem => (List.mem_cons.mp mem).resolve_left same) fun still => ?_
        dsimp only
        split
        · unfold State.setTiming
          dsimp only
          rw [BySpeed.get_set, if_neg same]
          exact still
        · exact still
  exact walk SpeedCh.all s (.inl (by cases ch <;> decide))

/-! The default trailer law (R14). -/

theorem State.order_followLaw {o : Order} (live : s.order 7 = some o) :
    s.followLaw.order 7 =
      some { o with
        setpoint := defaultTrailerLaw s.items,
        gen := if o.setpoint = defaultTrailerLaw s.items then o.gen else nextGen o.gen } := by
  unfold State.followLaw
  rw [live]
  dsimp only
  split
  · next same => rw [live, ← same]
  · rw [State.order_setOrder_live live, if_pos rfl]

/-! What a written item leaves alone. -/

theorem State.itemWritten_frame (s : State) (item first n : Nat) :
    (s.itemWritten item first n).cs = s.cs ∧ (s.itemWritten item first n).inputs = s.inputs ∧
      (s.itemWritten item first n).lcu = s.lcu := by
  unfold State.itemWritten
  split
  · unfold State.stillWritten
    generalize SpeedCh.all = l
    induction l generalizing s with
    | nil => exact ⟨rfl, rfl, rfl⟩
    | cons d l ih =>
      obtain ⟨cs, inputs, lcu⟩ := ih (if inRun first n d.code || inRun first n (4 + d.code) then s.setTiming d (.still none) else s)
      rw [List.foldl_cons, cs, inputs, lcu]
      split <;> exact ⟨rfl, rfl, rfl⟩
  · have only := (DetectOnly.refl s).hotTests
    exact ⟨only.cs, only.inputs, only.lcu⟩
  · have only := (ClaimOnly.refl s).followLaw
    refine ⟨only.cs, only.inputs, ?_⟩
    unfold State.followLaw
    split
    · dsimp only
      split <;> rfl
    · rfl
  · have only := (JobOnly.refl s).followHold
    exact ⟨only.cs, only.inputs, only.lcu⟩
  · exact ⟨rfl, rfl, rfl⟩

/-- Only a write of item 20 may detect (R96). -/
theorem State.itemWritten_fault (s : State) {item : Nat} (other : item ≠ 20) (first n : Nat) :
    (s.itemWritten item first n).fu.entry = s.fu.entry ∧ (s.itemWritten item first n).fu.record = s.fu.record := by
  unfold State.itemWritten
  split
  · unfold State.stillWritten
    generalize SpeedCh.all = l
    induction l generalizing s with
    | nil => exact ⟨rfl, rfl⟩
    | cons d l ih =>
      obtain ⟨entry, record⟩ := ih (if inRun first n d.code || inRun first n (4 + d.code) then s.setTiming d (.still none) else s)
      rw [List.foldl_cons, entry, record]
      split <;> exact ⟨rfl, rfl⟩
  · exact absurd rfl other
  · have only := (ClaimOnly.refl s).followLaw
    rw [only.fu]
    exact ⟨rfl, rfl⟩
  · rw [State.fuConditions_entry, State.fuConditions_record, (JobOnly.refl s).followHold.fu]
    exact ⟨rfl, rfl⟩
  · exact ⟨rfl, rfl⟩

/-! The request (R181). -/

theorem exec_configWrite (takes : (s.port .cab).takes) (tag item first count : Byte) (v : Values) :
    exec (.configWrite .cab tag item first count v) s =
      .next (((s.risen .cab).runConfigWrite tag item first count v).1.answering .cab
        ((s.risen .cab).runConfigWrite tag item first count v).2) :=
  congrArg _ (State.cabRequest_takes takes 15 tag _)

/-- A write that a check refuses changes nothing but its port. -/
theorem exec_configWrite_refused (takes : (s.port .cab).takes) {item first count : Byte} {v : Values} {r : Result}
    (refused : s.configCheck item.toNat first.toNat count.toNat (v.toList.take count.toNat) = .error r) (tag : Byte) :
    exec (.configWrite .cab tag item first count v) s =
      .next ((s.risen .cab).answering .cab ⟨15, tag, r, .dormant, .empty, 0, .zero⟩) := by
  have check : (s.risen .cab).configCheck item.toNat first.toNat count.toNat (v.toList.take count.toNat) = .error r := refused
  rw [exec_configWrite takes]
  unfold State.runConfigWrite
  simp only [check]
  rfl

/-- A run of eight values of a list, 0 past its end. -/
theorem window_eq (items : List (List Word)) (i first : Nat) :
    window (items.getD i []) first = .ofList ((List.range 8).map fun m => itemValue items i (first + m)) := by
  have value : ∀ m < 8, (((items.getD i []).drop first).take 8).getD m 0 = itemValue items i (first + m) := by
    intro m lt
    unfold itemValue
    rw [List.getD_eq_getElem?_getD, List.getElem?_take_of_lt lt, List.getElem?_drop, ← List.getD_eq_getElem?_getD]
  unfold window Values.ofList
  rw [value 0 (by decide), value 1 (by decide), value 2 (by decide), value 3 (by decide), value 4 (by decide),
    value 5 (by decide), value 6 (by decide), value 7 (by decide)]
  rfl

/-- A write that passes its checks, with what its item brings and the end of the event. -/
theorem exec_configWrite_ok (takes : (s.port .cab).takes) {item first count : Byte} {v : Values} {items : List (List Word)}
    (ok : s.configCheck item.toNat first.toNat count.toNat (v.toList.take count.toNat) = .ok items) {w : State}
    (writing : w = (({ s.risen .cab with cs := { s.cs with items := items } } : State).itemWritten item.toNat first.toNat
      count.toNat).settle (s.risen .cab).sq) (tag : Byte) :
    exec (.configWrite .cab tag item first count v) s =
      .next (w.answering .cab ⟨15, tag, .ok, .dormant, .empty, 0,
        .ofList ((List.range 8).map fun m => itemValue items item.toNat (first.toNat + m))⟩) := by
  have check : (s.risen .cab).configCheck item.toNat first.toNat count.toNat (v.toList.take count.toNat) = .ok items := ok
  rw [exec_configWrite takes, ← window_eq, writing]
  unfold State.runConfigWrite
  simp only [check]
  rfl

/-- The values of a run are well formed, one by one. -/
theorem configValues_iff {item first n : Nat} (few : n ≤ 8) (v : Values) :
    ((v.toList.take n).zipIdx.all fun (w, m) => valueOk item (first + m) w) = true ↔
      ∀ m < n, valueOk item (first + m) (v.nth m) = true := by
  have entry : ∀ m w, (w, m) ∈ (v.toList.take n).zipIdx ↔ m < n ∧ v.nth m = w := by
    intro m w
    rw [List.mem_zipIdx_iff_getElem?]
    by_cases lt : m < n
    · have inside : m < v.toList.length := Nat.lt_of_lt_of_le lt few
      rw [List.getElem?_take_of_lt lt, List.getElem?_eq_getElem inside]
      unfold Values.nth
      rw [List.getD_eq_getElem _ _ inside]
      simp [lt]
    · rw [List.getElem?_eq_none (by rw [List.length_take]; omega)]
      simp [lt]
  rw [List.all_eq_true]
  constructor
  · exact fun ok m lt => ok (v.nth m, m) ((entry m _).mpr ⟨lt, rfl⟩)
  · rintro ok ⟨w, m⟩ mem
    obtain ⟨lt, rfl⟩ := (entry m w).mp mem
    exact ok m lt

/-- The checks of a write in CONFIG of an item that is there, from the run on. -/
theorem State.configCheck_stopped (stopped : s.running = false) {item : Nat} (named : item ≤ 28) (first n : Nat) (v : Values) :
    s.configCheck item first n (v.toList.take n) =
      if 1 ≤ n ∧ n ≤ 8 ∧ first + n ≤ itemLength item then
        (if (∀ m < n, valueOk item (first + m) (v.nth m) = true) ∧
            crossOk (writeItem s.items item first (v.toList.take n)) item = true then
          .ok (writeItem s.items item first (v.toList.take n))
        else .error .range)
      else .error .badField := by
  unfold State.configCheck
  simp only [stopped, show ¬ 28 < item by omega, Bool.false_eq_true, if_false]
  by_cases run : 1 ≤ n ∧ n ≤ 8 ∧ first + n ≤ itemLength item
  · have inside : (within 1 8 n && decide (first + n ≤ itemLength item)) = true := by
      simpa [within_iff, and_assoc] using run
    rw [inside, if_pos run]
    simp only [Bool.and_eq_true, configValues_iff run.2.1]
    rfl
  · have outside : (within 1 8 n && decide (first + n ≤ itemLength item)) = false := by
      rw [Bool.eq_false_iff]
      simpa [within_iff, and_assoc] using run
    rw [outside, if_neg run]
    rfl

namespace SettleOnly

theorem safeCondition (h : SettleOnly s t) : t.safeCondition = s.safeCondition := by
  unfold State.safeCondition State.countsSafe State.latched State.action
  rw [h.enable, h.items, h.fu]

theorem supplyDegrade (h : SettleOnly s t) : t.supplyDegrade = s.supplyDegrade := by
  unfold State.supplyDegrade State.latched State.action
  rw [h.items, h.fu]

theorem heatOf (h : SettleOnly s t) (c : Clutch) : t.heatOf c = s.heatOf c := by
  unfold State.heatOf
  rw [h.clutch c]

end SettleOnly

/-- The conditions of the fault table are brought up to date, and the supply hold follows them (R69, R162). -/
theorem State.conditions_followed (s : State) (h : SettleOnly s.followHold.fuConditions t) :
    s.conditionsFollow t ∧ t.flow.hold = t.supplyDegrade := by
  have fault : s.followHold.fu = s.fu := (JobOnly.refl s).followHold.fu
  have store : s.followHold.cs = s.cs := (JobOnly.refl s).followHold.cs
  refine ⟨⟨?_, ?_, ?_⟩, ?_⟩
  · rw [h.safeCondition, h.fu]
    rfl
  · unfold State.latched
    rw [h.fu]
    rfl
  · rw [h.fu, ← fault]
    rfl
  · rw [h.supplyDegrade, h.flow]
    refine (State.hold_followHold s).trans ?_
    unfold State.supplyDegrade State.latched State.action State.items
    rw [State.fuConditions_entry, fault]
    exact congrArg (fun c : Cs => (s.fu.entry.get .supplyLow).latched && actionOf c.items .supplyLow = .degrade) store.symm

/-- Settles O35. -/
theorem configWriteWritesARun : Obligations.ConfigWriteWritesARun := by
  intro tag item first count v s takes form i f n new answer run good
  refine ⟨fun running => exec_configWrite_refused takes ?_ tag, fun stopped unnamed => exec_configWrite_refused takes ?_ tag,
    fun stopped named bad => exec_configWrite_refused takes ?_ tag,
    fun stopped named fits bad => exec_configWrite_refused takes ?_ tag, fun stopped named fits fine => ?_⟩
  · unfold State.configCheck
    simp [running]
  · unfold State.configCheck
    simp only [stopped, Bool.false_eq_true, if_false]
    exact if_pos unnamed
  · rw [State.configCheck_stopped stopped named]
    exact if_neg bad
  · rw [State.configCheck_stopped stopped named]
    exact (if_pos fits).trans (if_neg bad)
  · have ok : s.configCheck i f n (v.toList.take n) = .ok new := by
      rw [State.configCheck_stopped stopped named]
      exact (if_pos fits).trans (if_pos fine)
    have length : (v.toList.take n).length = n := List.length_take_of_le fits.2.1
    have value := itemValue_writeItem s.items i f (v.toList.take n) (by rw [form.length_items]; omega)
      (by rw [form.length_item, length]; exact fits.2.2)
    have done := fun w writing => exec_configWrite_ok (w := w) takes ok writing tag
    generalize stored : ({ s.risen .cab with cs := { s.cs with items := new } } : State) = a at done
    have items : a.items = new := by rw [← stored]; rfl
    have halted : a.running = false := by rw [← stored]; exact stopped
    obtain ⟨cs, inputs, lcu⟩ := a.itemWritten_frame i f n
    have fault := fun other => a.itemWritten_fault (item := i) other f n
    have settled := (SettleOnly.refl (a.itemWritten i f n)).settle (s.risen .cab).sq
    generalize writing : (a.itemWritten i f n).settle (s.risen .cab).sq = w at settled
    have kept : w.items = new := by
      unfold State.items
      rw [settled.cs, cs]
      exact items
    have run' : w.running = false := by
      rw [settled.running]
      unfold State.running at halted ⊢
      rw [cs]
      exact halted
    refine ⟨_, done w writing.symm, run', fun j x => ?_, fun item13 ch written => ?_, fun item23 o live => ?_,
      fun item20 c => ?_, fun item27 => ?_, fun other => ?_, ?_, ?_, ?_, ?_⟩
    · refine (congrArg (itemValue · j x) kept).trans ((value j x).trans ?_)
      rw [length]
      refine if_ctx_congr .rfl (fun inside => ?_) fun _ => rfl
      unfold Values.nth
      rw [List.getD_eq_getElem?_getD, List.getD_eq_getElem?_getD, List.getElem?_take_of_lt (by omega)]
    · have written13 : a.itemWritten i f n = a.stillWritten f n := by rw [item13]; rfl
      refine (congrArg SpeedRec.timing (settled.speed ch)).trans ?_
      rw [written13]
      exact a.timing_stillWritten f n ch written
    · have written23 : a.itemWritten i f n = a.followLaw := by rw [item23]; rfl
      have live : a.order 7 = some o := by rw [← stored]; exact live
      rw [written23] at settled
      obtain ⟨o', after, still⟩ := settled.order_some (State.order_followLaw live)
      have law : defaultTrailerLaw w.items = defaultTrailerLaw a.items := by rw [kept, items]
      refine ⟨o', after, (congrArg Order.setpoint still).trans law.symm, (congrArg Order.gen still).trans ?_⟩
      rw [show (w.answering .cab _).items = w.items from rfl, law]
      rfl
    · have written20 : a.itemWritten i f n = a.hotTests := by rw [item20]; rfl
      have heat := settled.heatOf c
      rw [written20, State.heatOf_hotTests halted, items, ← kept, ← stored] at heat
      exact ⟨congrArg Prod.fst heat, congrArg Prod.snd heat⟩
    · have written27 : a.itemWritten i f n = a.followHold.fuConditions := by rw [item27]; rfl
      rw [written27] at settled
      have follow := State.conditions_followed a settled
      rw [← stored] at follow
      exact follow
    · obtain ⟨entry, record⟩ := fault other
      rw [← stored] at entry record
      refine ⟨(congrArg Fu.entry settled.fu).trans ?_, (congrArg Fu.record settled.fu).trans ?_⟩
      · rw [← stored]
        exact entry
      · rw [← stored]
        exact record
    · rw [State.port_answering_self, ← kept]
      rfl
    · refine settled.inputs.trans (inputs.trans ?_)
      rw [← stored]
      rfl
    · refine settled.leases.trans ?_
      rw [lcu, ← stored]
      rfl
    · refine settled.now.trans ?_
      rw [lcu, ← stored]
      rfl

end Sys2Proof.Machine
end

section
/-! SUPPORT, O3 and O15. The timebase and the lease list through every command: an event leaves the millisecond and keeps the
order of the leases, and the turn stands in a publication or in the end of a time (R28, R29, R44). -/

namespace Sys2Proof.Machine

variable {s t u : State}

/-! The order of the lease list (R29). -/

theorem Lease.before_iff {now : Time} {a b : Lease} :
    a.before now b = true ↔ remaining now a.deadline < remaining now b.deadline ∨
      remaining now a.deadline = remaining now b.deadline ∧ a.slot < b.slot := by
  simp [Lease.before]

theorem State.leasesOrdered_iff (s : State) :
    s.LeasesOrdered ↔ s.lcu.leases.Pairwise fun a b => a.before s.now b = true := by
  simp only [State.LeasesOrdered, Lease.before_iff]

theorem Lease.before_trans {now : Time} {a b c : Lease} (h : a.before now b = true) (g : b.before now c = true) :
    a.before now c = true := by
  rw [Lease.before_iff] at *
  omega

theorem Lease.before_of_not {now : Time} {a b : Lease} (ne : b.slot ≠ a.slot) (h : ¬ a.before now b = true) :
    b.before now a = true := by
  rw [Lease.before_iff] at *
  omega

/-- An entry that takes its place keeps the order. -/
theorem pairwise_insertLease {now : Time} {e : Lease} {l : List Lease}
    (ordered : l.Pairwise fun a b => a.before now b = true) (absent : ∀ x ∈ l, x.slot ≠ e.slot) :
    (insertLease now e l).Pairwise fun a b => a.before now b = true := by
  induction l with
  | nil => exact List.pairwise_singleton _ _
  | cons x l ih =>
    obtain ⟨ahead, rest⟩ := List.pairwise_cons.mp ordered
    unfold insertLease
    split
    · next first =>
      refine List.pairwise_cons.mpr ⟨fun y mem => ?_, ordered⟩
      rcases List.mem_cons.mp mem with rfl | mem
      · exact first
      · exact Lease.before_trans first (ahead y mem)
    · next later =>
      refine List.pairwise_cons.mpr ⟨fun y mem => ?_, ih rest fun y mem => absent y (List.mem_cons_of_mem x mem)⟩
      rcases List.mem_cons.mp ((insertLease_perm now e l).mem_iff.mp mem) with rfl | mem
      · exact Lease.before_of_not (absent x List.mem_cons_self) later
      · exact ahead y mem

theorem State.LeasesOrdered.congr (h : s.LeasesOrdered) (now : t.now = s.now) (leases : t.lcu.leases = s.lcu.leases) :
    t.LeasesOrdered := by
  unfold State.LeasesOrdered at h ⊢
  rw [leases, now]
  exact h

theorem State.LeasesOrdered.remove (h : s.LeasesOrdered) (k : Nat) (now : t.now = s.now)
    (leases : t.lcu.leases = removeLease k s.lcu.leases) : t.LeasesOrdered := by
  rw [State.leasesOrdered_iff] at h ⊢
  rw [leases, now]
  exact h.filter _

theorem State.LeasesOrdered.restartLease (h : s.LeasesOrdered) (k : Nat) (w : Word) : (s.restartLease k w).LeasesOrdered := by
  have removed := (State.leasesOrdered_iff s).mp h |>.filter fun e => decide (e.slot ≠ k)
  rw [State.leasesOrdered_iff]
  unfold State.restartLease
  dsimp only
  split
  · exact removed
  · exact pairwise_insertLease removed fun x mem => (mem_removeLease.mp mem).2

/-- A deadline that has not come is one millisecond nearer in the next one (R28). -/
theorem remaining_succ {now deadline : Time} (ahead : 0 < remaining now deadline) :
    remaining (now + 1) deadline + 1 = remaining now deadline := by
  have nearer : deadline - (now + 1) = deadline - now - 1 := by bv_omega
  unfold remaining at ahead ⊢
  dsimp only at ahead ⊢
  rw [nearer]
  generalize deadline - now = r at *
  have step : r ≠ 0 → (r - 1).toNat + 1 = r.toNat := by
    intro _
    bv_omega
  have zero : r = 0 → r.toNat = 0 := fun e => by rw [e]; rfl
  split at ahead
  · have := step fun e => by rw [zero e] at ahead; exact Nat.lt_irrefl _ ahead
    rw [if_pos (by omega), if_pos (by omega)]
    exact this
  · exact absurd ahead (Nat.lt_irrefl _)

/-- The turn of the timebase keeps the order of leases whose deadlines have not come. -/
theorem State.LeasesOrdered.tick (h : s.LeasesOrdered) (ahead : ∀ e ∈ s.lcu.leases, 0 < remaining s.now e.deadline) :
    s.tick.LeasesOrdered := by
  refine List.Pairwise.imp_of_mem (fun {a b} ha hb order => ?_) h
  have nearer_a := remaining_succ (ahead a ha)
  have nearer_b := remaining_succ (ahead b hb)
  show remaining (s.now + 1) a.deadline < remaining (s.now + 1) b.deadline ∨
    remaining (s.now + 1) a.deadline = remaining (s.now + 1) b.deadline ∧ a.slot < b.slot
  omega

/-! What an event does inside its millisecond. -/

/-- The timebase and the publication stand, and the lease list keeps its order. -/
structure InMillisecond (s t : State) : Prop where
  now : t.now = s.now
  published : t.mu.published = s.mu.published
  pub : t.pub = s.pub
  ordered : s.LeasesOrdered → t.LeasesOrdered

/-- Touches leave the leases alone. -/
theorem Touches.leases (m : Touches s t) : t.lcu.leases = s.lcu.leases := by
  refine m.keep (P := fun u => u.lcu.leases = s.lcu.leases) (fun v w m h => Eq.trans ?_ h) rfl
  cases m with
  | frame otu leases cs rp => exact leases
  | cause p c => rw [((CausesOnly.refl v).setCause p c).lcu]
  | enter p live => rw [((CausesOnly.refl v).enterSet p _).lcu]
  | write live same => rfl

namespace InMillisecond

theorem refl (s : State) : InMillisecond s s := ⟨rfl, rfl, rfl, id⟩

theorem trans (h : InMillisecond s t) (g : InMillisecond t u) : InMillisecond s u :=
  ⟨g.now.trans h.now, g.published.trans h.published, g.pub.trans h.pub, g.ordered ∘ h.ordered⟩

theorem ite {c : Prop} [Decidable c] {a b : State} (ha : InMillisecond s a) (hb : InMillisecond s b) :
    InMillisecond s (if c then a else b) := by
  split
  · exact ha
  · exact hb

theorem foldl {α : Type} (f : State → α → State) (hf : ∀ u a, InMillisecond u (f u a)) (l : List α)
    (h : InMillisecond s t) : InMillisecond s (l.foldl f t) := by
  induction l generalizing t with
  | nil => exact h
  | cons a l ih => exact ih (h.trans (hf t a))

theorem frame (h : InMillisecond s t) (now : u.lcu.now = t.lcu.now := by rfl)
    (published : u.mu.published = t.mu.published := by rfl) (pub : u.mu.pub = t.mu.pub := by rfl)
    (leases : u.lcu.leases = t.lcu.leases := by rfl) : InMillisecond s u :=
  h.trans ⟨now, published, pub, fun ordered => ordered.congr now leases⟩

/-- A change outside the LCU and the MU. -/
theorem elsewhere (h : InMillisecond s t) (lcu : u.lcu = t.lcu) (mu : u.mu = t.mu) : InMillisecond s u :=
  h.frame (by rw [lcu]) (by rw [mu]) (by rw [mu]) (by rw [lcu])

theorem job (h : InMillisecond s t) (g : JobOnly t u) : InMillisecond s u := h.elsewhere g.lcu g.mu

theorem causes (h : InMillisecond s t) (g : CausesOnly t u) : InMillisecond s u := h.elsewhere g.lcu g.mu

/-- A claim that starts and drops no lease. -/
theorem claim (h : InMillisecond s t) (g : ClaimOnly t u) (m : Touches t u) : InMillisecond s u :=
  h.frame g.now (by rw [g.mu]) (by rw [g.mu]) m.leases

theorem settle (h : InMillisecond s t) (old : Sq) : InMillisecond s (t.settle old) := by
  have only := (SettleOnly.refl t).settle old
  exact h.frame only.now (by rw [only.mu]) only.pub only.leases

/-! Leases. -/

theorem restartLease (h : InMillisecond s t) (k : Nat) (w : Word) : InMillisecond s (t.restartLease k w) :=
  h.trans ⟨rfl, rfl, rfl, fun ordered => ordered.restartLease k w⟩

theorem lcuForget (h : InMillisecond s t) (k : Nat) : InMillisecond s (t.lcuForget k) :=
  h.trans ⟨rfl, rfl, rfl, fun ordered => ordered.remove k rfl rfl⟩

theorem freeOrder (h : InMillisecond s t) (k : Nat) (o : Order) : InMillisecond s (t.freeOrder k o) := by
  have only := (ClaimOnly.refl t).freeOrder k o
  exact h.trans ⟨only.now, by rw [only.mu], congrArg Mu.pub only.mu, fun ordered => ordered.remove k only.now (t.leases_freeOrder k o)⟩

theorem freeIf (h : InMillisecond s t) (who : Owner → Bool) (k : Nat) : InMillisecond s (State.freeIf who t k) := by
  unfold State.freeIf
  split
  · exact ite (h.freeOrder _ _) h
  · exact h

theorem freeAll (h : InMillisecond s t) (who : Owner → Bool) : InMillisecond s (t.freeAll who) :=
  foldl _ (fun u k => (refl u).freeIf who k) _ h

/-! Claims. -/

theorem resolve (h : InMillisecond s t) (ch : Channel) (q a : Option Nat) : InMillisecond s (t.resolve ch q a) :=
  h.claim ((ClaimOnly.refl t).resolve ch q a) ((Touches.refl t).resolve ch q a)

theorem resolveAll (h : InMillisecond s t) (l : List Channel) : InMillisecond s (t.resolveAll l) :=
  h.claim ((ClaimOnly.refl t).resolveAll l) ((Touches.refl t).resolveAll l)

theorem takeCondition (h : InMillisecond s t) (k : Nat) (b : Bool) : InMillisecond s (t.takeCondition k b) :=
  h.claim ((ClaimOnly.refl t).takeCondition k b) ((Touches.refl t).takeCondition k b)

theorem lcuReport (h : InMillisecond s t) (k : Nat) (o : Order) : InMillisecond s (t.lcuReport k o) := by
  obtain ⟨-, -, leases, now, -⟩ := t.lcuReport_frame k o
  have only := (ClaimOnly.refl t).lcuReport k o
  exact h.frame now (by rw [only.mu]) (by rw [only.mu]) leases

theorem placeAt (h : InMillisecond s t) (p : Port) (k : Nat) (o : Order) : InMillisecond s (t.placeAt p k o) := by
  rw [State.placeAt_eq]
  have written : InMillisecond s (((t.setOrder k o).setLive p (t.live p + 1)).moveFront o.channel k) := h.frame
  exact (ite written (written.restartLease k o.lease)).resolve _ _ _

theorem amendAt (h : InMillisecond s t) (k : Nat) (o : Order) (first n : Nat) (front : Bool) :
    InMillisecond s (t.amendAt k o first n front) := by
  rw [State.amendAt_eq]
  have amended : InMillisecond s (t.amended k o first n) := by
    unfold State.amended
    dsimp only
    have written := ite (c := o.termCount = 0)
      (h.frame (u := t.setOrder k (t.handTerms { o with gen := if n = 0 then o.gen else nextGen o.gen } first n)))
      (h.lcuReport k (t.handTerms { o with gen := if n = 0 then o.gen else nextGen o.gen } first n))
    exact ite (written.restartLease k o.lease) written
  exact (ite amended.frame amended).resolve _ _ _

/-- The head of the lease list expires (R27, R31). -/
theorem leaseEnds (h : InMillisecond s t) : InMillisecond s t.leaseEnds := by
  unfold State.leaseEnds
  split
  · next k _ =>
    have dropped := h.lcuForget k
    unfold State.lapse
    split
    · next o _ =>
      have written : InMillisecond s ((t.lcuForget k).setOrder k o.lapsing) := dropped.frame
      exact (written.causes ((CausesOnly.refl _).noteChange k o)).resolve _ _ _
    · exact dropped
  · exact h

/-! Detections. -/

theorem markUnits (h : InMillisecond s t) (k : FaultKind) (site : Word) : InMillisecond s (t.markUnits k site) := by
  unfold State.markUnits
  dsimp only
  repeat' split
  all_goals exact h.frame

theorem detect (h : InMillisecond s t) (k : FaultKind) (site : Word) : InMillisecond s (t.detect k site) := by
  have latched : InMillisecond s { t with
    fu := { t.fu with record := t.recordFirst k site, entry := t.fu.entry.set k ⟨true, some site⟩ } } := h.frame
  have marked := (latched.causes ((CausesOnly.refl _).reportFault k)).markUnits k site
  exact (marked.job (JobOnly.refl _).unitsFollow).frame

theorem unmarkUnits (h : InMillisecond s t) (k : FaultKind) : InMillisecond s (t.unmarkUnits k) := by
  unfold State.unmarkUnits
  split
  all_goals exact h.frame

theorem unlatch (h : InMillisecond s t) (k : FaultKind) : InMillisecond s (t.unlatch k) := by
  have cleared : InMillisecond s { t with
    fu := { t.fu with
      record := recordAfter t.fu.record k,
      entry := t.fu.entry.set k { t.fu.entry.get k with latched := false } } } := h.frame
  exact ((cleared.unmarkUnits k).job (JobOnly.refl _).unitsFollow).frame

theorem hotTests (h : InMillisecond s t) : InMillisecond s t.hotTests :=
  foldl _ (fun u _ => ite ((refl u).frame.detect _ _) (ite (refl u).frame (refl u))) _ h

theorem starve (h : InMillisecond s t) (c : WaitClass) : InMillisecond s (t.starve c) := by
  unfold State.starve
  dsimp only
  split
  · exact (h.frame.detect _ _).job (JobOnly.refl _).grantPass.sqStarved
  · exact (h.frame.detect _ _).job (JobOnly.refl _).grantPass.acuStarved

theorem enableLost (h : InMillisecond s t) : InMillisecond s t.enableLost := ite h (h.detect _ _)

theorem sqPublish (h : InMillisecond s t) (old : Band) : InMillisecond s (t.sqPublish old) := by
  unfold State.sqPublish
  refine ite h ?_
  refine (h.job (JobOnly.refl t).heatUp).hotTests.job ?_
  exact ((((((JobOnly.refl _).observe).pedalChange old).standstill).lockStart).looseStart).tryStart

theorem lcuPublish (h : InMillisecond s t) : InMillisecond s t.lcuPublish :=
  h.claim (ClaimOnly.refl t).lcuPublish (Touches.refl t).lcuPublish

/-! Requests. -/

theorem setPort (h : InMillisecond s t) (p : Port) (r : PortRec) : InMillisecond s (t.setPort p r) := h.frame

theorem attended (h : InMillisecond s t) (p : Port) (r : PortRec) : InMillisecond s ((t.setPort p r).attend p) := h.frame

theorem request {p : Port} {code tag : Byte} {run : State → State × Option Answer}
    (keeps : ∀ u, InMillisecond u (run u).1) : InMillisecond s (s.request p code tag run) := by
  unfold State.request
  dsimp only
  split
  · exact (refl s).setPort _ _
  · exact (refl s).setPort _ _
  · have taken := ((refl s).setPort p { (s.port p).begin with txn := none }).trans (keeps _)
    split
    · exact taken.setPort _ _
    · exact taken

theorem cabRequest {p : Port} {code tag : Byte} {run : State → State × Answer}
    (keeps : ∀ u, InMillisecond u (run u).1) : InMillisecond s (s.cabRequest p code tag run) := by
  refine request fun u => ?_
  cases p with
  | cab => exact keeps u
  | implement => exact refl u

theorem query {p : Port} {code tag : Byte} {answer : State → Answer} : InMillisecond s (s.query p code tag answer) :=
  request fun u => refl u

theorem runPlace (u : State) (p : Port) (tag channel cls terms : Byte) (lease : Word) (v : Values) :
    InMillisecond u (u.runPlace p tag channel cls terms lease v).1 := by
  unfold State.runPlace
  split
  · exact refl u
  · split
    · exact refl u
    · split
      · exact refl u
      · exact ((refl u).placeAt _ _ _).settle _

theorem runAmend (u : State) (p : Port) (tag slot inc first : Byte) (front : Bool) (count : BitVec 7) (gen : Word)
    (v : Values) : InMillisecond u (u.runAmend p tag slot inc first front count gen v).1 := by
  unfold State.runAmend
  dsimp only
  split
  · exact refl u
  · split
    · exact refl u
    · exact ((refl u).amendAt _ _ _ _ _).settle _

theorem runRenew (u : State) (p : Port) (tag slot inc : Byte) : InMillisecond u (u.runRenew p tag slot inc).1 := by
  unfold State.runRenew
  dsimp only
  split
  · exact refl u
  · split
    · exact refl u
    · split
      · exact refl u
      · exact ite (refl u) ((refl u).restartLease _ _)

theorem runRetire (u : State) (p : Port) (tag slot inc : Byte) (gen : Word) :
    InMillisecond u (u.runRetire p tag slot inc gen).1 := by
  unfold State.runRetire
  dsimp only
  split
  · exact refl u
  · split
    · exact refl u
    · split
      · exact refl u
      · exact (((refl u).freeOrder _ _).resolve _ _ _).settle _

theorem runMask (u : State) (p : Port) (code tag mask : Byte) (f : {n : Nat} → BitVec n → BitVec n → BitVec n)
    (value : Word) : InMillisecond u (u.runMask p code tag mask f value).1 := by
  unfold State.runMask
  split
  · exact (refl u).attended _ _
  · exact (refl u).frame
  · exact refl u

theorem resetPort (h : InMillisecond s t) (p : Port) : InMillisecond s (t.resetPort p) := by
  have cleared : InMillisecond s { t.setPort p ((t.port p).cleared t.now (throttleMs t.items p)) with
    fu := { t.fu with mask := t.fu.mask.set p 0 } } := h.frame
  exact (((cleared.freeAll _).resolveAll _).settle t.sq).setPort _ _

theorem runClear (u : State) (tag kind : Byte) : InMillisecond u (u.runClear tag kind).1 := by
  unfold State.runClear
  split
  · exact refl u
  · split
    · exact refl u
    · split
      · exact refl u
      · dsimp only
        exact ((refl u).unlatch _).settle _

theorem itemWritten (h : InMillisecond s t) (item first n : Nat) : InMillisecond s (t.itemWritten item first n) := by
  unfold State.itemWritten
  split
  · exact foldl _ (fun v ch => ite (refl v).frame (refl v)) _ h
  · exact h.hotTests
  · exact h.claim (ClaimOnly.refl t).followLaw (Touches.refl t).followLaw
  · exact (h.job (JobOnly.refl t).followHold).frame
  · exact h

theorem runConfigWrite (u : State) (tag item first count : Byte) (v : Values) :
    InMillisecond u (u.runConfigWrite tag item first count v).1 := by
  unfold State.runConfigWrite
  dsimp only
  split
  · exact refl u
  · exact ((refl u).frame.itemWritten _ _ _).settle _

theorem runAdaptRead (u : State) (tag first count : Byte) : InMillisecond u (u.runAdaptRead tag first count).1 := by
  unfold State.runAdaptRead
  split <;> exact refl u

theorem runAdaptWrite (u : State) (tag first count : Byte) (v : Values) :
    InMillisecond u (u.runAdaptWrite tag first count v).1 := by
  unfold State.runAdaptWrite
  dsimp only
  repeat' split
  all_goals exact (refl u).frame

theorem tbuTake (h : InMillisecond s t) : InMillisecond s t.tbuTake := h.frame

theorem stopUnits (h : InMillisecond s t) : InMillisecond s t.stopUnits := h.frame

theorem starting (u : State) : InMillisecond u u.starting := by
  have started : InMillisecond u { u with cs := { u.cs with device := .run } } := (refl u).frame
  exact ((started.job (JobOnly.refl _).sqStart.acuTake.hrStart).tbuTake.enableLost).settle _

theorem runStart (u : State) (tag : Byte) : InMillisecond u (u.runStart tag).1 := by
  unfold State.runStart
  split
  · exact refl u
  · split
    · exact refl u
    · dsimp only
      exact starting u

theorem runStop (u : State) (tag : Byte) : InMillisecond u (u.runStop tag).1 := by
  unfold State.runStop
  split
  · have stopped : InMillisecond u { u with cs := { u.cs with device := .config } } := (refl u).frame
    have freed := (stopped.freeAll fun o => o ≠ .internal).resolveAll Channel.all
    have kept := foldl State.stopKeeping
      (fun v k => (refl v).claim ((ClaimOnly.refl v).stopKeeping k) ((Touches.refl v).stopKeeping k)) (List.range 8) freed
    exact kept.stopUnits.settle _
  · exact refl u

/-! Events. -/

theorem event {f : State → State} (keeps : InMillisecond s (f s)) (c : Bool) : InMillisecond s (s.event c f) := by
  unfold State.event
  exact ite (keeps.settle _) (refl s)

theorem enableFalls (u : State) : InMillisecond u u.enableFalls := by
  unfold State.enableFalls
  dsimp only
  have guarded : InMillisecond u ({ u with inputs := { u.inputs with enable := false } } : State).osGuard := (refl u).frame
  exact ite ((guarded.job (JobOnly.refl _).acuEnableFall.hrRefresh.halt).detect _ _) guarded.frame

theorem enableRises (u : State) : InMillisecond u u.enableRises := by
  unfold State.enableRises
  dsimp only
  have raised : InMillisecond u { u with inputs := { u.inputs with enable := true } } := (refl u).frame
  exact (ite (raised.job (JobOnly.refl _).acuFollow.hrRefresh.replan) raised).frame

/-- What the units do with the quantities of a publication. -/
theorem published_units (u : State) (old : Band) (was lowering : Bool) :
    InMillisecond u (((u.lcuPublish.sqPublish old).acuPublish was).hrPublish lowering) :=
  ((refl u).lcuPublish.sqPublish old).job (((JobOnly.refl _).acuPublish was).hrPublish lowering)

end InMillisecond

/-- A publication, once the quantities of its millisecond are measured, moves neither timebase nor leases. -/
theorem publication_inMillisecond {raw : ByConv (BitVec 12)} (h : exec (.muPublication raw) s = .next t) :
    InMillisecond (s.pubTime.muPublish raw) t := by
  change execMuPublication raw s = .next t at h
  unfold execMuPublication at h
  rw [State.event_pos rfl, Host.Outcome.next.injEq] at h
  subst h
  exact (InMillisecond.published_units _ _ _ _).settle s.sq

theorem State.now_muPublish (s : State) (raw : ByConv (BitVec 12)) : (s.muPublish raw).now = s.now := rfl

theorem State.published_muPublish (s : State) (raw : ByConv (BitVec 12)) : (s.muPublish raw).mu.published = true := rfl

theorem State.lcu_muPublish (s : State) (raw : ByConv (BitVec 12)) : (s.muPublish raw).lcu = s.lcu := rfl

/-- The millisecond of a publication: the next one, unless its own turn stood in the end of a time (log 3). -/
theorem State.now_pubTime (s : State) : s.pubTime.now = if s.mu.published then s.now + 1 else s.now := by
  unfold State.pubTime
  split <;> rfl

/-! Ends of times (log 3). -/

/-- What the end of a time does: it stays in its millisecond, or it brings the turn and is taken in the turned state. -/
inductive Timed (c : Instr) (s t : State) : Prop where
  | stays (h : InMillisecond s t)
  | turns (ends : endsTime c = true) (published : s.mu.published = true) (h : InMillisecond s.turned t)
      (again : exec c s.turned = .next t)

/-- The end of a time, as its command takes it. -/
theorem Timed.expire {c : Instr} {due : State → Bool} {f : State → State}
    (runs : ∀ u, exec c u = .next (u.expire due f)) (ends : endsTime c = true) (keeps : ∀ u, InMillisecond u (f u))
    (h : exec c s = .next t) : Timed c s t := by
  have event : ∀ u : State, u.reach due = u → InMillisecond u (u.expire due f) := by
    intro u stays
    unfold State.expire
    rw [stays]
    exact .event (keeps u) _
  rw [runs, Host.Outcome.next.injEq] at h
  subst h
  rcases s.reach_cases due with stays | ⟨waits, published, comes, -⟩
  · exact .stays (event s stays)
  · have taken := State.expire_turned waits published comes f
    refine .turns ends published ?_ ?_
    · rw [taken]
      exact event _ (State.reach_due comes)
    · rw [runs, taken]

theorem Timed.stepExpire {c : Instr} {step : State → Option GearStep} {f : State → GearStep → State}
    (runs : ∀ u, exec c u = u.stepExpire step f) (ends : endsTime c = true) (keeps : ∀ u st, InMillisecond u (f u st))
    (h : exec c s = .next t) : Timed c s t := by
  refine Timed.expire runs ends (fun u => ?_) h
  split
  · exact keeps u _
  · exact .refl u

theorem Timed.looseExpire {c : Instr} {due : State → Dir → Bool} {f : State → Dir → State}
    (runs : ∀ u, exec c u = u.looseExpire due f) (ends : endsTime c = true) (keeps : ∀ u d, InMillisecond u (f u d))
    (h : exec c s = .next t) : Timed c s t := by
  refine Timed.expire runs ends (fun u => ?_) h
  split
  · exact keeps u _
  · exact .refl u

/-- The throttle timer of a port is taken without settling (R177). -/
theorem Timed.throttle (p : Port) (h : exec (.throttleTimerExpiry p) s = .next t) : Timed (.throttleTimerExpiry p) s t := by
  have runs : ∀ u : State, exec (.throttleTimerExpiry p) u = execThrottleTimerExpiry p u := fun _ => rfl
  have event : ∀ u w : State, (u.reach fun s => s.throttleDue p) = u → execThrottleTimerExpiry p u = .next w →
      InMillisecond u w := by
    intro u w stays done
    unfold execThrottleTimerExpiry at done
    rw [stays] at done
    cases done
    exact .ite ((InMillisecond.refl u).attended _ _) (.refl u)
  rw [runs] at h
  rcases s.reach_cases fun s => s.throttleDue p with stays | ⟨-, published, comes, turns⟩
  · exact .stays (event s t stays h)
  · have again : execThrottleTimerExpiry p s.turned = .next t := by
      rw [← h]
      unfold execThrottleTimerExpiry
      rw [turns, State.reach_due comes]
    exact .turns rfl published (event _ t (State.reach_due comes) again) again

open InMillisecond in
/-- What every command but the publication and power-on reset does to the timebase and to the order of the leases. -/
theorem exec_timed {c : Instr} (noPublication : ∀ raw, c ≠ .muPublication raw) (noReset : c ≠ .powerOnReset)
    (h : exec c s = .next t) : Timed c s t := by
  have only : ∀ {u : State}, InMillisecond s u → (.next u : Host.Outcome State Fault Refusal) = .next t → Timed c s t := by
    intro u kept done
    cases done
    exact .stays kept
  have here := InMillisecond.refl
  have job : ∀ {u w : State}, JobOnly u w → InMillisecond u w := fun g => (InMillisecond.refl _).job g
  cases c with
  | powerOnReset => exact absurd rfl noReset
  | muPublication raw => exact absurd rfl (noPublication raw)
  | nop | read | find | list | status | faultRead | configRead | badRequest => exact only query h
  | place => exact only (request fun u => runPlace u ..) h
  | amend => exact only (request fun u => runAmend u ..) h
  | renew => exact only (request fun u => runRenew u ..) h
  | retire => exact only (request fun u => runRetire u ..) h
  | collect => exact only (request fun u => (here u).setPort _ _) h
  | causes => exact only (request fun u => (here u).attended _ _) h
  | maskSet | maskClear => exact only (request fun u => runMask u ..) h
  | portReset => exact only (request fun u => (here u).resetPort _) h
  | badFrame => exact only (request fun u => (here u).setPort _ _) h
  | clearFault => exact only (cabRequest fun u => runClear u ..) h
  | configWrite => exact only (cabRequest fun u => runConfigWrite u ..) h
  | adaptRead => exact only (cabRequest fun u => runAdaptRead u ..) h
  | adaptWrite => exact only (cabRequest fun u => runAdaptWrite u ..) h
  | start => exact only (cabRequest fun u => runStart u _) h
  | stop => exact only (cabRequest fun u => runStop u _) h
  | busy | transactionBegin | answerWritten | heldResetDiscard => exact only ((here s).setPort _ _) h
  | portResetInput p level =>
    change execPortResetInput p level s = .next t at h
    unfold execPortResetInput at h
    split at h
    · exact only ((here s).setPort _ _) h
    · split at h
      · exact only (here s) h
      · exact only (((here s).setPort _ _).resetPort p) h
  | enableFall => exact only (event (enableFalls s) _) h
  | enableRise => exact only (event (enableRises s) _) h
  | periodBoundary | trailerPresentChange | breakawayInputChange | selectedEdge => exact only (event (here s).frame _) h
  | coolingStep => exact only (event (((here s).job (JobOnly.refl s).cool).hotTests.job (JobOnly.refl _).tryStart) _) h
  | shortCircuitTrip => exact only (event ((here s).frame.detect _ _) _) h
  | conditionReport slot =>
    change execConditionReport slot s = .next t at h
    unfold execConditionReport at h
    split at h
    · exact only (event ((here s).frame.takeCondition _ _) _) h
    · exact only (here s) h
  | faultConditionReport which =>
    change execFaultConditionReport which s = .next t at h
    unfold execFaultConditionReport at h
    split at h
    · exact only (event ((here s).frame.takeCondition _ _) _) h
    · exact only (here s) h
  | debounceTimerExpiry | speedChannelStall | recordedEdgeExpiry | excessTimerExpiry | stepTimerExpiry
  | brakeAxleReleaseTimerExpiry =>
    exact .expire (fun _ => rfl) rfl (fun u => (here u).frame) h
  | breakawayTimerExpiry | lostTimerExpiry | windowTimerExpiry | mismatchTimerExpiry | supplyTimerExpiry
  | gearSlipTimerExpiry | axleMismatchTimerExpiry | stallTimerExpiry | trackingTimerExpiry | openLoadTimerExpiry =>
    exact .expire (fun _ => rfl) rfl (fun u => (here u).frame.detect _ _) h
  | leaseExpiry => exact .expire (fun _ => rfl) rfl (fun u => (here u).leaseEnds) h
  | dwellEnd slot n =>
    exact .expire (fun _ => rfl) rfl
      (fun u => (here u).claim ((ClaimOnly.refl u).dwellEnds slot n) ((Touches.refl u).dwellEnds slot n)) h
  | flowWaitExpiry => exact .expire (fun _ => rfl) rfl (fun u => (here u).starve _) h
  | fillEnd => exact .stepExpire (fun _ => rfl) rfl (fun u st => job ((JobOnly.refl u).fillDone st)) h
  | holdEnd => exact .stepExpire (fun _ => rfl) rfl (fun u st => job ((JobOnly.refl u).holdDone st)) h
  | rampOnEnd => exact .stepExpire (fun _ => rfl) rfl (fun u st => job ((JobOnly.refl u).rampDone st)) h
  | rampOffEnd => exact .stepExpire (fun _ => rfl) rfl (fun u st => job ((JobOnly.refl u).zeroNeutral st).tryStart) h
  | decelerationLimitExpiry => exact .stepExpire (fun _ => rfl) rfl (fun u st => job ((JobOnly.refl u).endDecel st)) h
  | lockRampEnd owner =>
    cases owner with
    | step => exact .stepExpire (fun _ => rfl) rfl (fun u st => job ((JobOnly.refl u).lockStep st true)) h
    | direction => exact .looseExpire (fun _ => rfl) rfl (fun u d => job ((JobOnly.refl u).lockLoose d)) h
  | syncLimitExpiry owner =>
    cases owner with
    | step =>
      exact .stepExpire (fun _ => rfl) rfl (fun u st => (job ((JobOnly.refl u).lockStep st false)).detect _ _) h
    | direction => exact .looseExpire (fun _ => rfl) rfl (fun u d => (job ((JobOnly.refl u).lockLoose d)).detect _ _) h
  | upTimerExpiry => exact .expire (fun _ => rfl) rfl (fun u => job (JobOnly.refl u).upExpires) h
  | downTimerExpiry => exact .expire (fun _ => rfl) rfl (fun u => job (JobOnly.refl u).downExpires) h
  | setTimerExpiry | clearTimerExpiry | settleEnd =>
    exact .expire (fun _ => rfl) rfl (fun u => job (.acuFollow (.setAcu (.refl u) _))) h
  | axleFillEnd => exact .expire (fun _ => rfl) rfl (fun u => job (.releaseAxle (.setAcu (.refl u) _))) h
  | deviationTimerExpiry => exact .expire (fun _ => rfl) rfl (fun u => job (.hrCorrect (.setHr (.refl u) _))) h
  | throttleTimerExpiry p => exact .throttle p h

/-- The timebase does not stand still as it turns. -/
theorem time_succ_ne (now : Time) : now + 1 ≠ now := by bv_omega

/-- Settles O3. -/
theorem timebaseCountsMilliseconds : Obligations.TimebaseCountsMilliseconds := by
  intro c s t h
  split
  · next raw =>
    have kept := publication_inMillisecond h
    exact ⟨kept.now.trans (s.pubTime.now_muPublish raw |>.trans s.now_pubTime),
      kept.published.trans (s.pubTime.published_muPublish raw)⟩
  · cases h
    exact ⟨rfl, rfl⟩
  · next noPublication noReset =>
    cases exec_timed noPublication noReset h with
    | stays kept => exact .inl ⟨kept.now, kept.published⟩
    | turns ends published kept again =>
      exact .inr ⟨ends, published, kept.now.trans s.turned_now, kept.published.trans s.turned_published, again⟩

/-- The turn brings every deadline that has not come nearer by the same millisecond. -/
theorem State.LeasesOrdered.turn (h : s.LeasesOrdered) (turned : t.now = s.now + 1)
    (kept : s.tick.LeasesOrdered → t.LeasesOrdered)
    (premise : t.now = s.now ∨ (∀ e ∈ s.lcu.leases, 0 < remaining s.now e.deadline) ∨ t.lcu.leases = []) :
    t.LeasesOrdered := by
  rcases premise with stands | ahead | none
  · exact absurd (turned.symm.trans stands) (time_succ_ne s.now)
  · exact kept (h.tick ahead)
  · unfold State.LeasesOrdered
    rw [none]
    exact .nil

theorem exec_leasesOrdered {c : Instr} (h : s.LeasesOrdered) (run : exec c s = .next t)
    (premise : t.now = s.now ∨ (∀ e ∈ s.lcu.leases, 0 < remaining s.now e.deadline) ∨ t.lcu.leases = []) :
    t.LeasesOrdered := by
  by_cases publication : ∃ raw, c = .muPublication raw
  · obtain ⟨raw, rfl⟩ := publication
    have kept := publication_inMillisecond run
    have now := kept.now.trans (s.pubTime.now_muPublish raw)
    have measured : s.pubTime.LeasesOrdered → t.LeasesOrdered := fun ordered =>
      kept.ordered (ordered.congr (s.pubTime.now_muPublish raw) (by rw [State.lcu_muPublish]))
    by_cases published : s.mu.published = true
    · have time : s.pubTime = s.tick := if_pos published
      rw [time] at now measured
      exact h.turn now measured premise
    · have time : s.pubTime = s := if_neg published
      exact measured (time.symm ▸ h)
  · by_cases reset : c = .powerOnReset
    · subst reset
      cases run
      exact List.Pairwise.nil
    · cases exec_timed (fun raw e => publication ⟨raw, e⟩) reset run with
      | stays kept => exact kept.ordered h
      | turns _ _ kept _ =>
        refine h.turn (kept.now.trans s.turned_now) (fun ordered => kept.ordered ?_) premise
        exact ordered.congr s.turned_settled.now s.turned_settled.leases

/-- Settles O15: inside a millisecond every change of the list keeps its order. -/
theorem leasesOrderedKept : Obligations.LeasesOrderedKept := by
  intro s t ordered run premise
  unfold step at run
  split at run
  · next rest _ => exact exec_leasesOrdered (s := { s with pending := rest }) ordered run premise
  · cases run
    exact ordered

end Sys2Proof.Machine
end

section
/-! SUPPORT and O48. What a sweep of the condition terms and the end of an event do to the orders, term by term, and the ends
of a dwell and of the release of BRAKE_AXLE (R34 to R38, R40). -/

namespace Sys2Proof.Machine

variable {s t : State}

/-! Sweeps (R35, R37). -/

/-- An order as a sweep leaves it: its terms take the present values, and its condition is worked out (R38). -/
def State.swept (s : State) (about : Quantity → Bool) (o : Order) : Order :=
  if o.termCount = 0 ∨ o.state = .lapsed then o
  else
    let o' := { o with term1 := s.sweepTerm about o.term1, term2 := s.sweepTerm about o.term2 }
    { o' with lcuCond := o'.termsTrue }

/-- What a sweep looks at beside the orders: the timebase and the quantities. -/
structure SameValues (s t : State) : Prop where
  now : t.now = s.now
  quantity : ∀ q, t.quantity q = s.quantity q

theorem SameValues.trans {u : State} (h : SameValues s t) (g : SameValues t u) : SameValues s u :=
  ⟨g.now.trans h.now, fun q => (g.quantity q).trans (h.quantity q)⟩

theorem SameValues.of_eq (now : t.now = s.now) (pub : t.pub = s.pub) (gear : t.sq.gearNumber = s.sq.gearNumber) :
    SameValues s t := by
  refine ⟨now, fun q => ?_⟩
  unfold State.quantity
  rw [pub, gear]

theorem SameValues.swept (h : SameValues s t) (about : Quantity → Bool) (o : Order) : t.swept about o = s.swept about o := by
  have term : ∀ r, t.sweepTerm about r = s.sweepTerm about r := by
    intro r
    unfold State.sweepTerm
    simp only [h.now, h.quantity]
  unfold State.swept
  simp only [term]

theorem SameValues.lcuReport (s : State) (k : Nat) (o : Order) : SameValues s (s.lcuReport k o) := by
  unfold State.lcuReport
  dsimp only
  split <;> exact ⟨rfl, fun _ => rfl⟩

theorem SameValues.sweepSlot (s : State) (about : Quantity → Bool) (k : Nat) : SameValues s (State.sweepSlot about s k) := by
  unfold State.sweepSlot
  split
  · split
    · exact ⟨rfl, fun _ => rfl⟩
    · exact .lcuReport _ _ _
  · exact ⟨rfl, fun _ => rfl⟩

theorem State.order_sweepSlot (s : State) (about : Quantity → Bool) (k j : Nat) :
    (State.sweepSlot about s k).order j = if j = k then (s.order k).map (s.swept about) else s.order j := by
  unfold State.sweepSlot
  cases live : s.order k with
  | none =>
    dsimp only
    split
    · next e => rw [e, live, Option.map_none]
    · rfl
  | some o =>
    dsimp only
    unfold State.swept
    rw [Option.map_some]
    split
    · split
      · next e => rw [e, live]
      · rfl
    · exact State.order_lcuReport live _ j

/-- Reports appended behind those that wait, one of them for each condition that `after` gives another truth. -/
def ReportsTo (s t : State) (slots : List Nat) (after : Order → Order) : Prop :=
  ∃ l, t.lcu = { s.lcu with reports := s.lcu.reports ++ l } ∧
    ∀ k ∈ slots, ∀ o, s.order k = some o → (after o).lcuCond ≠ o.lcuCond → (k, (after o).lcuCond) ∈ l

theorem State.reports_sweepSlot (s : State) (about : Quantity → Bool) (k : Nat) :
    ReportsTo s (State.sweepSlot about s k) [k] (s.swept about) := by
  have none : ∀ {o : Order}, s.order k = some o → (s.swept about o).lcuCond = o.lcuCond →
      ∀ j ∈ [k], ∀ o, s.order j = some o → (s.swept about o).lcuCond ≠ o.lcuCond →
        (j, (s.swept about o).lcuCond) ∈ ([] : List (Nat × Bool)) := by
    intro o live same j mem o' live' changed
    rw [List.mem_singleton.mp mem, live, Option.some.injEq] at live'
    exact absurd (live' ▸ same) changed
  unfold ReportsTo State.sweepSlot
  cases live : s.order k with
  | none =>
    refine ⟨[], by simp, fun j mem o live' => ?_⟩
    rw [List.mem_singleton.mp mem, live] at live'
    cases live'
  | some o =>
    dsimp only
    by_cases rests : o.termCount = 0 ∨ o.state = .lapsed
    · rw [if_pos rests]
      exact ⟨[], by simp, none live (by unfold State.swept; rw [if_pos rests])⟩
    · rw [if_neg rests]
      have after : (s.swept about o).lcuCond =
          ({ o with term1 := s.sweepTerm about o.term1, term2 := s.sweepTerm about o.term2 } : Order).termsTrue := by
        unfold State.swept
        rw [if_neg rests]
      unfold State.lcuReport
      dsimp only
      split
      · next same => exact ⟨[], by simp, none live (after.trans same)⟩
      · refine ⟨_, rfl, fun j mem o' live' _ => ?_⟩
        rw [List.mem_singleton.mp mem, live, Option.some.injEq] at live'
        rw [← live', after, List.mem_singleton.mp mem]
        exact List.mem_singleton_self _

/-- A sweep of some slots, each of them once. -/
theorem State.foldl_sweepSlot (about : Quantity → Bool) {l : List Nat} (nodup : l.Nodup) (s : State) :
    (∀ j, (l.foldl (State.sweepSlot about) s).order j = if j ∈ l then (s.order j).map (s.swept about) else s.order j) ∧
      ReportsTo s (l.foldl (State.sweepSlot about) s) l (s.swept about) := by
  induction l generalizing s with
  | nil => exact ⟨fun _ => rfl, [], by simp, fun _ mem => by cases mem⟩
  | cons k l ih =>
    obtain ⟨out, nodup⟩ := List.nodup_cons.mp nodup
    obtain ⟨orders, m, reports, told⟩ := ih nodup (State.sweepSlot about s k)
    obtain ⟨m', reports', told'⟩ := s.reports_sweepSlot about k
    have same : (State.sweepSlot about s k).swept about = s.swept about :=
      funext fun o => (SameValues.sweepSlot s about k).swept about o
    refine ⟨fun j => ?_, m' ++ m, ?_, fun j mem o live changed => ?_⟩
    · rw [List.foldl_cons, orders, same, State.order_sweepSlot]
      by_cases here : j = k
      · subst here
        simp [out]
      · simp [here]
    · rw [List.foldl_cons, reports, reports', List.append_assoc]
    · rcases List.mem_cons.mp mem with rfl | mem
      · exact List.mem_append_left _ (told' j (List.mem_singleton_self j) o live changed)
      · have ne : j ≠ k := fun e => out (e ▸ mem)
        rw [same] at told
        exact List.mem_append_right _ (told j mem o (by rw [State.order_sweepSlot, if_neg ne, live]) changed)

theorem State.order_sweep (s : State) (about : Quantity → Bool) (k : Nat) :
    (s.sweep about).order k = if k < 48 then (s.order k).map (s.swept about) else s.order k := by
  unfold State.sweep
  rw [(State.foldl_sweepSlot about List.nodup_range s).1 k]
  simp only [List.mem_range]

theorem State.reports_sweep (s : State) (about : Quantity → Bool) :
    ReportsTo s (s.sweep about) (List.range 48) (s.swept about) :=
  (State.foldl_sweepSlot about List.nodup_range s).2

/-- A sweep depends on the order table, the LCU and the values alone. -/
theorem State.sweep_congr (values : SameValues s t) (otu : t.otu = s.otu) (lcu : t.lcu = s.lcu) (about : Quantity → Bool) :
    (t.sweep about).otu = (s.sweep about).otu ∧ (t.sweep about).lcu = (s.sweep about).lcu := by
  have slot : ∀ (u v : State) k, SameValues u v → v.otu = u.otu → v.lcu = u.lcu →
      (State.sweepSlot about v k).otu = (State.sweepSlot about u k).otu ∧
        (State.sweepSlot about v k).lcu = (State.sweepSlot about u k).lcu := by
    intro u v k values otu lcu
    have term : ∀ r, v.sweepTerm about r = u.sweepTerm about r := by
      intro r
      unfold State.sweepTerm
      simp only [values.now, values.quantity]
    have inc : v.incarnation k = u.incarnation k := by
      unfold State.incarnation
      rw [otu]
    unfold State.sweepSlot
    rw [State.order_congr otu]
    split
    · split
      · exact ⟨otu, lcu⟩
      · unfold State.lcuReport
        simp only [term]
        split <;> simp [otu, lcu, inc]
    · exact ⟨otu, lcu⟩
  unfold State.sweep
  generalize List.range 48 = l
  induction l generalizing s t with
  | nil => exact ⟨otu, lcu⟩
  | cons k l ih =>
    obtain ⟨otu', lcu'⟩ := slot s t k values otu lcu
    have after := (SameValues.sweepSlot t about k)
    have before := (SameValues.sweepSlot s about k)
    refine ih (SameValues.trans ⟨before.now.symm, fun q => (before.quantity q).symm⟩ (values.trans after)) otu' lcu'

/-! The end of an event. -/

/-- An order without its keeping. -/
def Order.unkept (o : Order) : Order := { o with keeping := .none }

theorem State.unkept_writeKeeping (s : State) (ch : Channel) (v : Keeping) (k : Nat) :
    ((s.writeKeeping ch v).order k).map Order.unkept = (s.order k).map Order.unkept := by
  rw [State.order_writeKeeping]
  split
  · rw [Option.map_map]
    rfl
  · rfl

theorem State.lcu_writeKeeping (s : State) (ch : Channel) (v : Keeping) : (s.writeKeeping ch v).lcu = s.lcu := by
  unfold State.writeKeeping
  split
  · rfl
  · split
    · rfl
    · split
      · rfl
      · rw [((CausesOnly.refl _).noteChange _ _).lcu]
        rfl

theorem State.unkept_keepAll (s : State) :
    s.keepAll.lcu = s.lcu ∧ ∀ k, (s.keepAll.order k).map Order.unkept = (s.order k).map Order.unkept := by
  unfold State.keepAll
  split
  · simp only [State.lcu_writeKeeping, State.unkept_writeKeeping, true_and, implies_true]
  · exact ⟨rfl, fun _ => rfl⟩

/-- A gear number that is new since `old` reaches its terms. -/
def State.geared (s : State) (old : Sq) : State := if s.sq.gearNumber = old.gearNumber then s else s.lcuGear

theorem State.geared_congr (values : SameValues s t) (gear : t.sq.gearNumber = s.sq.gearNumber) (otu : t.otu = s.otu)
    (lcu : t.lcu = s.lcu) (old : Sq) : (t.geared old).otu = (s.geared old).otu ∧ (t.geared old).lcu = (s.geared old).lcu := by
  unfold State.geared
  rw [gear]
  split
  · exact ⟨otu, lcu⟩
  · exact State.sweep_congr values otu lcu _

/-- The causes that a change of the gear record sets are beside the terms (R75). -/
theorem State.gearReport_geared (s : State) (old : Sq) :
    (s.gearReport old).otu = (s.geared old).otu ∧ (s.gearReport old).lcu = (s.geared old).lcu := by
  have noted := CausesOnly.ite (c := s.sq.record = old.record) (.refl s) ((CausesOnly.refl s).setCauseBoth .gear)
  unfold State.gearReport
  dsimp only
  generalize (if s.sq.record = old.record then s else s.setCauseBoth .gear) = u at noted
  rw [← noted.sq]
  refine State.geared_congr (t := u) (.of_eq ?_ ?_ ?_) ?_ noted.otu noted.lcu old
  · unfold State.now
    rw [noted.lcu]
  · unfold State.pub
    rw [noted.mu]
  · rw [noted.sq]
  · rw [noted.sq]

theorem State.guarded_table (s : State) :
    s.osGuard.sqGuard.otu = s.otu ∧ s.osGuard.sqGuard.lcu = s.lcu ∧ s.osGuard.sqGuard.mu = s.mu := ⟨rfl, rfl, rfl⟩

theorem SettleOnly.gearNumber (h : SettleOnly s t) : t.sq.gearNumber = s.sq.gearNumber := by
  unfold Sq.gearNumber
  rw [h.engaged, h.range, h.step]

theorem SettleOnly.values (h : SettleOnly s t) : SameValues s t := .of_eq h.now h.pub h.gearNumber

/-- The guards and hand-overs between a gear report and the keepings are beside the orders and the LCU. -/
theorem State.handed_table (s : State) :
    (s.followLost.followMismatch.unitGuards.clutchCurrents.handSetpoints).otu = s.otu ∧
      (s.followLost.followMismatch.unitGuards.clutchCurrents.handSetpoints).lcu = s.lcu := by
  unfold State.handSetpoints
  split <;> exact ⟨rfl, rfl⟩

/-- What the end of an event does to the orders and to the LCU: a new gear number reaches its terms, and keepings are
written. -/
theorem State.unkept_settle (s : State) (old : Sq) :
    (s.settle old).lcu = (s.geared old).lcu ∧
      ∀ k, ((s.settle old).order k).map Order.unkept = ((s.geared old).order k).map Order.unkept := by
  obtain ⟨otu, lcu, -⟩ := s.guarded_table
  have guarded := (SettleOnly.refl s).osGuard.sqGuard
  obtain ⟨otu, lcu⟩ := State.geared_congr guarded.values guarded.gearNumber otu lcu old
  obtain ⟨otu', lcu'⟩ := s.osGuard.sqGuard.gearReport_geared old
  unfold State.settle
  generalize s.osGuard.sqGuard.gearReport old = g at otu' lcu'
  obtain ⟨otu'', lcu''⟩ := g.handed_table
  generalize g.followLost.followMismatch.unitGuards.clutchCurrents.handSetpoints = u at otu'' lcu''
  obtain ⟨kept, orders⟩ := u.unkept_keepAll
  exact ⟨kept.trans (lcu''.trans (lcu'.trans lcu)), fun k =>
    (orders k).trans (congrArg _ (State.order_congr (otu''.trans (otu'.trans otu)) k))⟩

/-- With the gear number as it was, the LCU rests, and the orders change in their keepings alone. -/
theorem State.unkept_settle_sameGear {old : Sq} (same : s.sq.gearNumber = old.gearNumber) :
    (s.settle old).lcu = s.lcu ∧ ∀ k, ((s.settle old).order k).map Order.unkept = (s.order k).map Order.unkept := by
  have all := s.unkept_settle old
  rw [show s.geared old = s from if_pos same] at all
  exact all

/-! Ends of times. -/

/-- What a report of the LCU leaves alone outside the order table and the LCU. -/
theorem State.lcuReport_units (s : State) (k : Nat) (o : Order) :
    (s.lcuReport k o).fu = s.fu ∧ (s.lcuReport k o).flow = s.flow ∧ (s.lcuReport k o).hr = s.hr ∧
      (s.lcuReport k o).sq = s.sq := by
  unfold State.lcuReport
  dsimp only
  split <;> exact ⟨rfl, rfl, rfl, rfl⟩

theorem State.reports_lcuReport (s : State) (k : Nat) (o : Order) :
    (s.lcuReport k o).lcu.reports = s.lcu.reports ++ (if o.termsTrue = o.lcuCond then [] else [(k, o.termsTrue)]) := by
  unfold State.lcuReport
  dsimp only
  split
  · exact (List.append_nil _).symm
  · rfl

/-- A written evaluation is none of what a placement and its amendments wrote. -/
theorem Order.setTerm_eval (o : Order) (n : TermNo) (e : Option TermEval) :
    (o.setTerm n { o.term n with eval := e }).still = o.still ∧ (o.setTerm n { o.term n with eval := e }).cond = o.cond ∧
      (o.setTerm n { o.term n with eval := e }).state = o.state ∧
      (o.setTerm n { o.term n with eval := e }).lcuCond = o.lcuCond := by
  cases n <;> exact ⟨rfl, rfl, rfl, rfl⟩

/-- Settles O48. -/
theorem conditionTimersRunOut : Obligations.ConditionTimersRunOut := by
  refine ⟨?_, fun r s runs waits passed => ?_⟩
  · intro k n o d s live arming passed o1
    obtain ⟨still, cond, state, lcuCond⟩ := o.setTerm_eval n (some .isTrue)
    have due : s.dwellDue k n = true := by
      unfold State.dwellDue
      simp [live, arming, passed]
    have ends : s.dwellEnds k n = s.lcuReport k o1 := by
      unfold State.dwellEnds
      rw [live]
    have done : exec (.dwellEnd k n) s = .next ((s.lcuReport k o1).settle s.sq) := by
      rw [← ends]
      exact congrArg _ (State.expire_due (due := fun s => s.dwellDue k n) due _)
    obtain ⟨fu, flow, hr, sq⟩ := s.lcuReport_units k o1
    have claim := (ClaimOnly.refl s).lcuReport k o1
    have settled := (SettleOnly.refl (s.lcuReport k o1)).settle s.sq
    obtain ⟨lcu, orders⟩ := State.unkept_settle_sameGear (s := s.lcuReport k o1) (old := s.sq) (by rw [sq])
    have here := orders k
    rw [State.order_lcuReport live, if_pos rfl, Option.map_some] at here
    obtain ⟨o', live', same⟩ := Option.map_eq_some_iff.mp here
    have states := (SameStates.refl s).lcuReport live still |>.trans settled.states
    refine ⟨_, done, ⟨o', live', (congrArg Order.term1 same :), (congrArg Order.term2 same :), (congrArg Order.lcuCond same :),
      (congrArg Order.cond same).trans cond, (congrArg Order.state same).trans state, ?_⟩, ?_, fun j _ => states.still j,
      settled.fu.trans fu, settled.flow.trans flow, settled.hr.trans hr, settled.cs.trans claim.cs,
      settled.inputs.trans claim.inputs, settled.leases.trans (s.lcuReport_frame k o1).2.2.1, settled.now.trans claim.now⟩
    · exact (congrArg Order.body same).trans (Order.body_of_still still)
    · rw [lcu, State.reports_lcuReport, lcuCond]
  · have due : s.lcu.brakeRelease.due s.now 1000 = true := by
      rw [runs]
      simp [Timer.due, waits, passed]
    have done : exec .brakeAxleReleaseTimerExpiry s = .next ((s.setBrakeAxle false).settle s.sq) :=
      congrArg _ (State.expire_due (due := fun s => s.lcu.brakeRelease.due s.now 1000) due _)
    obtain ⟨lcu, -⟩ := State.unkept_settle_sameGear (s := s.setBrakeAxle false) (old := s.sq) rfl
    have settled := (SettleOnly.refl (s.setBrakeAxle false)).settle s.sq
    exact ⟨_, done, by rw [lcu]; rfl, by rw [lcu]; rfl, by rw [lcu]; rfl, settled⟩

end Sys2Proof.Machine
end

section
/-! SUPPORT and O49. Condition terms by their tables, and what a publication and an AMEND do to them; BRAKE_AXLE and TRANSPORT
on a publication (R33 to R41). -/

namespace Sys2Proof.Machine

variable {s t u : State} {p : Port}

/-! Terms (R34, R35, R37). -/

theorem Term.holds_iff (r : Term) (x : Nat) :
    r.holds x = true ↔ if r.quantity.lo = 0 then r.threshold.toNat < x else x < r.threshold.toNat := by
  unfold Term.holds Term.above
  by_cases above : r.quantity.lo = 0 <;> simp [above]

theorem Term.past_iff (r : Term) (x : Nat) :
    r.past x = true ↔
      if r.quantity.lo = 0 then (x : Int) < (r.threshold.toNat : Int) - r.hysteresis.toNat
      else r.threshold.toNat + r.hysteresis.toNat < x := by
  unfold Term.past Term.above
  by_cases above : r.quantity.lo = 0
  · simp only [above, decide_true, if_true, decide_eq_true_eq]
    omega
  · simp only [above, decide_false, Bool.false_eq_true, if_false, decide_eq_true_eq]

theorem Term.eval_afresh (r : Term) (now : Time) (x : Nat) :
    (r.afresh now (some x)).eval = some (if r.holds x then r.arm now else .isFalse) := rfl

theorem Term.eval_take_false {r : Term} (off : r.eval = some .isFalse) (now : Time) (x : Nat) :
    (r.take now (some x)).eval = some (if r.holds x then r.arm now else .isFalse) := by
  unfold Term.take
  rw [off]
  dsimp only
  split
  · rfl
  · exact off

theorem Term.eval_take_arming {r : Term} {d : Time} (arming : r.eval = some (.arming d)) (now : Time) (x : Nat) :
    (r.take now (some x)).eval = some (if r.holds x then .arming d else .isFalse) ∧
      (r.take now none).eval = some .isFalse := by
  unfold Term.take
  rw [arming]
  dsimp only
  refine ⟨?_, rfl⟩
  split
  · exact arming
  · rfl

theorem Term.eval_take_true {r : Term} (on : r.eval = some .isTrue) (now : Time) (x : Nat) :
    (r.take now (some x)).eval = some (if r.past x then .isFalse else .isTrue) := by
  unfold Term.take
  rw [on]
  dsimp only
  split
  · rfl
  · exact on

/-- The loss of its quantity leaves a settled term as it is (R37). -/
theorem Term.eval_take_lost {r : Term} (settled : r.eval = some .isFalse ∨ r.eval = some .isTrue) (now : Time) :
    (r.take now none).eval = r.eval := by
  unfold Term.take
  rcases settled with off | on
  · rw [off]
    exact off
  · rw [on]
    exact on

/-! Terms in a sweep. -/

theorem State.sweepTerm_fields (s : State) (about : Quantity → Bool) (r : Term) :
    (s.sweepTerm about r).set = r.set ∧ (s.sweepTerm about r).quantityName = r.quantityName := by
  have still := SameStates.sweepTerm_still s about r
  exact ⟨(congrArg Term.set still :), (congrArg Term.quantityName still :)⟩

theorem State.eval_sweepTerm {r : Term} {q : Quantity} (set : r.set = true) (names : r.quantityName = some q)
    (about : Quantity → Bool) :
    (s.sweepTerm about r).eval = if about q then (r.take s.now (s.quantity q)).eval else r.eval := by
  unfold State.sweepTerm
  rw [names]
  dsimp only
  rw [set, Bool.true_and]
  split <;> rfl

/-- A sweep about other quantities leaves a term alone. -/
theorem State.sweepTerm_other {r : Term} {about : Quantity → Bool} (other : ∀ q, r.quantityName = some q → about q = false) :
    s.sweepTerm about r = r := by
  unfold State.sweepTerm
  split
  · next q names => rw [other q names, Bool.and_false, if_neg Bool.false_ne_true]
  · rfl

/-! Orders in a sweep. -/

/-- An order whose terms are evaluated: it has terms and is not LAPSED. -/
def Order.Evaluated (o : Order) : Prop := ¬ (o.termCount = 0 ∨ o.state = .lapsed)

theorem State.swept_term {o : Order} (evaluated : o.Evaluated) (about : Quantity → Bool) (n : TermNo) :
    (s.swept about o).term n = s.sweepTerm about (o.term n) := by
  unfold State.swept
  rw [if_neg evaluated]
  cases n <;> rfl

theorem State.swept_lcuCond {o : Order} (evaluated : o.Evaluated) (about : Quantity → Bool) :
    (s.swept about o).lcuCond = (s.swept about o).termsTrue := by
  unfold State.swept
  rw [if_neg evaluated]
  rfl

theorem State.swept_evaluated {o : Order} (evaluated : o.Evaluated) (about : Quantity → Bool) :
    (s.swept about o).Evaluated := by
  unfold State.swept
  rw [if_neg evaluated]
  exact evaluated

/-- An order as a gear number that is new since `old` leaves it. -/
def State.gearSwept (s : State) (old : Sq) (o : Order) : Order :=
  if s.sq.gearNumber = old.gearNumber then o else s.swept (fun q => q = .gearNumber) o

theorem State.order_geared (s : State) (old : Sq) (k : Nat) :
    (s.geared old).order k = if k < 48 then (s.order k).map (s.gearSwept old) else s.order k := by
  unfold State.geared State.gearSwept
  by_cases same : s.sq.gearNumber = old.gearNumber
  · simp [same]
  · simp only [same, if_false]
    exact s.order_sweep _ k

theorem State.reports_geared (s : State) (old : Sq) : ReportsTo s (s.geared old) (List.range 48) (s.gearSwept old) := by
  unfold State.geared State.gearSwept
  by_cases same : s.sq.gearNumber = old.gearNumber
  · simp only [same, if_true]
    exact ⟨[], by simp, fun _ _ _ _ changed => absurd rfl changed⟩
  · simp only [same, if_false]
    exact s.reports_sweep _

/-- A term that hears nothing of the gear number stays as it is. -/
theorem State.gearSwept_term {o : Order} {n : TermNo} {old : Sq}
    (deaf : (o.term n).quantityName ≠ some .gearNumber ∨ s.sq.gearNumber = old.gearNumber) :
    (s.gearSwept old o).term n = o.term n := by
  unfold State.gearSwept
  split
  · rfl
  · next changed =>
    have other : ∀ q, (o.term n).quantityName = some q → decide (q = .gearNumber) = false := by
      rintro q names
      refine decide_eq_false fun e => ?_
      exact deaf.elim (fun ne => ne (e ▸ names)) changed
    by_cases evaluated : o.Evaluated
    · rw [State.swept_term evaluated, State.sweepTerm_other other]
    · unfold State.swept
      rw [if_pos (not_not.mp evaluated)]

/-- Orders that differ in their keepings alone. -/
theorem Order.term_of_unkept {o o' : Order} (h : o'.unkept = o.unkept) (n : TermNo) : o'.term n = o.term n := by
  cases n
  · exact (congrArg Order.term1 h :)
  · exact (congrArg Order.term2 h :)

/-- What a publication and the change of gear number that comes with it make of an order with terms: its condition is that of
its terms, and each term takes its quantity's value (R35, R37, R38). -/
theorem State.twice_swept {o : Order} (evaluated : o.Evaluated) {old : Sq} (now : u.now = s.now)
    (values : ∀ q, q ≠ .gearNumber → u.quantity q = s.quantity q) :
    let o' := u.gearSwept old (s.swept (fun q => q ≠ .gearNumber) o)
    o'.lcuCond = o'.termsTrue ∧
      ∀ n q, (o.term n).set = true → (o.term n).quantityName = some q →
        (o'.term n).eval =
          if q = .gearNumber ∧ u.sq.gearNumber = old.gearNumber then (o.term n).eval
          else ((o.term n).take u.now (u.quantity q)).eval := by
  intro o'
  have between := State.swept_evaluated (s := s) evaluated fun q => q ≠ .gearNumber
  refine ⟨?_, fun n q set names => ?_⟩
  · show (u.gearSwept old _).lcuCond = (u.gearSwept old _).termsTrue
    unfold State.gearSwept
    split
    · exact State.swept_lcuCond evaluated _
    · exact State.swept_lcuCond between _
  · have first : (s.swept (fun q => q ≠ .gearNumber) o).term n = s.sweepTerm (fun q => q ≠ .gearNumber) (o.term n) :=
      State.swept_term evaluated _ n
    by_cases gear : q = .gearNumber
    · have rests : (s.swept (fun q => q ≠ .gearNumber) o).term n = o.term n := by
        rw [first]
        refine State.sweepTerm_other fun q' names' => ?_
        rw [names, Option.some.injEq] at names'
        simp [← names', gear]
      by_cases same : u.sq.gearNumber = old.gearNumber
      · rw [if_pos ⟨gear, same⟩, State.gearSwept_term (.inr same), rests]
      · rw [if_neg fun h => same h.2]
        show ((u.gearSwept old _).term n).eval = _
        unfold State.gearSwept
        rw [if_neg same, State.swept_term between, rests, State.eval_sweepTerm set names]
        simp [gear]
    · have fields := s.sweepTerm_fields (fun q => q ≠ .gearNumber) (o.term n)
      rw [if_neg fun h => gear h.1, State.gearSwept_term (.inl ?_), first, State.eval_sweepTerm set names, values q gear, now]
      · simp [gear]
      · rw [first, fields.2, names]
        exact fun e => gear (Option.some.inj e)

/-! The fixed conditions (R40, R41). -/

/-- A value is available and at or above a level. -/
def AtLeast (n : Nat) (v : Option Nat) : Prop := ∃ x, v = some x ∧ n ≤ x

/-- A value is available and more than 300 below a level. -/
def WellBelow (n : Nat) (v : Option Nat) : Prop := ∃ x, v = some x ∧ x + 300 < n

theorem atLeast_iff (n : Nat) (v : Option Nat) : v.any (n ≤ ·) = true ↔ AtLeast n v := by
  cases v <;> simp [AtLeast]

theorem wellBelow_iff (n : Nat) (v : Option Nat) : v.any (· < n - 300) = true ↔ WellBelow n v := by
  cases v with
  | none => simp [WellBelow]
  | some x =>
    simp only [Option.any_some, decide_eq_true_eq, WellBelow, Option.some.injEq, exists_eq_left']
    omega

/-- How BRAKE_AXLE turns on a publication, from one state of the LCU to another, with the reports `l` (R40). -/
structure BrakeAxleTurn (items : List (List Word)) (pub : Pub) (now : Time) (old new : Lcu) (l : List (Nat × Bool)) : Prop where
  rises : old.brakeAxle = false →
    (new.brakeAxle = true ↔
      AtLeast (itemNat items 19 0) pub.brakeL ∧ AtLeast (itemNat items 19 0) pub.brakeR ∧ AtLeast 30 pub.ground) ∧
    (new.brakeAxle = true → (1, true) ∈ l)
  stays : old.brakeAxle = true →
    new.brakeAxle = true ∧
    Follows (WellBelow (itemNat items 19 0) pub.brakeL ∧ WellBelow (itemNat items 19 0) pub.brakeR) now old.brakeRelease
      new.brakeRelease

/-- How TRANSPORT turns on a publication, from one state of the LCU to another, with the reports `l` (R41). -/
structure TransportTurn (items : List (List Word)) (pub : Pub) (old new : Lcu) (l : List (Nat × Bool)) : Prop where
  begins : old.transport = false →
    (new.transport = true ↔ AtLeast (itemNat items 19 1) pub.ground ∧ AtLeast (itemNat items 19 2) pub.position)
  ends : old.transport = true → (new.transport = false ↔ ∃ x, pub.ground = some x ∧ x + 20 < itemNat items 19 1)
  told : new.transport ≠ old.transport → (2, new.transport) ∈ l

theorem BrakeAxleTurn.congr {items : List (List Word)} {pub : Pub} {now : Time} {old new old' new' : Lcu}
    {l l' : List (Nat × Bool)} (h : BrakeAxleTurn items pub now old new l) (was : old'.brakeAxle = old.brakeAxle)
    (released : old'.brakeRelease = old.brakeRelease) (is : new'.brakeAxle = new.brakeAxle)
    (releases : new'.brakeRelease = new.brakeRelease) (sub : l ⊆ l') : BrakeAxleTurn items pub now old' new' l' := by
  refine ⟨fun off => ?_, fun on => ?_⟩
  · obtain ⟨turns, told⟩ := h.rises (was.symm.trans off)
    rw [is]
    exact ⟨turns, fun on => sub (told on)⟩
  · rw [is, released, releases]
    exact h.stays (was.symm.trans on)

theorem TransportTurn.congr {items : List (List Word)} {pub : Pub} {old new old' new' : Lcu}
    {l l' : List (Nat × Bool)} (h : TransportTurn items pub old new l) (was : old'.transport = old.transport)
    (is : new'.transport = new.transport) (sub : l ⊆ l') : TransportTurn items pub old' new' l' := by
  refine ⟨fun off => ?_, fun on => ?_, fun changed => ?_⟩
  · rw [is]
    exact h.begins (was.symm.trans off)
  · rw [is]
    exact h.ends (was.symm.trans on)
  · rw [is, was] at changed
    rw [is]
    exact sub (h.told changed)

theorem State.brakeAxlePublish_turn (s : State) :
    ∃ b l, s.brakeAxlePublish = { s with lcu := b } ∧ b.transport = s.lcu.transport ∧ b.reports = s.lcu.reports ++ l ∧
      BrakeAxleTurn s.items s.pub s.now s.lcu b l := by
  unfold State.brakeAxlePublish brakeThreshold
  dsimp only
  cases axle : s.lcu.brakeAxle with
  | true =>
    have follows := Follows.of (b := s.pub.brakeL.any (· < itemNat s.items 19 0 - 300) &&
      s.pub.brakeR.any (· < itemNat s.items 19 0 - 300)) (by rw [Bool.and_eq_true, wellBelow_iff, wellBelow_iff])
      s.now s.lcu.brakeRelease
    exact ⟨_, [], rfl, rfl, (List.append_nil _).symm, fun off => absurd (axle.symm.trans off) Bool.noConfusion,
      fun _ => ⟨rfl, follows⟩⟩
  | false =>
    have off : s.lcu.brakeAxle ≠ true := by rw [axle]; exact Bool.false_ne_true
    rw [if_neg Bool.false_ne_true]
    split
    · next firm =>
      rw [Bool.and_eq_true, Bool.and_eq_true, atLeast_iff, atLeast_iff, atLeast_iff, and_assoc] at firm
      exact ⟨_, [(1, true)], rfl, rfl, rfl, fun _ => ⟨iff_of_true rfl firm, fun _ => List.mem_singleton_self _⟩,
        fun on => absurd on off⟩
    · next weak =>
      rw [Bool.and_eq_true, Bool.and_eq_true, atLeast_iff, atLeast_iff, atLeast_iff, and_assoc] at weak
      exact ⟨s.lcu, [], rfl, rfl, (List.append_nil _).symm, fun _ => ⟨iff_of_false off weak, fun on => absurd on off⟩,
        fun on => absurd on off⟩

/-- TRANSPORT that keeps its truth. -/
theorem TransportTurn.keeps {items : List (List Word)} {pub : Pub} {lcu : Lcu}
    (low : lcu.transport = false → ¬ (AtLeast (itemNat items 19 1) pub.ground ∧ AtLeast (itemNat items 19 2) pub.position))
    (fast : lcu.transport = true → ¬ ∃ x, pub.ground = some x ∧ x + 20 < itemNat items 19 1) :
    TransportTurn items pub lcu lcu [] :=
  ⟨fun off => iff_of_false (by rw [off]; exact Bool.false_ne_true) (low off),
   fun on => iff_of_false (by rw [on]; exact Bool.noConfusion) (fast on), fun changed => absurd rfl changed⟩

theorem State.transportPublish_turn (s : State) :
    ∃ b l, s.transportPublish = { s with lcu := b } ∧ b.brakeAxle = s.lcu.brakeAxle ∧
      b.brakeRelease = s.lcu.brakeRelease ∧ b.reports = s.lcu.reports ++ l ∧ TransportTurn s.items s.pub s.lcu b l := by
  have slow_iff : (s.pub.ground.any (· + 20 < itemNat s.items 19 1) = true) ↔
      ∃ x, s.pub.ground = some x ∧ x + 20 < itemNat s.items 19 1 := by
    cases s.pub.ground <;> simp
  unfold State.transportPublish transportSpeed transportHeight
  dsimp only
  cases transport : s.lcu.transport with
  | true =>
    have on : s.lcu.transport ≠ false := by rw [transport]; exact Bool.noConfusion
    rw [if_pos rfl]
    split
    · next slow =>
      exact ⟨_, [(2, false)], rfl, rfl, rfl, rfl, fun off => absurd off on, fun _ => iff_of_true rfl (slow_iff.mp slow),
        fun _ => List.mem_singleton_self _⟩
    · next fast =>
      exact ⟨s.lcu, [], rfl, rfl, rfl, (List.append_nil _).symm,
        .keeps (fun off => absurd off on) fun _ => mt slow_iff.mpr fast⟩
  | false =>
    have off : s.lcu.transport ≠ true := by rw [transport]; exact Bool.false_ne_true
    rw [if_neg Bool.false_ne_true]
    split
    · next high =>
      rw [Bool.and_eq_true, atLeast_iff, atLeast_iff] at high
      exact ⟨_, [(2, true)], rfl, rfl, rfl, rfl, fun _ => iff_of_true rfl high, fun on => absurd on off,
        fun _ => List.mem_singleton_self _⟩
    · next low =>
      rw [Bool.and_eq_true, atLeast_iff, atLeast_iff] at low
      exact ⟨s.lcu, [], rfl, rfl, rfl, (List.append_nil _).symm, .keeps (fun _ => low) fun on => absurd on off⟩

/-! A publication (R44). -/

/-- The state in which the LCU takes a publication: the quantities of its millisecond are measured. -/
def State.atPublication (s : State) (raw : ByConv (BitVec 12)) : State := s.pubTime.muPublish raw

theorem State.atPublication_table (s : State) (raw : ByConv (BitVec 12)) :
    (s.atPublication raw).otu = s.otu ∧ (s.atPublication raw).items = s.items ∧
      (s.atPublication raw).lcu = { s.lcu with now := (s.atPublication raw).now } := by
  have published : ∀ u : State, (u.muPublish raw).otu = u.otu ∧ (u.muPublish raw).items = u.items ∧
      (u.muPublish raw).lcu = u.lcu := fun _ => ⟨rfl, rfl, rfl⟩
  obtain ⟨otu, items, lcu⟩ := published s.pubTime
  unfold State.atPublication
  rw [otu, items, State.now_muPublish, lcu]
  unfold State.pubTime
  split <;> exact ⟨rfl, rfl, rfl⟩

/-- What the LCU makes of a publication: it sweeps the terms, and its fixed conditions turn. -/
structure LcuTurn (s t : State) (l : List (Nat × Bool)) : Prop where
  orders : ∀ k, t.order k = if k < 48 then (s.order k).map (s.swept fun q => q ≠ .gearNumber) else s.order k
  reports : t.lcu.reports = s.lcu.reports ++ l
  told : ∀ k < 48, ∀ o, s.order k = some o → (s.swept (fun q => q ≠ .gearNumber) o).lcuCond ≠ o.lcuCond →
    (k, (s.swept (fun q => q ≠ .gearNumber) o).lcuCond) ∈ l
  axle : BrakeAxleTurn s.items s.pub s.now s.lcu t.lcu l
  transport : TransportTurn s.items s.pub s.lcu t.lcu l

theorem State.lcuPublish_turn (s : State) : ∃ l, LcuTurn s s.lcuPublish l := by
  obtain ⟨m, reports, told⟩ := s.reports_sweep fun q => q ≠ .gearNumber
  have orders := s.order_sweep fun q => q ≠ .gearNumber
  obtain ⟨mu, -, -, -⟩ := s.sameUnits_sweep fun q => q ≠ .gearNumber
  have claim := (ClaimOnly.refl s).sweep fun q => q ≠ .gearNumber
  unfold State.lcuPublish
  generalize (s.sweep fun q => q ≠ .gearNumber) = a at reports orders mu claim
  have items : a.items = s.items := by unfold State.items; rw [claim.cs]
  have pub : a.pub = s.pub := by unfold State.pub; rw [mu]
  have now : a.now = s.now := claim.now
  obtain ⟨b, l, brakes, transport, reports', axle⟩ := a.brakeAxlePublish_turn
  obtain ⟨c, l', turns, brakeAxle, release, reports'', transport'⟩ := ({ a with lcu := b } : State).transportPublish_turn
  rw [brakes, turns]
  rw [items, pub, now] at axle
  rw [show ({ a with lcu := b } : State).items = s.items from items,
    show ({ a with lcu := b } : State).pub = s.pub from pub] at transport'
  have all : c.reports = s.lcu.reports ++ (m ++ l ++ l') := by
    refine reports''.trans ?_
    show b.reports ++ l' = _
    rw [reports', reports, List.append_assoc, List.append_assoc, List.append_assoc]
  have was : a.lcu.brakeAxle = s.lcu.brakeAxle ∧ a.lcu.brakeRelease = s.lcu.brakeRelease ∧
      a.lcu.transport = s.lcu.transport := by rw [reports]; exact ⟨rfl, rfl, rfl⟩
  exact ⟨m ++ l ++ l', orders, all,
    fun k lt o live changed =>
      List.mem_append_left _ (List.mem_append_left _ (told k (List.mem_range.mpr lt) o live changed)),
    axle.congr was.1.symm was.2.1.symm brakeAxle release fun _ mem => List.mem_append_left _ (List.mem_append_right _ mem),
    transport'.congr (was.2.2.symm.trans transport.symm) rfl fun _ mem => List.mem_append_right _ mem⟩

/-- The state after a publication, before what follows from it: the units have taken it one after the other. -/
def State.publicationTaken (s : State) (raw : ByConv (BitVec 12)) : State :=
  (((s.atPublication raw).lcuPublish.sqPublish s.pub.band).acuPublish s.pub.slip.isSome).hrPublish (s.hr.motion = .lower)

theorem exec_muPublication (s : State) (raw : ByConv (BitVec 12)) :
    exec (.muPublication raw) s = .next ((s.publicationTaken raw).settle s.sq) := by
  show execMuPublication raw s = _
  unfold execMuPublication
  rw [State.event_pos rfl]
  rfl

/-- The units that take a publication after the LCU leave the orders and the LCU alone. -/
theorem State.publicationTaken_table (s : State) (raw : ByConv (BitVec 12)) :
    (s.publicationTaken raw).otu = (s.atPublication raw).lcuPublish.otu ∧
      (s.publicationTaken raw).lcu = (s.atPublication raw).lcuPublish.lcu := by
  have units := ((DetectOnly.refl (s.atPublication raw).lcuPublish).sqPublish s.pub.band).job
    (((JobOnly.refl _).acuPublish s.pub.slip.isSome).hrPublish (s.hr.motion = .lower))
  exact ⟨units.otu, units.lcu⟩

theorem State.publicationTaken_inMillisecond (s : State) (raw : ByConv (BitVec 12)) :
    InMillisecond (s.atPublication raw) (s.publicationTaken raw) := .published_units _ _ _ _

/-- What a publication and its settling do to the orders with terms and to the fixed conditions. -/
structure PublicationTurn (s t : State) (l : List (Nat × Bool)) : Prop where
  reports : t.lcu.reports = s.lcu.reports ++ l
  orders : ∀ k o, s.order k = some o → o.Evaluated →
    ∃ o', t.order k = some o' ∧ o'.lcuCond = o'.termsTrue ∧ (o'.lcuCond ≠ o.lcuCond → (k, o'.lcuCond) ∈ l) ∧
      ∀ n q, (o.term n).set = true → (o.term n).quantityName = some q →
        (o'.term n).eval =
          if q = .gearNumber ∧ t.sq.gearNumber = s.sq.gearNumber then (o.term n).eval
          else ((o.term n).take t.now (t.quantity q)).eval
  axle : BrakeAxleTurn s.items t.pub t.now s.lcu t.lcu l
  transport : TransportTurn s.items t.pub s.lcu t.lcu l

theorem State.publication_turn (raw : ByConv (BitVec 12)) (size : s.otu.slots.length = 48) :
    ∃ l, PublicationTurn s ((s.publicationTaken raw).settle s.sq) l := by
  obtain ⟨otuA, items, lcuA⟩ := s.atPublication_table raw
  obtain ⟨otuU, lcuU⟩ := s.publicationTaken_table raw
  have units := s.publicationTaken_inMillisecond raw
  generalize s.atPublication raw = a at otuA items lcuA otuU lcuU units
  generalize s.publicationTaken raw = u at otuU lcuU units
  obtain ⟨l, orders, reports, told, axle, transport⟩ := a.lcuPublish_turn
  generalize a.lcuPublish = b at otuU lcuU orders reports axle transport
  obtain ⟨m, reportsG, toldG⟩ := u.reports_geared s.sq
  obtain ⟨lcuT, ordersT⟩ := u.unkept_settle s.sq
  have settled := (SettleOnly.refl u).settle s.sq
  generalize u.settle s.sq = t at lcuT ordersT settled
  have now : t.now = u.now := settled.now
  have pub : t.pub = a.pub := settled.pub.trans units.pub
  have was : a.lcu.brakeAxle = s.lcu.brakeAxle ∧ a.lcu.brakeRelease = s.lcu.brakeRelease ∧
      a.lcu.transport = s.lcu.transport ∧ a.lcu.reports = s.lcu.reports := by rw [lcuA]; exact ⟨rfl, rfl, rfl, rfl⟩
  have is : t.lcu.brakeAxle = b.lcu.brakeAxle ∧ t.lcu.brakeRelease = b.lcu.brakeRelease ∧
      t.lcu.transport = b.lcu.transport ∧ t.lcu.reports = b.lcu.reports ++ m := by
    rw [lcuT, reportsG, lcuU]
    exact ⟨rfl, rfl, rfl, rfl⟩
  obtain ⟨wasAxle, wasRelease, wasTransport, wasReports⟩ := was
  obtain ⟨isAxle, isRelease, isTransport, isReports⟩ := is
  refine ⟨l ++ m, ?_, fun k o live evaluated => ?_, ?_, ?_⟩
  · rw [isReports, reports, wasReports, List.append_assoc]
  · have lt : k < 48 := size ▸ State.order_lt live
    have liveA : a.order k = some o := (State.order_congr otuA k).trans live
    have swept : u.order k = some (a.swept (fun q => q ≠ .gearNumber) o) := by
      rw [State.order_congr otuU, orders, if_pos lt, liveA, Option.map_some]
    have here := ordersT k
    rw [State.order_geared, if_pos lt, swept, Option.map_some, Option.map_some] at here
    obtain ⟨o', live', same⟩ := Option.map_eq_some_iff.mp here
    have values : ∀ q, q ≠ .gearNumber → u.quantity q = a.quantity q := by
      intro q ne
      unfold State.quantity
      rw [units.pub]
      cases q
      case gearNumber => exact absurd rfl ne
      all_goals rfl
    obtain ⟨cond, evals⟩ := State.twice_swept evaluated (old := s.sq) units.now values
    have lcuCond : o'.lcuCond = _ := (congrArg Order.lcuCond same :)
    have termsTrue : o'.termsTrue = _ := (congrArg Order.termsTrue same :)
    refine ⟨o', live', lcuCond.trans (cond.trans termsTrue.symm), fun changed => ?_, fun n q set names => ?_⟩
    · rw [lcuCond] at changed ⊢
      by_cases late : (u.gearSwept s.sq (a.swept (fun q => q ≠ .gearNumber) o)).lcuCond =
          (a.swept (fun q => q ≠ .gearNumber) o).lcuCond
      · have early := told k lt o liveA fun e => changed (late.trans e)
        refine List.mem_append_left _ ?_
        rw [← late] at early
        exact early
      · exact List.mem_append_right _ (toldG k (List.mem_range.mpr lt) _ swept late)
    · rw [Order.term_of_unkept same, evals n q set names, now, settled.gearNumber, settled.values.quantity]
  · rw [← items, pub, now, units.now]
    exact axle.congr wasAxle.symm wasRelease.symm isAxle isRelease (List.subset_append_left l m)
  · rw [← items, pub]
    exact transport.congr wasTransport.symm isTransport (List.subset_append_left l m)

/-! An AMEND (R9, R20, R21). -/

/-- A write of a field leaves the evaluations (R9). -/
theorem Order.eval_writeFields (o : Order) (first : Nat) (ws : List Word) (n : TermNo) :
    ((o.writeFields first ws).term n).eval = (o.term n).eval := by
  have written : ∀ (r : Term) (i : Nat) (w : Word), (r.write i w).eval = r.eval := by
    intro r i w
    unfold Term.write
    split <;> rfl
  induction ws generalizing o first with
  | nil => rfl
  | cons w ws ih =>
    refine (ih _ _).trans ?_
    unfold Order.writeField
    split
    · cases n <;> rfl
    split
    · cases n <;> rfl
    split
    · cases n with
      | first => exact written _ _ _
      | second => rfl
    · cases n with
      | first => rfl
      | second => exact written _ _ _

/-- The first field of a term in an order record (R5). -/
def termField : TermNo → Nat
  | .first => 16
  | .second => 20

/-- Whether a run writes a field of a term (R9). -/
def touches (first count : Nat) (n : TermNo) : Bool := (List.range 4).any fun i => inRun first count (termField n + i)

theorem touches_iff (first count : Nat) (n : TermNo) :
    touches first count n = true ↔ ∃ i < 4, first ≤ termField n + i ∧ termField n + i < first + count := by
  simp [touches, inRun]

theorem State.term_amendedRecord (s : State) (o : Order) (first count : Nat) (n : TermNo) :
    (s.amendedRecord o first count).term n = if touches first count n then s.handTerm (o.term n) else o.term n := by
  cases n <;> rfl

/-- A claim resolves a channel in states and keepings alone; the terms stay. -/
theorem State.terms_resolve (s : State) (ch : Channel) (quiet amended : Option Nat) (k : Nat) (n : TermNo) :
    ((s.resolve ch quiet amended).order k).map (Order.term · n) = (s.order k).map (Order.term · n) := by
  have walk : ∀ (l : List Nat) (first : Bool) (u : State),
      ((u.resolveWalk quiet l first).order k).map (Order.term · n) = (u.order k).map (Order.term · n) := by
    intro l
    induction l with
    | nil => exact fun _ _ => rfl
    | cons j l ih =>
      intro first u
      unfold State.resolveWalk
      split
      · next o live =>
        rw [ih, State.order_resolveSlot live]
        split
        · next e =>
          rw [e, live]
          cases n <;> rfl
        · rfl
      · exact ih _ _
  rw [State.order_resolve]
  exact walk _ _ _

theorem State.some_resolve (s : State) (ch : Channel) (quiet amended : Option Nat) {k : Nat} {o : Order}
    (live : s.order k = some o) :
    ∃ o', (s.resolve ch quiet amended).order k = some o' ∧ ∀ n, o'.term n = o.term n := by
  have terms := s.terms_resolve ch quiet amended k
  rw [live] at terms
  obtain ⟨o', live', -⟩ := Option.map_eq_some_iff.mp (terms .first)
  refine ⟨o', live', fun n => ?_⟩
  have here := terms n
  rw [live'] at here
  exact Option.some.inj here

/-- The end of an event leaves a term that hears nothing of the gear number (R38). -/
theorem State.some_settle (s : State) (old : Sq) {k : Nat} {o : Order} (live : s.order k = some o) :
    ∃ o', (s.settle old).order k = some o' ∧
      ∀ n, (o.term n).quantityName ≠ some .gearNumber ∨ (s.settle old).sq.gearNumber = old.gearNumber →
        o'.term n = o.term n := by
  have orders := (s.unkept_settle old).2 k
  have geared : ∃ o', (s.geared old).order k = some o' ∧
      ∀ n, (o.term n).quantityName ≠ some .gearNumber ∨ s.sq.gearNumber = old.gearNumber → o'.term n = o.term n := by
    rw [State.order_geared, live]
    split
    · exact ⟨_, rfl, fun n => State.gearSwept_term⟩
    · exact ⟨o, rfl, fun _ _ => rfl⟩
  obtain ⟨g, liveG, deaf⟩ := geared
  rw [liveG, Option.map_some] at orders
  obtain ⟨o', live', same⟩ := Option.map_eq_some_iff.mp orders
  refine ⟨o', live', fun n hears => (Order.term_of_unkept same n).trans (deaf n ?_)⟩
  rwa [((SettleOnly.refl s).settle old).gearNumber] at hears

/-- A hand-over is about the evaluation alone. -/
theorem State.quantityName_handTerm (s : State) (r : Term) : (s.handTerm r).quantityName = r.quantityName :=
  (congrArg Term.quantityName (s.handTerm_blank r) :)

/-- What an AMEND that passes its checks makes of a term: it is handed over where the run writes a field of it and it is set. -/
theorem State.eval_amendAt {k first count : Nat} {o o1 : Order} {gen : Word} {v : Values} (front : Bool)
    (live : s.order k = some o) (ok : o.amendCheck p first count gen v = .ok o1) :
    ∃ o', ((s.amendAt k o1 first count front).settle s.sq).order k = some o' ∧
      ∀ n, (o1.term n).quantityName ≠ some .gearNumber ∨
          ((s.amendAt k o1 first count front).settle s.sq).sq.gearNumber = s.sq.gearNumber →
        (o'.term n).eval =
          if touches first count n && (o1.term n).set then ((o1.term n).afresh s.now (s.termValue (o1.term n))).eval
          else (o.term n).eval := by
  rw [State.amendAt_eq_fronted]
  have amended := (State.order_fronted live o1 first count front k).trans (if_pos rfl)
  generalize s.fronted k o1 first count front = a at amended
  obtain ⟨r, liveR, terms⟩ := a.some_resolve o1.channel none (amendedSetpoint k first count) amended
  generalize a.resolve o1.channel none (amendedSetpoint k first count) = b at liveR
  obtain ⟨o', live', deaf⟩ := b.some_settle s.sq liveR
  refine ⟨o', live', fun n hears => ?_⟩
  have name : (r.term n).quantityName = (o1.term n).quantityName := by
    rw [terms, State.term_amendedRecord]
    split
    · exact s.quantityName_handTerm _
    · rfl
  rw [deaf n (by rwa [name]), terms, State.term_amendedRecord]
  obtain ⟨-, -, -, rfl⟩ := o.amendCheck_ok ok
  cases touches first count n with
  | false => exact o.eval_writeFields ..
  | true =>
    unfold State.handTerm
    cases (o.writeFields first (v.toList.take count)).term n |>.set with
    | false => exact o.eval_writeFields ..
    | true => rfl

/-- Settles O49. -/
theorem conditionTermsMove : Obligations.ConditionTermsMove := by
  refine ⟨?_, ?_, ?_⟩
  · intro r now x above limit holds past entered
    have turns : ∀ e f : TermEval, (if r.holds x then e else f) = if holds then e else f := fun e f =>
      if_congr (r.holds_iff x) rfl rfl
    have drops : ∀ e f : TermEval, (if r.past x then e else f) = if past then e else f := fun e f =>
      if_congr (r.past_iff x) rfl rfl
    refine ⟨fun off => ?_, fun d arming => ?_, fun on => ?_, fun settled => r.eval_take_lost settled now, ?_, rfl⟩
    · rw [Term.eval_take_false off, turns]
      rfl
    · obtain ⟨value, lost⟩ := Term.eval_take_arming arming now x
      rw [value, turns]
      exact ⟨rfl, lost⟩
    · rw [Term.eval_take_true on, drops]
    · rw [Term.eval_afresh, turns]
      rfl
  · intro raw s size
    obtain ⟨l, turn⟩ := s.publication_turn raw size
    exact ⟨_, exec_muPublication s raw, l, turn.reports,
      fun k o live terms alive => turn.orders k o live fun rests => rests.elim terms alive,
      turn.axle.rises, turn.axle.stays, turn.transport.begins, turn.transport.ends, turn.transport.told⟩
  · intro p tag slot inc first front count gen v o o1 s takes named ok
    have live : (s.risen p).order slot.toNat = some o := (Acts.lookup_order named).2
    obtain ⟨o', live', evals⟩ := State.eval_amendAt front live ok
    generalize amending :
      ((s.risen p).amendAt slot.toNat o1 first.toNat count.toNat front).settle (s.risen p).sq = w at live' evals
    have done := exec_amend_ok takes named ok amending.symm live' tag
    refine ⟨_, done, o', live', ?_⟩
    intro n r base touched hears
    have eval := evals n hears
    have touches_iff : touches first.toNat count.toNat n = true ↔ touched := by
      rw [touches_iff]
      cases n <;> exact .rfl
    refine ⟨fun touch set => ?_, fun rests => ?_⟩
    · rw [eval, touches_iff.mpr touch, set]
      rfl
    · rw [eval, if_neg]
      rwa [Bool.and_eq_true, touches_iff]

end Sys2Proof.Machine
end

section
/-! SUPPORT and O42. Selected edges, stalls, and the speeds that the channels give (R46 to R49). -/

namespace Sys2Proof.Machine

variable {s : State} {ch : SpeedCh}

/-! Edges and stalls. -/

/-- A selected edge completes with the timing it leaves its channel in. -/
theorem edge_times {x : SpeedTiming} (us : Nat)
    (edge : (s.mu.speed.get ch).timing.edge (stallUs s.items) (s.now.toNat * 1000 + us) = x) :
    CompletesWith (.selectedEdge ch us) s fun t => SettleOnly (s.setTiming ch x) t := by
  subst edge
  refine ⟨_, ?_, (SettleOnly.refl _).settle s.sq⟩
  show execSelectedEdge ch us s = _
  unfold execSelectedEdge
  rw [State.event_pos rfl]
  rfl

theorem stall_stills (due : s.stallDue ch = true) :
    CompletesWith (.speedChannelStall ch) s fun t => SettleOnly (s.setTiming ch (.still none)) t := by
  refine ⟨_, ?_, (SettleOnly.refl _).settle s.sq⟩
  show execSpeedChannelStall ch s = _
  unfold execSpeedChannelStall
  rw [State.expire_due due]

theorem recordedEdge_discarded (due : s.recordedDue ch = true) :
    CompletesWith (.recordedEdgeExpiry ch) s fun t => SettleOnly (s.setTiming ch (.still none)) t := by
  refine ⟨_, ?_, (SettleOnly.refl _).settle s.sq⟩
  show execRecordedEdgeExpiry ch s = _
  unfold execRecordedEdgeExpiry
  rw [State.expire_due due]

/-! Speeds (R47). -/

theorem State.chanSpeed_lost (lost : (s.mu.speed.get ch).lost = true ∨ (s.mu.speed.get ch).resuming = true) :
    s.chanSpeed ch = none := by
  unfold State.chanSpeed SpeedRec.readsLost
  rw [if_pos (by simpa using lost)]

theorem State.chanSpeed_read (present : (s.mu.speed.get ch).lost = false) (taken : (s.mu.speed.get ch).resuming = false) :
    s.chanSpeed ch = some ((s.mu.speed.get ch).timing.speed s.items ch) := by
  unfold State.chanSpeed SpeedRec.readsLost
  simp [present, taken]

/-- The speed of a VALID channel, its unit and its top by the channel. -/
theorem SpeedTiming.speed_valid (items : List (List Word)) (ch : SpeedCh) (last num den : Nat) :
    (SpeedTiming.valid last num den).speed items ch =
      speedFrom ch.code (if ch = .engine then 60000000 else 360000000) (speedScale items ch)
        (if ch = .engine then 4000 else 600) num den := by
  cases ch <;> rfl

theorem speedFrom_le_top (code k scale top num den : Nat) : speedFrom code k scale top num den ≤ top := Nat.min_le_left _ _

theorem speedFrom_interval (code k scale top : Nat) {num : Nat} (interval : num ≠ 0) (den : Nat) :
    speedFrom code k scale top num den = min top (k * den / (num * scale)) := by
  unfold speedFrom
  rw [if_neg interval]

/-- Settles O42. -/
theorem speedChannelsTime : Obligations.SpeedChannelsTime := by
  refine ⟨?_, ?_, ?_⟩
  · intro ch us s stamp after
    refine ⟨fun still => ?_, fun r still early => ?_, fun r still late => ?_, fun last num den valid => ?_⟩
    · exact edge_times us (by rw [still]; rfl)
    · exact edge_times us (by rw [still]; exact if_pos early)
    · exact edge_times us (by rw [still]; exact if_neg (Nat.not_lt.mpr late))
    · exact edge_times us (by rw [valid]; rfl)
  · intro ch s
    refine ⟨fun last num den valid late => stall_stills ?_, fun r still late => recordedEdge_discarded ?_⟩
    · unfold State.stallDue
      rw [valid]
      simpa [stampAt] using late
    · unfold State.recordedDue
      rw [still]
      simpa [stampAt] using late
  · intro s ch edges top k r speed
    have given : speed = s.chanSpeed ch := by cases ch <;> rfl
    refine ⟨fun lost => ?_, fun e present taken still => ?_, fun last num den present taken valid interval => ?_,
      fun last den present taken valid => ?_, ?_⟩
    · rw [given, State.chanSpeed_lost lost]
    · rw [given, State.chanSpeed_read present taken, still]
      rfl
    · rw [given, State.chanSpeed_read present taken, valid, SpeedTiming.speed_valid, speedFrom_interval _ _ _ _ interval]
      rfl
    · rw [given, State.chanSpeed_read present taken, valid, SpeedTiming.speed_valid]
      exact ⟨_, rfl, speedFrom_le_top _ _ _ _ _ _⟩
    · show (BySpeed.tabulate fun c => (s.mu.speed.get c).reads).get ch = _
      rw [BySpeed.get_tabulate]
      exact if_congr (by simp [SpeedRec.readsLost, r]) rfl rfl

end Sys2Proof.Machine
end

section
/-! SUPPORT and O44. Samples of the converter channels, and the quantities derived from a publication (R50 to R56). -/

namespace Sys2Proof.Machine

/-! Samples (R50, R51). -/

theorem convInside_iff (items : List (List Word)) (ch : ConvCh) (raw : BitVec 12) :
    convInside items ch raw = true ↔
      (itemValue items 17 ch.code).toNat ≤ raw.toNat ∧ raw.toNat ≤ (itemValue items 18 ch.code).toNat := within_iff _ _ _

/-- The window state after a sample outside the window. -/
def Window.strayed (w : Window) (now : Time) : Window :=
  match w with
  | .inWindow => .outPending now
  | .outPending t => .outPending t
  | .outOfRange => .outOfRange

section

variable {r : ConvRec} {items : List (List Word)} {ch : ConvCh} {now : Time} {advisory latched : Bool} {raw : BitVec 12}

/-- A sample inside the window brings a channel into it, out of OUT_OF_RANGE only as the latch lets it. -/
theorem ConvRec.sample_good (inside : convInside items ch raw = true)
    (free : r.window = .outOfRange → advisory = true ∨ latched = false) :
    r.sample items ch now advisory latched raw = ⟨raw, true, .inWindow, some (convScale items ch raw), false⟩ := by
  unfold ConvRec.sample
  cases window : r.window with
  | inWindow => simp [inside]
  | outPending t => simp [inside]
  | outOfRange => simp [inside, free window]

theorem ConvRec.sample_held (inside : convInside items ch raw = true) (out : r.window = .outOfRange)
    (held : ¬ (advisory = true ∨ latched = false)) :
    r.sample items ch now advisory latched raw = ⟨raw, true, .outOfRange, r.last, false⟩ := by
  unfold ConvRec.sample
  simp [inside, out, held]

theorem ConvRec.sample_bad (outside : convInside items ch raw = false) :
    r.sample items ch now advisory latched raw = ⟨raw, false, r.window.strayed now, r.last, false⟩ := by
  unfold ConvRec.sample Window.strayed
  cases r.window <;> simp [outside]

end

/-! Derived quantities (R53, R54, R56). -/

theorem slipPercent_slow {wheel : Nat} (slow : wheel < 10) (ground : Nat) : slipPercent wheel ground = 0 := if_pos slow

/-- From 1.0 km/h on: the share of the wheel speed that the ground speed falls short of. -/
theorem slipPercent_fast {wheel : Nat} (fast : 10 ≤ wheel) (ground : Nat) :
    slipPercent wheel ground = (wheel - ground) * 100 / wheel := by
  unfold slipPercent
  rw [if_neg (Nat.not_lt.mpr fast), Nat.min_eq_right]
  exact Nat.div_le_of_le_mul (Nat.mul_comm wheel 100 ▸ Nat.mul_le_mul_right 100 (Nat.sub_le wheel ground))

theorem slipPercent_outrun {wheel ground : Nat} (faster : wheel < ground) : slipPercent wheel ground = 0 := by
  rcases Nat.lt_or_ge wheel 10 with slow | fast
  · exact slipPercent_slow slow ground
  · rw [slipPercent_fast fast, Nat.sub_eq_zero_of_le faster.le, Nat.zero_mul, Nat.zero_div]

theorem both_eq_none {α : Type} (f : α → α → α) (a b : Option α) : both f a b = none ↔ a = none ∨ b = none := by
  cases a <;> cases b <;> simp [both]

theorem State.radarSource_iff (s : State) (wheel : Option Nat) :
    s.radarSource wheel = true ↔
      (s.mu.speed.get .radar).lost = false ∧ (s.mu.speed.get .radar).resuming = false ∧ s.mu.byWheel = false ∧
        ((s.mu.speed.get .radar).timing.isValid = true ∨ ∀ w, wheel = some w → w < 10) := by
  unfold State.radarSource SpeedRec.readsLost
  cases wheel <;> simp [and_assoc]

/-- The quantities of a publication that depend on its source: RADAR gives the ground speed and a slip, WHEEL no slip. -/
theorem State.publication_source (s : State) :
    (s.radarSource s.publication.wheel = true ∧ s.publication.source = .radar ∧ s.publication.ground = s.publication.radar ∧
        s.publication.slip = both slipPercent s.publication.wheel s.publication.ground) ∨
      s.radarSource s.publication.wheel = false ∧ s.publication.source = .wheel ∧
        s.publication.ground = s.publication.wheel ∧ s.publication.slip = none := by
  cases source : s.radarSource (s.chanSpeed .output) with
  | true =>
    refine .inl ⟨source, ?_, ?_, ?_⟩ <;>
    · unfold State.publication
      simp only [source, if_true]
  | false =>
    refine .inr ⟨source, ?_, ?_, ?_⟩ <;>
    · unfold State.publication
      simp only [source, Bool.false_eq_true, if_false]

/-- A radar that is the source has a speed. -/
theorem State.radar_of_source {s : State} {wheel : Option Nat} (source : s.radarSource wheel = true) :
    ∃ g, s.publication.radar = some g := by
  obtain ⟨present, taken, -, -⟩ := (s.radarSource_iff wheel).mp source
  exact ⟨_, State.chanSpeed_read present taken⟩

/-- Settles O44. -/
theorem convertersAndQuantities : Obligations.ConvertersAndQuantities := by
  refine ⟨⟨?_, by decide, by decide, ?_⟩, ?_⟩
  · intro items ch raw r now advisory latched inside scaled r'
    have inside_iff : convInside items ch raw = true ↔ inside := convInside_iff items ch raw
    by_cases good : inside
    · have within_window := inside_iff.mpr good
      by_cases free : r.window = .outOfRange → advisory = true ∨ latched = false
      · have sampled : r' = _ := ConvRec.sample_good within_window free
        rw [sampled]
        exact ⟨rfl, iff_of_true rfl good, fun _ => (if_pos good).symm, fun _ _ => (if_pos good).symm,
          fun out => (if_pos ⟨good, free out⟩).symm, fun _ => rfl, nofun, nofun⟩
      · obtain ⟨out, held⟩ := Classical.not_imp.mp free
        have sampled : r' = _ := ConvRec.sample_held within_window out held
        rw [sampled, out]
        exact ⟨rfl, iff_of_true rfl good, nofun, nofun, fun _ => (if_neg fun h => held h.2).symm, nofun, nofun,
          fun _ => ⟨rfl, rfl⟩⟩
    · have sampled : r' = _ := ConvRec.sample_bad (Bool.eq_false_iff.mpr (mt inside_iff.mp good))
      rw [sampled, if_neg good]
      refine ⟨rfl, iff_of_false Bool.false_ne_true good, fun w => by rw [w]; rfl, fun t w => by rw [w, if_neg good]; rfl,
        fun w => by rw [w, if_neg fun h => good h.1]; rfl, fun w => ?_, fun t w => ?_, fun w => ?_⟩
      · exact absurd w (by unfold Window.strayed; cases r.window <;> nofun)
      · unfold ConvRec.value
        rw [w]
        rfl
      · unfold ConvRec.value
        rw [w]
        exact ⟨rfl, rfl⟩
  · intro ch w
    refine ⟨?_, (gainOk_iff _ w).trans (iff_self_and.mpr fun _ => ?_)⟩
    · simp [valueOk, within_iff]
    · have high := BitVec.toInt_lt (x := w)
      omega
  · intro s p radar
    have sourced : p.source = .radar ↔ s.radarSource p.wheel = true := by
      rcases s.publication_source with ⟨source, named, -, -⟩ | ⟨source, named, -, -⟩
      · exact iff_of_true named source
      · exact iff_of_false (by rw [named]; nofun) (Bool.eq_false_iff.mp source)
    have slipped : p.source = .radar → p.slip = both slipPercent p.wheel p.ground := fun radar => by
      rcases s.publication_source with ⟨-, -, -, slip⟩ | ⟨-, named, -, -⟩
      · exact slip
      · exact absurd (named.symm.trans radar) (by decide)
    have grounded : p.ground = if p.source = .radar then p.radar else p.wheel := by
      rcases s.publication_source with ⟨-, named, ground, -⟩ | ⟨-, named, ground, -⟩
      · rw [ground, if_pos named]
      · rw [ground, if_neg (by rw [named]; decide)]
    refine ⟨sourced.trans (s.radarSource_iff p.wheel), grounded, ?_, fun w g radar wheel ground fast _ => ?_,
      fun w radar wheel slow => ?_, fun w g radar wheel ground faster => ?_, ?_, ?_, rfl⟩
    · rcases s.publication_source with ⟨source, named, ground, slip⟩ | ⟨-, named, -, slip⟩
      · obtain ⟨g, radar⟩ := State.radar_of_source source
        rw [slip, both_eq_none, ground, radar, named]
        simp [p]
      · exact iff_of_true slip (.inl named)
    · rw [slipped radar, wheel, ground, ← slipPercent_fast fast]
      rfl
    · obtain ⟨g, given⟩ := State.radar_of_source (sourced.mp radar)
      rw [slipped radar, grounded, if_pos radar, wheel, given, ← slipPercent_slow slow g]
      rfl
    · rw [slipped radar, wheel, ground, ← slipPercent_outrun faster]
      rfl
    · show both (· + ·) p.draftL p.draftR = _
      cases p.draftL <;> cases p.draftR <;> rfl
    · show both min p.brakeL p.brakeR = _
      cases p.brakeL <;> cases p.brakeR <;> rfl

end Sys2Proof.Machine
end

section
/-! SUPPORT and O24. The nine status views, value by value (R58, R71, R75, R76, R104, R118, R135, R148, R157, R179). -/

namespace Sys2Proof.Machine

variable {s : State}

/-! The sequencer state (R76). -/

/-- A step of a kind is started: it stands at the head of the queue, in a phase. -/
def Sq.starts (q : Sq) (k : StepKind) : Bool := q.queue.head?.any fun st => st.phase.isSome && st.kind = k

theorem Sq.starts_iff (q : Sq) (k : StepKind) : q.starts k = true ↔ q.started.map GearStep.kind = some k := by
  unfold Sq.starts Sq.started
  cases q.queue with
  | nil => simp
  | cons st rest => cases phase : st.phase <;> simp [phase]

theorem Sq.syncDir_isSome (q : Sq) : q.syncDir.isSome = true ↔ q.state .cf = .sync ∨ q.state .cr = .sync := by
  unfold Sq.syncDir
  by_cases cf : q.state .cf = .sync <;> by_cases cr : q.state .cr = .sync <;> simp [cf, cr]

theorem Sq.engaged_isSome (q : Sq) : q.engaged.isSome = true ↔ q.state .cf = .locked ∨ q.state .cr = .locked := by
  unfold Sq.engaged Sq.locked
  by_cases cf : q.state .cf = .locked <;> by_cases cr : q.state .cr = .locked <;> simp [cf, cr]

/-- The state that a started step of a kind gives the sequencer; a FREE step, by the direction clutches. -/
def StepKind.seq (k : StepKind) (dirsOpen : Bool) : SeqState :=
  match k with
  | .single | .range => .powershift
  | .shuttle => .shuttle
  | .engage => .engage
  | .neutralize => .disengage
  | .free => if dirsOpen then .preselect else .inch

theorem Sq.seq_started {q : Sq} {k : StepKind} (starts : q.starts k = true) : q.seq = k.seq q.dirsOpen := by
  unfold Sq.seq
  rw [(q.starts_iff k).mp starts]
  cases k <;> rfl

theorem Sq.seq_idle {q : Sq} (idle : ∀ k, q.starts k = false) :
    q.seq = if q.syncDir.isSome then .inch else if q.engaged.isSome then .drive else .neutral := by
  unfold Sq.seq
  cases started : q.started.map GearStep.kind with
  | none => rfl
  | some k => exact absurd ((q.starts_iff k).mpr started) (by rw [idle]; exact Bool.false_ne_true)

/-- The rows of R76 in RUN with ENABLE high; none applies while the direction clutches are neither open nor engaged. -/
def Sq.seqRow (q : Sq) : Option SeqState :=
  let opened : Bool := q.state .cf = .opened && q.state .cr = .opened
  let syncs (c : Clutch) : Bool := q.state c = .sync
  let locked (c : Clutch) : Bool := q.state c = .locked
  if q.starts .single ∨ q.starts .range then some .powershift
  else if q.starts .shuttle then some .shuttle
  else if q.starts .engage then some .engage
  else if q.starts .neutralize then some .disengage
  else if q.starts .free ∧ opened then some .preselect
  else if syncs .cf ∨ syncs .cr ∨ q.starts .free then some .inch
  else if locked .cf ∨ locked .cr then some .drive
  else if opened then some .neutral
  else none

theorem Sq.seq_of_row {q : Sq} {x : SeqState} (row : q.seqRow = some x) : q.seq = x := by
  simp only [Sq.seqRow, decide_eq_true_eq] at row
  split at row
  · next shifts =>
    rw [← Option.some.inj row]
    exact shifts.elim (Sq.seq_started ·) (Sq.seq_started ·)
  next noShift =>
  split at row
  · next shuttles => exact (Sq.seq_started shuttles).trans (Option.some.inj row)
  next noShuttle =>
  split at row
  · next engages => exact (Sq.seq_started engages).trans (Option.some.inj row)
  next noEngage =>
  split at row
  · next neutralizes => exact (Sq.seq_started neutralizes).trans (Option.some.inj row)
  next noNeutralize =>
  split at row
  · next preselects => exact ((Sq.seq_started preselects.1).trans (if_pos preselects.2)).trans (Option.some.inj row)
  next noPreselect =>
  by_cases free : q.starts .free
  · rw [if_pos (.inr (.inr free))] at row
    exact ((Sq.seq_started free).trans (if_neg fun opened => noPreselect ⟨free, opened⟩)).trans (Option.some.inj row)
  have idle : ∀ k, q.starts k = false := fun k => Bool.eq_false_iff.mpr (by
    cases k
    · exact fun h => noShift (.inl h)
    · exact fun h => noShift (.inr h)
    · exact noShuttle
    · exact free
    · exact noEngage
    · exact noNeutralize)
  rw [Sq.seq_idle idle]
  split at row
  · next inches =>
    rw [if_pos (q.syncDir_isSome.mpr (inches.imp_right (·.resolve_right free)))]
    exact Option.some.inj row
  next noInch =>
  rw [if_neg fun slips => noInch ((q.syncDir_isSome.mp slips).imp_right .inl)]
  split at row
  · next drives =>
    rw [if_pos (q.engaged_isSome.mpr drives)]
    exact Option.some.inj row
  next noDrive =>
  rw [if_neg (mt q.engaged_isSome.mp noDrive)]
  split at row
  · exact Option.some.inj row
  · cases row

/-! Sets of marks (chapter 13). -/

/-- Marks as a number: mark `i` in bit `i`. -/
theorem sum_boolBit_succ (bs : List Bool) (o : Nat) :
    ((bs.zipIdx (o + 1)).map fun (b, i) => boolBit b i).sum = 2 * ((bs.zipIdx o).map fun (b, i) => boolBit b i).sum := by
  induction bs generalizing o with
  | nil => rfl
  | cons b bs ih =>
    simp only [List.zipIdx_cons, List.map_cons, List.sum_cons, ih, Nat.mul_add]
    congr 1
    unfold boolBit
    cases b
    · rfl
    · exact Nat.pow_succ'

theorem testBit_marks (bs : List Bool) (i : Nat) :
    ((bs.zipIdx.map fun (b, i) => boolBit b i).sum).testBit i = bs.getD i false := by
  induction bs generalizing i with
  | nil => simp
  | cons b bs ih =>
    have doubled : ((b :: bs).zipIdx.map fun (b, i) => boolBit b i).sum =
        b.toNat + 2 * (bs.zipIdx.map fun (b, i) => boolBit b i).sum := by
      rw [List.zipIdx_cons, List.map_cons, List.sum_cons, sum_boolBit_succ]
      cases b <;> rfl
    have halved : ∀ n, (b.toNat + 2 * n) / 2 = n := fun n => by cases b <;> simp only [Bool.toNat_false, Bool.toNat_true] <;> omega
    rw [doubled]
    cases i with
    | zero => cases b <;> simp [Nat.testBit_zero]
    | succ i =>
      rw [Nat.testBit_succ, halved, ih]
      rfl

theorem bitSet_getLsbD {bs : List Bool} (few : bs.length ≤ 16) (i : Nat) : (bitSet bs).getLsbD i = bs.getD i false := by
  unfold bitSet Word.ofNat
  rw [BitVec.getLsbD_ofNat, testBit_marks]
  by_cases inside : i < 16
  · simp [inside]
  · simp [inside, List.getElem?_eq_none (show bs.length ≤ i by omega)]

/-! MEASURE (R58). -/

theorem State.measured_channels (s : State) :
    s.measured.chans = s.publication.chans ∧ s.measured.windows = s.publication.windows ∧
      s.measured.raws = s.publication.raws := by
  unfold State.measured
  dsimp only
  split <;> exact ⟨rfl, rfl, rfl⟩

theorem State.publication_reads (s : State) (ch : SpeedCh) :
    (s.publication.chans.get ch).code =
      if (s.mu.speed.get ch).lost ∨ (s.mu.speed.get ch).resuming then 2
      else match (s.mu.speed.get ch).timing with | .valid .. => 0 | .still _ => 1 := by
  show ((BySpeed.tabulate fun c => (s.mu.speed.get c).reads).get ch).code = _
  rw [BySpeed.get_tabulate]
  unfold SpeedRec.reads SpeedRec.readsLost
  cases (s.mu.speed.get ch).lost <;> cases (s.mu.speed.get ch).resuming <;> cases (s.mu.speed.get ch).timing <;> rfl

theorem State.publication_window (s : State) (ch : ConvCh) :
    s.publication.windows.get ch = (s.mu.conv.get ch).window := ByConv.get_tabulate _ ch

theorem State.publication_raw (s : State) (ch : ConvCh) : s.publication.raws.get ch = (s.mu.conv.get ch).raw :=
  ByConv.get_tabulate _ ch

/-- Settles O24. -/
theorem viewsHold : Obligations.ViewsHold := by
  refine ⟨?_, ?_, fun n small => if_pos small, fun now r => ⟨rfl, rfl⟩, fun bs i few => bitSet_getLsbD few i,
    fun d r t => ?_, fun h => ⟨fun hold => ?_, fun transport => ?_, fun work => ?_⟩⟩
  · intro s q started locked syncs opened row
    refine ⟨fun x here => ?_, rfl, ?_, ?_, ?_, ?_⟩
    · by_cases stopped : s.running = false
      · have told : SeqState.stopped = x := Option.some.inj ((if_pos stopped).symm.trans here)
        simp [State.seqState, stopped, ← told]
      by_cases halted : s.enable = false
      · have told : SeqState.halt = x := Option.some.inj ((if_pos halted).symm.trans ((if_neg stopped).symm.trans here))
        simp [State.seqState, stopped, halted, ← told]
      · rw [State.seqState_live (by simpa using stopped) (by simpa using halted)]
        exact Sq.seq_of_row ((if_neg halted).symm.trans ((if_neg stopped).symm.trans here))
    · rfl
    · rfl
    · unfold Sq.takeUp
      simp [locked, syncs, q]
    · unfold Sq.gearNumber
      cases q.engaged with
      | none => rfl
      | some d =>
        cases q.range with
        | none => rfl
        | some r =>
          cases q.step with
          | none => rfl
          | some n => cases r <;> cases n <;> rfl
  · intro s p int nat time dir band request taken
    refine ⟨?_, ?_, ?_, ?_, ?_, ?_, ?_, ?_, ?_⟩
    · intro m
      refine ⟨?_, fun begun => if_pos begun, fun new => if_neg (by rw [new]; decide)⟩
      obtain ⟨chans, windows, raws⟩ := s.measured_channels
      show some s.measureView = _
      unfold State.measureView
      simp only [chans, windows, raws, State.publication_reads, State.publication_window, State.publication_raw]
      rfl
    · intro f lift waiting waited
      rfl
    · intro q step
      rfl
    · rfl
    · intro a
      rfl
    · intro h
      rfl
    · intro t state
      rfl
    · rfl
    · rfl
  · show Word.ofNat (_ + gearOf r t) = _
    exact congrArg (fun n => Word.ofNat (n + 1)) (Nat.add_assoc _ _ _).symm
  · unfold Hr.viewSetpoint
    rw [hold]
    rfl
  · unfold Hr.viewSetpoint
    rw [transport]
    rfl
  · unfold Hr.viewSetpoint
    rcases work with regulating | waiting
    · rw [regulating]
      rfl
    · rw [waiting]
      rfl

end Sys2Proof.Machine
end

section
/-! SUPPORT and O43. What a publication leaves alone in the measurement unit and beside it, and the timers that follow their
tests in it (R44, R49, R55, R57, R93, R100, R115, R144). -/

namespace Sys2Proof.Machine

variable {s t u : State}

/-! What the units do with a publication. -/

/-- What the work of the job units and a detection of CLUTCH_HOT leave alone in the other units. -/
structure HotOnly (s t : State) : Prop where
  mu : t.mu = s.mu
  tbu : t.tbu = s.tbu
  os : t.os = s.os
  mask : t.fu.mask = s.fu.mask
  entry : ∀ k, k ≠ .clutchHot → t.fu.entry.get k = s.fu.entry.get k

namespace HotOnly

theorem refl (s : State) : HotOnly s s := ⟨rfl, rfl, rfl, rfl, fun _ _ => rfl⟩

theorem trans (h : HotOnly s t) (g : HotOnly t u) : HotOnly s u :=
  ⟨g.mu.trans h.mu, g.tbu.trans h.tbu, g.os.trans h.os, g.mask.trans h.mask,
   fun k other => (g.entry k other).trans (h.entry k other)⟩

theorem ofJob (h : JobOnly s t) : HotOnly s t := ⟨h.mu, h.tbu, h.os, by rw [h.fu], fun _ _ => by rw [h.fu]⟩

theorem ofCauses (h : CausesOnly s t) : HotOnly s t := ⟨h.mu, h.tbu, h.os, by rw [h.fu], fun _ _ => by rw [h.fu]⟩

theorem fuConditions (s : State) : HotOnly s s.fuConditions := ⟨rfl, rfl, rfl, rfl, fun _ _ => rfl⟩

theorem detect (s : State) (site : Word) : HotOnly s (s.detect .clutchHot site) := by
  have latched : HotOnly s { s with
      fu := { s.fu with
        record := s.recordFirst .clutchHot site, entry := s.fu.entry.set .clutchHot ⟨true, some site⟩ } } :=
    ⟨rfl, rfl, rfl, rfl, fun k other => by
      show (s.fu.entry.set .clutchHot _).get k = _
      rw [ByKind.get_set, if_neg other]⟩
  unfold State.detect
  dsimp only
  refine latched.trans ?_
  generalize ({ s with fu := _ } : State) = a
  have unmarked : (a.reportFault .clutchHot).markUnits .clutchHot site = a.reportFault .clutchHot := rfl
  rw [unmarked]
  exact ((ofCauses ((CausesOnly.refl a).reportFault .clutchHot)).trans (ofJob (JobOnly.refl _).unitsFollow)).trans
    (fuConditions _)

theorem hotTest (s : State) (c : Clutch) : HotOnly s (s.hotTest c) := by
  unfold State.hotTest
  dsimp only
  split
  · exact trans (ofJob ((JobOnly.refl s).setSq _)) (detect _ _)
  · split
    · exact ofJob ((JobOnly.refl s).setSq _)
    · exact refl s

theorem hotTests (s : State) : HotOnly s s.hotTests := by
  unfold State.hotTests
  generalize Clutch.all = l
  induction l generalizing s with
  | nil => exact refl s
  | cons c l ih => exact (hotTest s c).trans (ih _)

theorem sqPublish (s : State) (old : Band) : HotOnly s (s.sqPublish old) := by
  unfold State.sqPublish
  split
  · exact refl s
  · exact ((ofJob (JobOnly.refl s).heatUp).trans (hotTests _)).trans
      (ofJob ((((((JobOnly.refl _).observe).pedalChange old).standstill).lockStart).looseStart).tryStart)

end HotOnly

/-- The LCU's part of a publication leaves the units and the orders alone, but for terms and conditions. -/
theorem State.lcuPublish_only (s : State) : SameUnits s s.lcuPublish ∧ SameStates s s.lcuPublish := by
  have units := s.sameUnits_sweep fun q => q ≠ .gearNumber
  have states := (SameStates.refl s).sweep fun q => q ≠ .gearNumber
  unfold State.lcuPublish
  generalize (s.sweep fun q => q ≠ .gearNumber) = a at units states
  obtain ⟨b, -, brakes, -⟩ := a.brakeAxlePublish_turn
  obtain ⟨c, -, turns, -⟩ := ({ a with lcu := b } : State).transportPublish_turn
  rw [brakes, turns]
  exact ⟨units, states.otu rfl⟩

/-- What the units leave alone as they take a publication one after the other. -/
structure PublishOnly (s t : State) : Prop extends HotOnly s t where
  inputs : t.inputs = s.inputs
  cs : t.cs = s.cs
  now : t.now = s.now
  leases : t.lcu.leases = s.lcu.leases
  orders : SameOrders s t
  ports : ∀ p, PortOnly (s.port p) (t.port p)
  sq : t.sq.kept = s.sq.kept
  acu : t.acu.kept = s.acu.kept

theorem State.publishOnly (s : State) (old : Band) (was lowering : Bool) :
    PublishOnly s (((s.lcuPublish.sqPublish old).acuPublish was).hrPublish lowering) := by
  have claim := (ClaimOnly.refl s).lcuPublish
  obtain ⟨⟨-, sameSq, sameAcu, sameTbu⟩, states⟩ := s.lcuPublish_only
  have leases := ((Touches.refl s).lcuPublish).leases
  generalize s.lcuPublish = a at claim sameSq sameAcu sameTbu states leases
  have told := (DetectOnly.refl a).sqPublish old
  have hot := HotOnly.sqPublish a old
  have work := ((JobOnly.refl (a.sqPublish old)).acuPublish was).hrPublish lowering
  have units := told.job work
  have kept := (((a.sqPublish old).acuPublish was).kept_hrPublish lowering)
  have kept' := ((a.sqPublish old).kept_acuPublish was).trans (a.kept_sqPublish old)
  have keptSq : (((a.sqPublish old).acuPublish was).hrPublish lowering).sq.kept = s.sq.kept :=
    (congrArg Prod.fst kept).trans ((congrArg Prod.fst kept').trans (congrArg Sq.kept sameSq))
  have keptAcu : (((a.sqPublish old).acuPublish was).hrPublish lowering).acu.kept = s.acu.kept :=
    (congrArg (fun x => x.2.1) kept).trans
      ((congrArg (fun x => x.2.1) kept').trans (congrArg Acu.kept sameAcu))
  have lcuHot : HotOnly s a := ⟨claim.mu, sameTbu, claim.os, by rw [claim.fu], fun _ _ => by rw [claim.fu]⟩
  exact {
    toHotOnly := (lcuHot.trans hot).trans (.ofJob work)
    inputs := units.inputs.trans claim.inputs
    cs := units.cs.trans claim.cs
    now := (congrArg Lcu.now units.lcu).trans claim.now
    leases := (congrArg Lcu.leases units.lcu).trans leases
    orders := states.orders.detected units
    ports := fun p => (claim.ports p).trans (units.ports p)
    sq := keptSq
    acu := keptAcu }

/-! The measurement of a publication. -/

/-- What the turn to a publication's millisecond leaves alone. -/
theorem State.pubTime_table (s : State) :
    s.pubTime.mu = { s.mu with published := s.pubTime.mu.published } ∧ s.pubTime.cs = s.cs ∧ s.pubTime.fu = s.fu ∧
      s.pubTime.inputs = s.inputs ∧ s.pubTime.otu = s.otu ∧ s.pubTime.os = s.os ∧ s.pubTime.rp = s.rp ∧
      s.pubTime.sq = s.sq ∧ s.pubTime.acu = s.acu ∧ s.pubTime.lcu.leases = s.lcu.leases := by
  unfold State.pubTime
  split <;> exact ⟨rfl, rfl, rfl, rfl, rfl, rfl, rfl, rfl, rfl, rfl⟩

/-- The pin samples of the millisecond that a publication leaves. -/
theorem State.tbu_pubTime (s : State) : s.pubTime.tbu = if s.mu.published then s.samplePins.tbu else s.tbu := by
  unfold State.pubTime
  split <;> rfl

/-- The state of a publication with its samples taken, before its quantities and the timers follow. -/
def State.sampled (s : State) (raw : ByConv (BitVec 12)) : State := (s.sampleAll raw).openPub

/-- The same with the quantities published. -/
def State.quantified (s : State) (raw : ByConv (BitVec 12)) : State :=
  { s.sampled raw with mu := { (s.sampled raw).mu with pub := (s.sampled raw).publication } }

theorem State.muPublish_quantified (s : State) (raw : ByConv (BitVec 12)) :
    s.muPublish raw = (s.quantified raw).followLost.followMismatch.followSupply := rfl

/-- A publication in its own millisecond, field by field of the MU: the channels, the quantities, the tests' timers. -/
theorem State.mu_muPublish (s : State) (raw : ByConv (BitVec 12)) :
    (s.muPublish raw).mu =
      { (s.sampled raw).mu with
        pub := (s.sampled raw).publication
        speed := (s.muPublish raw).mu.speed
        mismatch := s.mu.mismatch.follow (s.muPublish raw).disagree s.now
        supplyLow := (s.muPublish raw).supplyIsLow
        supply := s.mu.supply.follow (s.muPublish raw).supplyIsLow s.now } := by
  rfl

/-- The measurement of a publication changes the MU alone. -/
theorem State.muPublish_only (s : State) (raw : ByConv (BitVec 12)) : ∃ m, s.muPublish raw = { s with mu := m } := by
  have follow : ∀ u : State, ∃ m, u.followLost.followMismatch.followSupply = { u with mu := m } := fun _ => ⟨_, rfl⟩
  have quantities : ∃ m, s.quantified raw = { s with mu := m } := ⟨_, rfl⟩
  obtain ⟨m, eq⟩ := quantities
  obtain ⟨m', eq'⟩ := follow (s.quantified raw)
  refine ⟨m', ?_⟩
  rw [State.muPublish_quantified, eq', eq]

theorem State.items_muPublish (s : State) (raw : ByConv (BitVec 12)) : (s.muPublish raw).items = s.items := by
  obtain ⟨m, eq⟩ := s.muPublish_only raw
  rw [eq]
  rfl

/-- A publication's quantities are of the channels, the ground speed choice and the configuration alone. -/
theorem State.publication_congr (items : t.items = s.items) (conv : t.mu.conv = s.mu.conv)
    (speed : ∀ ch, (t.mu.speed.get ch).lost = (s.mu.speed.get ch).lost ∧
      (t.mu.speed.get ch).resuming = (s.mu.speed.get ch).resuming ∧
      (t.mu.speed.get ch).timing = (s.mu.speed.get ch).timing)
    (byWheel : t.mu.byWheel = s.mu.byWheel) : t.publication = s.publication := by
  have lost : ∀ ch, (t.mu.speed.get ch).readsLost = (s.mu.speed.get ch).readsLost := by
    intro ch
    obtain ⟨lost, resuming, -⟩ := speed ch
    unfold SpeedRec.readsLost
    rw [lost, resuming]
  have timing : ∀ ch, (t.mu.speed.get ch).timing = (s.mu.speed.get ch).timing := fun ch => (speed ch).2.2
  have chan : ∀ ch, t.chanSpeed ch = s.chanSpeed ch := by
    intro ch
    unfold State.chanSpeed
    dsimp only
    rw [lost, timing, items]
  have reads : ∀ ch, (t.mu.speed.get ch).reads = (s.mu.speed.get ch).reads := by
    intro ch
    unfold SpeedRec.reads
    rw [lost, timing]
  unfold State.publication State.radarSource
  simp only [chan, reads, lost, timing, conv, byWheel]

/-- A channel's silence is of the channels, the gearbox and the configuration alone. -/
theorem State.silent_congr (items : t.items = s.items) (sq : t.sq = s.sq)
    (timing : ∀ ch, (t.mu.speed.get ch).timing = (s.mu.speed.get ch).timing)
    (lost : ∀ ch, (t.mu.speed.get ch).lost = (s.mu.speed.get ch).lost) (ch : SpeedCh) : t.silent ch = s.silent ch := by
  have moving : ∀ c, t.moving c = s.moving c := by
    intro c
    unfold State.moving
    dsimp only
    rw [timing, lost, items]
  unfold State.silent
  simp only [moving, timing, sq]

/-- A publication's channels: the samples of R50, no channel resuming any more, timings and lost marks as they were. -/
theorem State.speed_muPublish (s : State) (raw : ByConv (BitVec 12)) (ch : SpeedCh) :
    (s.muPublish raw).mu.speed.get ch =
      { s.mu.speed.get ch with
        resuming := false, lostTimer := (s.mu.speed.get ch).lostTimer.follow (s.silent ch) s.now } := by
  have channel : ∀ c, (s.quantified raw).mu.speed.get c = { s.mu.speed.get c with resuming := false } :=
    fun c => BySpeed.get_tabulate _ c
  have silent : (s.quantified raw).silent ch = s.silent ch :=
    State.silent_congr (s := s) (t := s.quantified raw) rfl rfl (fun c => by rw [channel]) (fun c => by rw [channel]) ch
  rw [State.muPublish_quantified]
  refine (BySpeed.get_tabulate _ ch).trans ?_
  dsimp only
  rw [silent, channel]
  rfl

theorem Timer.follow_eq (r : Timer) (b : Bool) (now : Time) :
    r.follow b now = if b then some (r.getD ⟨now, false⟩) else none := by
  unfold Timer.follow Timer.begun
  cases r <;> rfl

/-- A timer that follows one test twice at one time follows it once. -/
theorem Timer.follow_follow (r : Timer) (b : Bool) (now : Time) : (r.follow b now).follow b now = r.follow b now := by
  unfold Timer.follow
  cases b <;> cases r <;> rfl

/-- A timer that follows first an earlier test and then a later one follows the later one where it did not run, or the earlier
one held. -/
theorem Follows.twice {test : Prop} {before after : Bool} (tested : after = true ↔ test) (now : Time) {r : Timer}
    (fresh : r = none ∨ before = true) : Follows test now r ((r.follow before now).follow after now) := by
  have once := Follows.of tested now r
  have same : (r.follow before now).follow after now = r.follow after now := by
    unfold Timer.follow Timer.begun
    rcases fresh with rfl | rfl
    · cases before <;> rfl
    · cases after <;> cases r <;> rfl
  rw [same]
  exact once

theorem Timer.follow_ne_none {test : Prop} {b : Bool} (tested : b = true ↔ test) (now : Time) (r : Timer) :
    r.follow b now ≠ none ↔ test := by
  rw [← tested]
  unfold Timer.follow Timer.begun
  cases b <;> cases r <;> simp

/-! A publication, from its start to its end. -/

/-- The timers of the tests at the end of an event follow the tests, as their rules word them. -/
theorem State.settle_follows (s : State) (old : Sq) :
    let t := s.settle old
    (∀ ch, Follows (t.SilentWhileMoving ch) s.now (s.mu.speed.get ch).lostTimer (t.mu.speed.get ch).lostTimer) ∧
    Follows t.SpeedsDisagree s.now s.mu.mismatch t.mu.mismatch ∧ t.mu.supply = s.mu.supply ∧
    Follows t.DrivenGearSlips s.now s.sq.slip t.sq.slip ∧
    Follows t.AxlesDisagree s.now s.acu.mismatch t.acu.mismatch ∧
    Follows t.LineMisses s.now s.tbu.tracking t.tbu.tracking ∧
    Follows (∃ e, t.AutoRuns e ∧ takenField t.sq.taken 5 < e) s.now s.sq.up t.sq.up ∧
    Follows (∃ e, t.AutoRuns e ∧ e < takenField t.sq.taken 6) s.now s.sq.down t.sq.down := by
  intro t
  obtain ⟨lost, mismatch, supply, up, down, slip, axle, tracking⟩ := s.settle_timers old
  refine ⟨fun ch => ?_, ?_, supply, ?_, ?_, ?_, ?_, ?_⟩
  · rw [lost]; exact .of (t.silent_iff ch) _ _
  · rw [mismatch]; exact .of t.disagree_iff _ _
  · rw [slip]; exact .of t.gearSlips_iff _ _
  · rw [axle]; exact .of t.acuMismatch_iff _ _
  · rw [tracking]; exact .of t.tbuMisses_iff _ _
  · rw [up]; exact .of t.autoUp_iff _ _
  · rw [down]; exact .of t.autoDown_iff _ _

/-- What a publication keeps from the state that the units take it in to the state that its event leaves. -/
structure PublicationKeeps (s t : State) : Prop where
  mu : t.mu = { s.mu with speed := t.mu.speed, mismatch := t.mu.mismatch }
  speed : ∀ ch, t.mu.speed.get ch = { s.mu.speed.get ch with lostTimer := (t.mu.speed.get ch).lostTimer }
  tbu : t.tbu = { s.tbu with tracking := t.tbu.tracking }
  inputs : t.inputs = s.inputs
  cs : t.cs = s.cs
  now : t.now = s.now
  leases : t.lcu.leases = s.lcu.leases
  orders : SameOrders s t
  ports : ∀ p, PortOnly (s.port p) (t.port p)
  os : ∀ ch, (t.os.get ch).inForce = (s.os.get ch).inForce ∧ (t.os.get ch).tripped = (s.os.get ch).tripped
  mask : t.fu.mask = s.fu.mask
  entry : ∀ k, k ≠ .clutchHot → t.fu.entry.get k = s.fu.entry.get k

theorem PublicationKeeps.of (units : PublishOnly s t) (ends : SettleOnly t u) : PublicationKeeps s u where
  mu := by rw [ends.mu, units.mu]
  speed := fun ch => by rw [ends.speed ch, units.mu]
  tbu := by rw [ends.tbu, units.tbu]
  inputs := ends.inputs.trans units.inputs
  cs := ends.cs.trans units.cs
  now := ends.now.trans units.now
  leases := ends.leases.trans units.leases
  orders := units.orders.trans ends.states.orders
  ports := fun p => (units.ports p).trans (ends.ports p)
  os := fun ch => by rw [ends.os ch, units.os]; exact ⟨rfl, rfl⟩
  mask := (congrArg Fu.mask ends.fu).trans units.mask
  entry := fun k other => (congrArg (fun f : Fu => f.entry.get k) ends.fu).trans (units.entry k other)

/-- The state in which the units take a publication, by the state before it: channels, quantities and timers of the MU. -/
structure Measures (s : State) (raw : ByConv (BitVec 12)) (a : State) : Prop where
  conv : ∀ ch, a.mu.conv.get ch =
    (s.mu.conv.get ch).sample s.items ch a.now (s.action .sensorRange = .advisory) (s.latched .sensorRange) (raw.get ch)
  speed : ∀ ch, a.mu.speed.get ch =
    { s.mu.speed.get ch with
      resuming := false, lostTimer := (s.mu.speed.get ch).lostTimer.follow (s.silent ch) a.now }
  byWheel : a.mu.byWheel = (s.latched .speedMismatch && s.action .speedMismatch = .degrade)
  pub : a.pub = a.publication
  begun : a.mu.begun = true
  mismatch : a.mu.mismatch = s.mu.mismatch.follow a.disagree a.now
  supplyLow : a.mu.supplyLow = a.supplyIsLow
  supply : a.mu.supply = s.mu.supply.follow a.supplyIsLow a.now

theorem State.measures_muPublish (s : State) (raw : ByConv (BitVec 12)) : Measures s raw (s.muPublish raw) where
  conv := fun ch => by
    rw [s.mu_muPublish, s.now_muPublish]
    exact ByConv.get_tabulate _ ch
  speed := by
    rw [s.now_muPublish]
    exact s.speed_muPublish raw
  byWheel := congrArg Mu.byWheel (s.mu_muPublish raw)
  pub := by
    have channel : ∀ c, (s.sampled raw).mu.speed.get c = { s.mu.speed.get c with resuming := false } :=
      fun c => BySpeed.get_tabulate _ c
    have same : (s.sampled raw).publication = (s.muPublish raw).publication :=
      State.publication_congr (s.items_muPublish raw).symm (congrArg Mu.conv (s.mu_muPublish raw)).symm
        (fun ch => by rw [channel, s.speed_muPublish]; exact ⟨rfl, rfl, rfl⟩)
        (congrArg Mu.byWheel (s.mu_muPublish raw)).symm
    exact (congrArg Mu.pub (s.mu_muPublish raw)).trans same
  begun := congrArg Mu.begun (s.mu_muPublish raw)
  mismatch := by
    rw [s.now_muPublish]
    exact congrArg Mu.mismatch (s.mu_muPublish raw)
  supplyLow := congrArg Mu.supplyLow (s.mu_muPublish raw)
  supply := by
    rw [s.now_muPublish]
    exact congrArg Mu.supply (s.mu_muPublish raw)

theorem State.measures_atPublication (s : State) (raw : ByConv (BitVec 12)) : Measures s raw (s.atPublication raw) := by
  have measures : Measures s.pubTime raw (s.atPublication raw) := s.pubTime.measures_muPublish raw
  obtain ⟨mu, cs, fu, -, -, -, -, sq, -, -⟩ := s.pubTime_table
  have channel : s.pubTime.mu.speed = s.mu.speed := by rw [mu]
  have silent : ∀ ch, s.pubTime.silent ch = s.silent ch := fun ch =>
    State.silent_congr (congrArg Cs.items cs) sq (fun c => by rw [channel]) (fun c => by rw [channel]) ch
  have latched : ∀ k, s.pubTime.latched k = s.latched k := fun k => by unfold State.latched; rw [fu]
  have action : ∀ k, s.pubTime.action k = s.action k := fun k => by unfold State.action State.items; rw [cs]
  have conv : s.pubTime.mu.conv = s.mu.conv := by rw [mu]
  have mismatch : s.pubTime.mu.mismatch = s.mu.mismatch := by rw [mu]
  have supply : s.pubTime.mu.supply = s.mu.supply := by rw [mu]
  have items : s.pubTime.items = s.items := congrArg Cs.items cs
  exact {
    conv := by simpa only [conv, items, action, latched] using measures.conv
    speed := by simpa only [channel, silent] using measures.speed
    byWheel := by simpa only [latched, action] using measures.byWheel
    pub := measures.pub
    begun := measures.begun
    mismatch := by simpa only [mismatch] using measures.mismatch
    supplyLow := measures.supplyLow
    supply := by simpa only [supply] using measures.supply }

/-- What the measurement of a publication leaves alone beside the MU. -/
theorem State.atPublication_units (s : State) (raw : ByConv (BitVec 12)) :
    (s.atPublication raw).cs = s.cs ∧ (s.atPublication raw).fu = s.fu ∧ (s.atPublication raw).inputs = s.inputs ∧
      (s.atPublication raw).os = s.os ∧ (s.atPublication raw).rp = s.rp ∧
      (s.atPublication raw).sq = s.sq ∧ (s.atPublication raw).acu = s.acu ∧
      (s.atPublication raw).lcu.leases = s.lcu.leases ∧ SameOrders s (s.atPublication raw) ∧
      (s.atPublication raw).tbu = (if s.mu.published then s.samplePins.tbu else s.tbu) := by
  obtain ⟨-, cs, fu, inputs, otu, os, rp, sq, acu, leases⟩ := s.pubTime_table
  obtain ⟨m, eq⟩ := s.pubTime.muPublish_only raw
  unfold State.atPublication
  rw [eq]
  exact ⟨cs, fu, inputs, os, rp, sq, acu, leases, .ofOtu otu, s.tbu_pubTime⟩

/-- What the event of a publication leaves of the MU that its units took. -/
theorem PublicationKeeps.measured {a : State} (keeps : PublicationKeeps a t) (pub : a.pub = a.publication)
    (items : a.items = s.items) : t.pub = ({ s with mu := t.mu } : State).publication := by
  have conv : t.mu.conv = a.mu.conv := by rw [keeps.mu]
  have byWheel : t.mu.byWheel = a.mu.byWheel := by rw [keeps.mu]
  have same : ({ s with mu := t.mu } : State).publication = a.publication :=
    State.publication_congr (t := { s with mu := t.mu }) items.symm conv
      (fun ch => by dsimp only; rw [keeps.speed ch]; exact ⟨rfl, rfl, rfl⟩) byWheel
  rw [same, ← pub]
  unfold State.pub
  rw [keeps.mu]

/-- The timers of the tests over the event of a publication. -/
theorem State.publication_follows (s : State) (raw : ByConv (BitVec 12)) :
    let t := (s.publicationTaken raw).settle s.sq
    (∀ ch,
      let was := (s.mu.speed.get ch).lostTimer
      let is := (t.mu.speed.get ch).lostTimer
      (is ≠ none ↔ t.SilentWhileMoving ch) ∧
      (was = none ∨ s.SilentWhileMoving ch → Follows (t.SilentWhileMoving ch) t.now was is)) ∧
    Follows t.SpeedsDisagree t.now s.mu.mismatch t.mu.mismatch ∧
    Follows t.SupplyBelow t.now s.mu.supply t.mu.supply ∧
    Follows t.DrivenGearSlips t.now s.sq.slip t.sq.slip ∧
    Follows t.AxlesDisagree t.now s.acu.mismatch t.acu.mismatch ∧
    Follows t.LineMisses t.now s.tbu.tracking t.tbu.tracking ∧
    Follows (∃ e, t.AutoRuns e ∧ takenField t.sq.taken 5 < e) t.now s.sq.up t.sq.up ∧
    Follows (∃ e, t.AutoRuns e ∧ e < takenField t.sq.taken 6) t.now s.sq.down t.sq.down := by
  intro t
  have measures := s.measures_atPublication raw
  have units : PublishOnly (s.atPublication raw) (s.publicationTaken raw) := State.publishOnly _ _ _ _
  have ends : SettleOnly (s.publicationTaken raw) t := (SettleOnly.refl _).settle s.sq
  obtain ⟨-, -, -, -, -, sq, acu, -, -, tbu⟩ := s.atPublication_units raw
  obtain ⟨lost, mismatch, supply, up, down, slip, axle, tracking⟩ := (s.publicationTaken raw).settle_timers s.sq
  have now : (s.publicationTaken raw).now = t.now := ends.now.symm
  have now' : (s.atPublication raw).now = t.now := units.now.symm.trans now
  have keptSq := units.sq
  have keptAcu := units.acu
  rw [sq] at keptSq
  rw [acu] at keptAcu
  obtain ⟨-, keptUp, keptDown, keptSlip⟩ : _ ∧ _ ∧ _ ∧ _ := by
    simpa only [Sq.kept, Prod.mk.injEq] using keptSq
  obtain ⟨-, keptMismatch⟩ : _ ∧ _ := by simpa only [Acu.kept, Prod.mk.injEq] using keptAcu
  have keptTracking : (s.publicationTaken raw).tbu.tracking = s.tbu.tracking := by
    rw [units.tbu, tbu]
    split <;> rfl
  have disagree : t.disagree = (s.atPublication raw).disagree := by
    rw [ends.disagree]
    unfold State.disagree State.pub
    rw [units.mu]
  have low : t.supplyIsLow = (s.atPublication raw).supplyIsLow := by
    unfold State.supplyIsLow State.items
    rw [ends.pub, ends.cs, units.cs]
    unfold State.pub
    rw [units.mu]
  refine ⟨fun ch => ?_, ?_, ?_, ?_, ?_, ?_, ?_, ?_⟩
  · have moved := lost ch
    rw [units.mu, measures.speed, now, now'] at moved
    dsimp only at moved ⊢
    rw [moved]
    refine ⟨Timer.follow_ne_none (t.silent_iff ch) _ _, fun fresh => .twice (t.silent_iff ch) _ ?_⟩
    exact fresh.imp_right (s.silent_iff ch).mpr
  · rw [mismatch, units.mu, measures.mismatch, now, now', ← disagree, Timer.follow_follow]
    exact .of t.disagree_iff _ _
  · rw [supply, units.mu, measures.supply, now', ← low]
    exact .of t.supplyIsLow_iff _ _
  · rw [slip, keptSlip, now]
    exact .of t.gearSlips_iff _ _
  · rw [axle, keptMismatch, now]
    exact .of t.acuMismatch_iff _ _
  · rw [tracking, keptTracking, now]
    exact .of t.tbuMisses_iff _ _
  · rw [up, keptUp, now]
    exact .of t.autoUp_iff _ _
  · rw [down, keptDown, now]
    exact .of t.autoDown_iff _ _

/-- Settles O43. -/
theorem publicationSamples : Obligations.PublicationSamples := by
  refine ⟨State.settle_follows, fun raw s => ?_⟩
  refine ⟨_, exec_muPublication s raw, ?_⟩
  obtain ⟨lost, mismatch, supply, slip, axle, tracking, up, down⟩ := s.publication_follows raw
  have measures := s.measures_atPublication raw
  have units : PublishOnly (s.atPublication raw) (s.publicationTaken raw) := State.publishOnly _ _ _ _
  have ends := (SettleOnly.refl (s.publicationTaken raw)).settle s.sq
  have keeps := PublicationKeeps.of units ends
  have now : (s.atPublication raw).now = if s.mu.published then s.now + 1 else s.now := by
    unfold State.atPublication
    rw [State.now_muPublish, State.now_pubTime]
  obtain ⟨cs, fu, inputs, os, rp, -, -, leases, orders, tbu⟩ := s.atPublication_units raw
  generalize (s.publicationTaken raw).settle s.sq = t at *
  generalize s.atPublication raw = a at *
  have speed : ∀ ch, t.mu.speed.get ch = 
      { s.mu.speed.get ch with resuming := false, lostTimer := (t.mu.speed.get ch).lostTimer } := fun ch => by
    rw [keeps.speed ch, measures.speed]
  have items : a.items = s.items := congrArg Cs.items cs
  have pub := keeps.measured measures.pub items
  have pub' := keeps.measured (s := t) measures.pub ((congrArg Cs.items keeps.cs).symm)
  have low : t.mu.supplyLow = t.supplyIsLow := by
    unfold State.supplyIsLow State.pub State.items
    rw [keeps.mu, keeps.cs]
    exact measures.supplyLow
  have begun : t.mu.begun = true := by rw [keeps.mu]; exact measures.begun
  refine ⟨lost, mismatch, supply, slip, axle, tracking, up, down, keeps.now.trans now, fun ch => ?_, fun ch => ?_, ?_, pub,
    ?_, begun, ?_, ?_, ?_, ?_, fun ch => by rw [speed ch], ?_, ?_, ?_, ?_, ?_, ?_, ?_, ?_, ?_⟩
  · rw [keeps.mu, keeps.now]
    exact measures.conv ch
  · rw [speed ch]
    exact ⟨rfl, rfl⟩
  · rw [keeps.mu]
    exact measures.byWheel
  · unfold State.measured
    rw [if_pos begun]
    exact pub'.symm
  · rw [low, State.supplyIsLow_iff]
  · rw [keeps.tbu, tbu]
    split <;> rfl
  · rw [keeps.tbu, tbu, apply_ite Tbu.debounce]
    exact if_congr Iff.rfl (Timer.follow_eq _ _ _) rfl
  · rw [keeps.tbu, tbu, apply_ite Tbu.breakTimer]
    exact if_congr Iff.rfl (Timer.follow_eq _ _ _) rfl
  · exact fun k other => (keeps.entry k other).trans (by rw [fu])
  · rw [keeps.mask, fu]
  · exact keeps.cs.trans cs
  · exact keeps.inputs.trans inputs
  · exact keeps.leases.trans leases
  · exact (orders.trans keeps.orders).lists
  · exact (orders.trans keeps.orders).body
  · exact fun ch => by rw [← os]; exact keeps.os ch
  · intro p
    have same : a.port p = s.port p := by unfold State.port; rw [rp]
    rw [← same]
    exact keeps.ports p

end Sys2Proof.Machine
end

section
/-! SUPPORT. What the work of the job units does to the Flow Arbiter, request by request and pass by pass, and the marks and
orders as taken that it leaves alone (R60 to R69, R106, R116, R120, R131, R132). -/

namespace Sys2Proof.Machine

variable {s t u : State}

/-! Steps of the Flow Arbiter. -/

/-- One step of the flow outside a change of the supply hold: a grant pass, the end of an entry, a request. -/
inductive FlowStep (now : Time) : Flow → Flow → Prop where
  | pass (f : Flow) (budget : Nat) : FlowStep now f (f.pass budget)
  | endFill (f : Flow) : FlowStep now f { f with fill := .idle, fillSite := none }
  | endAxle (f : Flow) : FlowStep now f { f with axle := .idle }
  | askFill (f : Flow) (units : Nat) (site : Clutch) :
      FlowStep now f { f with fill := f.request now units, fillSite := some site }
  | askAxle (f : Flow) (units : Nat) : FlowStep now f { f with axle := f.request now units }
  | askLift (f : Flow) (asked : Nat) :
      FlowStep now f { f with liftAsked := asked, liftGranted := min f.liftGranted asked }

/-- Steps of the flow one after the other, in one millisecond. -/
def FlowSteps (now : Time) : Flow → Flow → Prop := Relation.ReflTransGen (FlowStep now)

/-- The entry of a class. -/
def Flow.entry (f : Flow) : WaitClass → FlowEntry
  | .fill => f.fill
  | .axle => f.axle

theorem State.entryOf_eq (s : State) (c : WaitClass) : s.entryOf c = s.flow.entry c := by cases c <;> rfl

/-- Each turn of a pass leaves a fill entry, or grants it. -/
theorem Flow.entry_serveFill (f : Flow) (b : Nat) (c : WaitClass) :
    (f.serveFill b).entry c = f.entry c ∨ (f.serveFill b).entry c = (f.entry c).grant := by
  unfold Flow.serveFill
  dsimp only
  cases c <;> split
  · dsimp only [Flow.entry]
    split
    · exact .inr rfl
    · exact .inl rfl
  all_goals exact .inl rfl

theorem Flow.entry_serveAxle (f : Flow) (b : Nat) (c : WaitClass) :
    (f.serveAxle b).entry c = f.entry c ∨ (f.serveAxle b).entry c = (f.entry c).grant := by
  unfold Flow.serveAxle
  dsimp only
  cases c <;> split
  case axle.isTrue =>
    dsimp only [Flow.entry]
    split
    · exact .inr rfl
    · exact .inl rfl
  all_goals exact .inl rfl

theorem Flow.entry_serveLift (f : Flow) (b : Nat) (c : WaitClass) : (f.serveLift b).entry c = f.entry c := by
  unfold Flow.serveLift
  split
  · rfl
  · cases c <;> rfl

/-- A pass grants an entry or leaves it; under the supply hold it leaves every entry (R65, R69). -/
theorem Flow.entry_pass (f : Flow) (b : Nat) (c : WaitClass) :
    (f.pass b).entry c = f.entry c ∨ f.hold = false ∧ (f.pass b).entry c = (f.entry c).grant := by
  unfold Flow.pass
  dsimp only
  rw [Flow.entry_serveLift]
  cases held : f.hold
  · have twice : ∀ e : FlowEntry, e.grant.grant = e.grant := fun _ => rfl
    simp only [Bool.false_eq_true, if_false, true_and]
    rcases (f.serveFill b).entry_serveAxle b c with eq | eq <;>
      rcases f.entry_serveFill b c with eq' | eq' <;> simp [eq, eq', twice]
  · exact .inl (by simp)

/-- A waiting entry that has waited since before: its wait is that of this millisecond, or it stands under the hold. -/
def Flow.Fresh (now : Time) (c : WaitClass) (f : Flow) : Prop :=
  (f.entry c).state = .waiting → (f.entry c).wait = some now ∨ f.hold = true

/-- Under the hold no wait timer runs, and an entry that was not granted is not. -/
structure Flow.Held (c : WaitClass) (was is : Flow) : Prop where
  hold : is.hold = true
  wait : (was.entry c).wait = none → (is.entry c).wait = none
  granted : (is.entry c).state = .granted → (was.entry c).state = .granted

namespace FlowStep

variable {now : Time} {f g : Flow}

theorem hold (h : FlowStep now f g) : g.hold = f.hold := by
  cases h with
  | pass b => exact f.hold_pass b
  | endFill | endAxle | askFill | askAxle | askLift => rfl

/-- What a step does to an entry: nothing, a grant outside the hold, its end, or a new request. -/
theorem entry (h : FlowStep now f g) (c : WaitClass) :
    g.entry c = f.entry c ∨ f.hold = false ∧ g.entry c = (f.entry c).grant ∨ g.entry c = .idle ∨
      ∃ units, g.entry c = f.request now units := by
  cases h with
  | pass b => exact (f.entry_pass b c).imp_right .inl
  | endFill | endAxle =>
    cases c
    all_goals simp [Flow.entry]
  | askFill n site =>
    cases c
    · exact .inr (.inr (.inr ⟨n, rfl⟩))
    · exact .inl rfl
  | askAxle n =>
    cases c
    · exact .inl rfl
    · exact .inr (.inr (.inr ⟨n, rfl⟩))
  | askLift n => cases c <;> exact .inl rfl

theorem fresh (h : FlowStep now f g) {c : WaitClass} (was : f.Fresh now c) : g.Fresh now c := by
  intro waiting
  rw [h.hold]
  rcases h.entry c with same | ⟨-, granted⟩ | ended | ⟨n, asked⟩
  · rw [same] at waiting ⊢
    exact was waiting
  · rw [granted] at waiting
    cases waiting
  · rw [ended] at waiting
    cases waiting
  · rw [asked]
    unfold Flow.request
    cases f.hold <;> simp

theorem held (h : FlowStep now f g) {c : WaitClass} {was : Flow} (before : Flow.Held c was f) : Flow.Held c was g := by
  obtain ⟨hold, wait, granted⟩ := before
  refine ⟨h.hold.trans hold, fun unwaited => ?_, fun isGranted => ?_⟩
  · rcases h.entry c with same | ⟨open', -⟩ | ended | ⟨n, asked⟩
    · rw [same]; exact wait unwaited
    · rw [hold] at open'; cases open'
    · rw [ended]; rfl
    · rw [asked]; unfold Flow.request; rw [hold]; rfl
  · rcases h.entry c with same | ⟨open', -⟩ | ended | ⟨n, asked⟩
    · rw [same] at isGranted; exact granted isGranted
    · rw [hold] at open'; cases open'
    · rw [ended] at isGranted; cases isGranted
    · rw [asked] at isGranted; cases isGranted

end FlowStep

namespace FlowSteps

variable {now : Time} {f g : Flow}

theorem hold (h : FlowSteps now f g) : g.hold = f.hold := by
  induction h with
  | refl => rfl
  | tail _ step ih => exact step.hold.trans ih

theorem fresh (h : FlowSteps now f g) {c : WaitClass} (was : f.Fresh now c) : g.Fresh now c := by
  induction h with
  | refl => exact was
  | tail _ step ih => exact step.fresh ih

theorem held (h : FlowSteps now f g) {c : WaitClass} {was : Flow} (before : Flow.Held c was f) : Flow.Held c was g := by
  induction h with
  | refl => exact before
  | tail _ step ih => exact step.held ih

end FlowSteps

/-! Work of the job units. -/

/-- What the axle's work leaves alone: the order as taken, the slip latch, the fault marks. -/
def Acu.signs (a : Acu) : Option Taken × Bool × Bool × Bool := (a.taken, a.latch, a.openMark, a.shortMark)

/-- What the hitch's work leaves alone: the order as taken, the fault marks. -/
def Hr.signs (h : Hr) : Option Taken × Bool × Bool × Bool := (h.taken, h.stallMark, h.openMark, h.shortMark)

/-- Work of the job units: the flow goes by its steps, and the signs stand. -/
structure Works (s t : State) : Prop extends JobOnly s t where
  steps : FlowSteps s.now s.flow t.flow
  acu : t.acu.signs = s.acu.signs
  hr : t.hr.signs = s.hr.signs

namespace Works

theorem refl (s : State) : Works s s := ⟨.refl s, .refl, rfl, rfl⟩

theorem now (h : JobOnly s t) : t.now = s.now := congrArg Lcu.now h.lcu

theorem trans (h : Works s t) (g : Works t u) : Works s u := by
  have steps := g.steps
  rw [now h.toJobOnly] at steps
  exact ⟨h.toJobOnly.trans g.toJobOnly, h.steps.trans steps, g.acu.trans h.acu, g.hr.trans h.hr⟩

theorem ite {c : Prop} [Decidable c] {a b : State} (ha : Works s a) (hb : Works s b) : Works s (if c then a else b) := by
  split
  · exact ha
  · exact hb

theorem setSq (h : Works s t) (q : Sq) : Works s { t with sq := q } := { h with }

theorem setAcu (h : Works s t) (a : Acu) (same : a.signs = t.acu.signs := by rfl) : Works s { t with acu := a } :=
  { h with acu := same.trans h.acu }

theorem setHr (h : Works s t) (r : Hr) (same : r.signs = t.hr.signs := by rfl) : Works s { t with hr := r } :=
  { h with hr := same.trans h.hr }

theorem flow (h : Works s t) {f : Flow} (step : FlowStep t.now t.flow f) : Works s { t with flow := f } := by
  rw [now h.toJobOnly] at step
  exact { h with steps := h.steps.tail step }

theorem sqFillGranted (h : Works s t) : Works s t.sqFillGranted := by
  unfold State.sqFillGranted
  split
  · exact ite (h.setSq _) h
  · exact h

theorem acuAxleGranted (h : Works s t) : Works s t.acuAxleGranted := ite (h.setAcu _) h

theorem hrSync (h : Works s t) : Works s t.hrSync :=
  h.setHr _ (by
    unfold Hr.followStall
    split <;> split <;> rfl)

theorem grantPass (h : Works s t) : Works s t.grantPass := by
  have h1 := h.flow (.pass t.flow (flowBudget t.items))
  have h2 := ite (c := t.flow.fill.state ≠ .granted ∧ (t.flow.pass (flowBudget t.items)).fill.state = .granted)
    h1.sqFillGranted h1
  have h3 := ite (c := t.flow.axle.state ≠ .granted ∧ (t.flow.pass (flowBudget t.items)).axle.state = .granted)
    h2.acuAxleGranted h2
  exact ite h3 h3.hrSync

theorem releaseFill (h : Works s t) : Works s t.releaseFill := ite h (h.flow (.endFill _)).grantPass

theorem releaseAxle (h : Works s t) : Works s t.releaseAxle := ite h (h.flow (.endAxle _)).grantPass

theorem freeFill (h : Works s t) : Works s t.freeFill := ite h.releaseFill h

theorem freeAxle (h : Works s t) : Works s t.freeAxle := ite h.releaseAxle h

theorem putFill (h : Works s t) (n : Nat) (c : Clutch) : Works s (t.putFill n c) := (h.flow (.askFill _ n c)).grantPass

theorem putAxle (h : Works s t) (n : Nat) : Works s (t.putAxle n) := (h.flow (.askAxle _ n)).grantPass

theorem askFill (h : Works s t) (n : Nat) (c : Clutch) : Works s (t.askFill n c) := h.freeFill.putFill n c

theorem askAxle (h : Works s t) (n : Nat) : Works s (t.askAxle n) := h.freeAxle.putAxle n

theorem askLift (h : Works s t) (n : Nat) : Works s (t.askLift n) := ite h (h.flow (.askLift _ n)).grantPass

/-! The axle and the hitch. -/

theorem acuCoupling (h : Works s t) (c : Coupling) : Works s (t.acuCoupling c) := h.setAcu _

theorem acuEngage (h : Works s t) : Works s t.acuEngage := by
  unfold State.acuEngage
  split
  · exact (h.acuCoupling _).releaseAxle
  · exact (h.setAcu _).releaseAxle
  · exact h.setAcu _
  · exact h
  · exact h

theorem acuRelease (h : Works s t) : Works s t.acuRelease := by
  unfold State.acuRelease
  split
  · exact ite ((h.acuCoupling _).askAxle _) h
  · exact ite (h.acuCoupling _).releaseAxle h
  · exact h
  · exact h
  · exact h

theorem acuFollow (h : Works s t) : Works s t.acuFollow := ite h (ite h.acuRelease h.acuEngage)

theorem acuStarved (h : Works s t) : Works s t.acuStarved := ite (h.acuCoupling _).acuFollow h

theorem hrMove (h : Works s t) (m : Motion) : Works s (t.hrMove m) :=
  ((h.setHr _ (by
    unfold Hr.move
    split
    · split <;> rfl
    · rfl)).askLift _).hrSync

theorem hrRegulate (h : Works s t) : Works s t.hrRegulate := (h.setHr _).hrMove _

theorem hrEnterHold (h : Works s t) : Works s t.hrEnterHold := (h.setHr _).hrMove _

theorem hrWork (h : Works s t) : Works s t.hrWork := ite ((h.setHr _).hrMove _) (h.setHr _).hrRegulate

theorem hrRefresh (h : Works s t) : Works s t.hrRefresh :=
  ite (ite h h.hrEnterHold) (ite (h.setHr _).hrWork (ite ((h.setHr _).hrMove _) h))

/-! The gearbox, as far as a starved FILL request reaches it. -/

theorem hrFreeze (h : Works s t) : Works s t.hrFreeze := h.setHr _

theorem hrUnfreeze (h : Works s t) : Works s t.hrUnfreeze := h.setHr _

theorem clearFlags (h : Works s t) : Works s t.clearFlags := by
  have h1 := ite (c := (t.sq.flags.draftFreeze : Prop)) (h.setSq { t.sq with flags := .clear }).hrUnfreeze
    (h.setSq { t.sq with flags := .clear })
  exact ite h1.acuFollow h1

theorem inchEntry (h : Works s t) : Works s t.inchEntry := by
  unfold State.inchEntry
  split
  · exact ite h (h.setSq _)
  · exact h

theorem abandonHead (h : Works s t) : Works s t.abandonHead := by
  unfold State.abandonHead
  split
  · exact (ite (h.setSq _).releaseFill (h.setSq _)).clearFlags.inchEntry
  · exact h

theorem setQueue (h : Works s t) (l : List GearStep) : Works s (t.setQueue l) := h.setSq _

theorem abandonRebuild (h : Works s t) : Works s t.abandonRebuild := h.abandonHead.setQueue _

theorem rebuild (h : Works s t) : Works s t.rebuild := by
  unfold State.rebuild
  refine ite h ?_
  split
  · exact h.setQueue _
  · refine ite (h.setQueue _) ?_
    split
    · exact ite (h.setQueue _) h.abandonRebuild
    · exact h.abandonRebuild

theorem beginStep (h : Works s t) (st : GearStep) : Works s (t.beginStep st) := by
  unfold State.beginStep
  refine ite (((h.setSq _).setSq _).setSq _) ?_
  have begun := fun x q => ((h.setSq x).setSq q)
  dsimp only
  split
  · exact (ite (begun _ _).hrFreeze (begun _ _)).askFill _ _
  · exact ite (begun _ _).hrFreeze (begun _ _)

theorem startPlain (h : Works s t) : Works s t.startPlain := by
  unfold State.startPlain
  split
  · exact ite (h.beginStep _) h
  · exact h

theorem finishStep (h : Works s t) (c : Bool) : Works s (t.finishStep c) := by
  unfold State.finishStep
  split
  · exact (h.setSq _).clearFlags.inchEntry.rebuild
  · exact h

theorem zeroNeutral (h : Works s t) (st : GearStep) : Works s (t.zeroNeutral st) := ((h.setSq _).setSq _).finishStep _

theorem tryStart (h : Works s t) : Works s t.tryStart := by
  unfold State.tryStart
  split
  · exact ite (ite (h.zeroNeutral _).startPlain (h.beginStep _)) h
  · exact h

theorem replan (h : Works s t) : Works s t.replan := h.rebuild.tryStart

theorem sqStarved (h : Works s t) : Works s t.sqStarved := by
  unfold State.sqStarved
  split
  · exact ite h.abandonHead.replan h
  · exact h

end Works

/-! What the signs decide. -/

/-- Two states with the same configuration, inputs, quantities and latches. -/
structure SameGrounds (s t : State) : Prop where
  cs : t.cs = s.cs
  inputs : t.inputs = s.inputs
  pub : t.pub = s.pub
  entry : t.fu.entry = s.fu.entry

namespace SameGrounds

theorem ofJob (h : JobOnly s t) : SameGrounds s t := ⟨h.cs, h.inputs, congrArg Mu.pub h.mu, congrArg Fu.entry h.fu⟩

theorem ofSettle (h : SettleOnly s t) : SameGrounds s t := ⟨h.cs, h.inputs, h.pub, congrArg Fu.entry h.fu⟩

theorem trans (h : SameGrounds s t) (g : SameGrounds t u) : SameGrounds s u :=
  ⟨g.cs.trans h.cs, g.inputs.trans h.inputs, g.pub.trans h.pub, g.entry.trans h.entry⟩

variable (h : SameGrounds s t)
include h

theorem running : t.running = s.running := by unfold State.running; rw [h.cs]

theorem enable : t.enable = s.enable := by unfold State.enable; rw [h.inputs]

theorem action (k : FaultKind) : t.action k = s.action k := by unfold State.action State.items; rw [h.cs]

theorem latched (k : FaultKind) : t.latched k = s.latched k := by unfold State.latched; rw [h.entry]

theorem supplyDegrade : t.supplyDegrade = s.supplyDegrade := by
  unfold State.supplyDegrade
  rw [h.latched, h.action]

theorem acuDegraded (same : t.acu.signs = s.acu.signs) : t.acuDegraded = s.acuDegraded := by
  simp only [Acu.signs, Prod.mk.injEq] at same
  obtain ⟨-, -, openMark, shortMark⟩ := same
  unfold State.acuDegraded
  rw [h.latched, h.action, openMark, shortMark]

theorem acuWantsReleased (same : t.acu.signs = s.acu.signs) : t.acuWantsReleased = s.acuWantsReleased := by
  have degraded := h.acuDegraded same
  simp only [Acu.signs, Prod.mk.injEq] at same
  obtain ⟨taken, latch, -, -⟩ := same
  unfold State.acuWantsReleased State.acuWishReleased
  rw [degraded, h.enable, h.pub, taken, latch]

theorem hrHold (same : t.hr.signs = s.hr.signs) : t.hrHold = s.hrHold := by
  simp only [Hr.signs, Prod.mk.injEq] at same
  obtain ⟨taken, stallMark, openMark, shortMark⟩ := same
  unfold State.hrHold Hr.holdMode Hr.transport
  rw [h.running, h.enable, h.pub, taken, stallMark, openMark, shortMark]

end SameGrounds

/-! The supply hold, and the units that follow a change of the fault table (R69). -/

/-- The supply hold changes or stands; the work of the pass that follows is of the flow as it then is. -/
theorem State.followHold_works (s : State) :
    Works s s.followHold ∧ s.flow.hold = s.supplyDegrade ∨
    s.supplyDegrade = true ∧
      Works { s with flow := { s.flow with hold := true, fill := s.flow.fill.unwait, axle := s.flow.axle.unwait } }
        s.followHold ∨
    s.supplyDegrade = false ∧
      Works { s with
        flow := { s.flow with hold := false, fill := s.flow.fill.rewait s.now, axle := s.flow.axle.rewait s.now } }
        s.followHold := by
  unfold State.followHold
  dsimp only
  split
  · next same => exact .inl ⟨.refl s, same.symm⟩
  · split
    · next held => exact .inr (.inl ⟨held, (Works.refl _).grantPass⟩)
    · next free => exact .inr (.inr ⟨Bool.eq_false_iff.mpr free, (Works.refl _).grantPass⟩)

theorem State.followHold_signs (s : State) :
    s.followHold.acu.signs = s.acu.signs ∧ s.followHold.hr.signs = s.hr.signs := by
  rcases s.followHold_works with ⟨work, -⟩ | ⟨-, work⟩ | ⟨-, work⟩ <;> exact ⟨work.acu, work.hr⟩

theorem State.unitsFollow_works (s : State) : Works s.followHold s.unitsFollow :=
  .ite (Works.refl _).acuFollow.hrRefresh (Works.refl _).acuFollow

/-- The units' following changes no sign. -/
theorem State.unitsFollow_signs (s : State) :
    s.unitsFollow.acu.signs = s.acu.signs ∧ s.unitsFollow.hr.signs = s.hr.signs := by
  obtain ⟨acu, hr⟩ := s.followHold_signs
  exact ⟨s.unitsFollow_works.acu.trans acu, s.unitsFollow_works.hr.trans hr⟩

/-- The supply hold is that of the fault table once the units have followed it. -/
theorem State.hold_unitsFollow (s : State) : s.unitsFollow.flow.hold = s.supplyDegrade :=
  s.unitsFollow_works.steps.hold.trans s.hold_followHold

theorem FlowEntry.wait_rewait (e : FlowEntry) (now : Time) (waits : (e.rewait now).state = .waiting) :
    (e.rewait now).wait = some now := by
  unfold FlowEntry.rewait at *
  split at waits
  · next waiting => rw [if_pos waiting]
  · next rests => exact absurd waits rests

/-- A wait that the hold does not stop starts with the hold's end, or is new. -/
theorem State.fresh_unitsFollow {c : WaitClass} (was : s.flow.Fresh s.now c) : s.unitsFollow.flow.Fresh s.now c := by
  have followed : s.followHold.flow.Fresh s.now c := by
    rcases s.followHold_works with ⟨work, -⟩ | ⟨-, work⟩ | ⟨-, work⟩
    · exact work.steps.fresh was
    · exact work.steps.fresh fun _ => .inr rfl
    · refine work.steps.fresh fun waiting => .inl ?_
      cases c
      · exact s.flow.fill.wait_rewait s.now waiting
      · exact s.flow.axle.wait_rewait s.now waiting
  have work := s.unitsFollow_works
  have steps := work.steps
  rw [Works.now (JobOnly.refl s).followHold] at steps
  exact steps.fresh followed

/-- Under a new hold no wait timer runs, and nothing is granted that was not. -/
theorem State.held_unitsFollow (degrade : s.supplyDegrade = true) (c : WaitClass) :
    (s.flow.hold = false → (s.unitsFollow.flow.entry c).wait = none) ∧
      ((s.unitsFollow.flow.entry c).state = .granted → (s.flow.entry c).state = .granted) := by
  have steps := s.unitsFollow_works.steps
  rcases s.followHold_works with ⟨work, same⟩ | ⟨-, work⟩ | ⟨free, -⟩
  · have held := steps.held (work.steps.held (c := c) ⟨same.trans degrade, id, id⟩)
    refine ⟨fun open' => ?_, held.granted⟩
    rw [same, degrade] at open'
    cases open'
  · have held := steps.held (work.steps.held (c := c) ⟨rfl, id, id⟩)
    cases c
    all_goals exact ⟨fun _ => held.wait rfl, held.granted⟩
  · rw [degrade] at free
    cases free

/-! The coupling. -/

/-- The coupling stays, or the release that waits begins. -/
def Begins (s t : State) : Prop :=
  t.acu.coupling = s.acu.coupling ∨ s.acu.coupling = .releaseWait ∧ t.acu.coupling = .releasing

theorem Begins.trans (h : Begins s t) (g : Begins t u) : Begins s u := by
  rcases h with same | ⟨waits, begins⟩ <;> rcases g with same' | ⟨waits', begins'⟩
  · exact .inl (same'.trans same)
  · exact .inr ⟨same.symm.trans waits', begins'⟩
  · exact .inr ⟨waits, same'.trans begins⟩
  · rw [begins] at waits'
    cases waits'

/-- What a pass does at the axle: a release that waits begins where its request is granted. -/
theorem State.axle_grantPass (s : State) :
    s.grantPass.sq.flags = s.sq.flags ∧
      (s.grantPass.acu.coupling = s.acu.coupling ∨
        s.acu.coupling = .releaseWait ∧ s.grantPass.acu.coupling = .releasing ∧
          (s.flow.pass (flowBudget s.items)).axle.state = .granted) := by
  have filled : ∀ (c : Prop) [Decidable c] (v : State),
      (if c then v.sqFillGranted else v).sq.flags = v.sq.flags ∧ (if c then v.sqFillGranted else v).acu = v.acu := by
    intro c _ v
    unfold State.sqFillGranted
    repeat' split
    all_goals exact ⟨rfl, rfl⟩
  have told : ∀ (d : Prop) [Decidable d] (v : State),
      (if d then v.acuAxleGranted else v).sq = v.sq ∧
        ((if d then v.acuAxleGranted else v).acu.coupling = v.acu.coupling ∨
          v.acu.coupling = .releaseWait ∧ (if d then v.acuAxleGranted else v).acu.coupling = .releasing ∧ d) := by
    intro d _ v
    unfold State.acuAxleGranted
    split
    · next granted =>
      split
      · next waits => exact ⟨rfl, .inr ⟨waits, rfl, granted⟩⟩
      · exact ⟨rfl, .inl rfl⟩
    · exact ⟨rfl, .inl rfl⟩
  have synced : ∀ (c : Prop) [Decidable c] (v : State),
      (if c then v else v.hrSync).sq = v.sq ∧ (if c then v else v.hrSync).acu = v.acu := by
    intro c _ v
    split <;> exact ⟨rfl, rfl⟩
  unfold State.grantPass
  dsimp only
  obtain ⟨sq, acu⟩ := synced ((s.flow.pass (flowBudget s.items)).liftGranted = s.flow.liftGranted) _
  obtain ⟨sq', coupling⟩ := told
    (s.flow.axle.state ≠ .granted ∧ (s.flow.pass (flowBudget s.items)).axle.state = .granted) _
  obtain ⟨flags, acu'⟩ := filled
    (s.flow.fill.state ≠ .granted ∧ (s.flow.pass (flowBudget s.items)).fill.state = .granted)
    { s with flow := s.flow.pass (flowBudget s.items) }
  rw [acu'] at coupling
  rw [sq, acu, sq', flags]
  exact ⟨rfl, coupling.imp_right fun begins => ⟨begins.1, begins.2.1, begins.2.2.2⟩⟩

/-- What a grant can do at the axle: the release that waits begins; where nothing is asked, nothing. -/
structure Grants (s t : State) : Prop where
  coupling : Begins s t
  idle : s.flow.axle.state = .idle → t.flow.axle.state = .idle ∧ t.acu.coupling = s.acu.coupling
  flags : t.sq.flags = s.sq.flags

namespace Grants

theorem refl (s : State) : Grants s s := ⟨.inl rfl, fun idle => ⟨idle, rfl⟩, rfl⟩

theorem trans (h : Grants s t) (g : Grants t u) : Grants s u where
  coupling := h.coupling.trans g.coupling
  idle := fun idle => by
    obtain ⟨idle', same⟩ := h.idle idle
    obtain ⟨idle'', same'⟩ := g.idle idle'
    exact ⟨idle'', same'.trans same⟩
  flags := g.flags.trans h.flags

theorem ite {c : Prop} [Decidable c] {a b : State} (ha : Grants s a) (hb : Grants s b) : Grants s (if c then a else b) := by
  split
  · exact ha
  · exact hb

theorem frame (acu : t.acu.coupling = s.acu.coupling) (axle : t.flow.axle = s.flow.axle) (sq : t.sq.flags = s.sq.flags) :
    Grants s t := ⟨.inl acu, fun idle => ⟨by rw [axle]; exact idle, acu⟩, sq⟩

theorem grantPass (h : Grants s t) : Grants s t.grantPass := by
  refine h.trans ?_
  obtain ⟨flags, coupling⟩ := t.axle_grantPass
  have rests := Flow.pass_axle_idle t.flow (flowBudget t.items)
  refine ⟨coupling.imp_right fun begins => ⟨begins.1, begins.2.1⟩, fun idle => ?_, flags⟩
  rw [State.flow_grantPass, rests idle]
  refine ⟨idle, ?_⟩
  rcases coupling with same | ⟨-, -, granted⟩
  · exact same
  · rw [rests idle, idle] at granted
    cases granted

theorem hrSync (h : Grants s t) : Grants s t.hrSync := h.trans (.frame rfl rfl rfl)

theorem askLift (h : Grants s t) (n : Nat) : Grants s (t.askLift n) :=
  ite h ((h.trans (frame (t := { t with
    flow := { t.flow with liftAsked := n, liftGranted := min t.flow.liftGranted n } }) rfl rfl rfl)).grantPass)

theorem releaseAxle (h : Grants s t) : Grants s t.releaseAxle :=
  ite h ((h.trans (t := t) (u := { t with flow := { t.flow with axle := .idle } })
    ⟨.inl rfl, fun _ => ⟨rfl, rfl⟩, rfl⟩).grantPass)

/-- A request tells the axle of a grant as any pass does. -/
theorem askAxle (s : State) (n : Nat) : Begins s (s.askAxle n) := by
  have freed : Grants s s.freeAxle := ite (refl s).releaseAxle (refl s)
  have asked : Grants { s.freeAxle with flow := { s.freeAxle.flow with axle := s.freeAxle.flow.request s.freeAxle.now n } }
      (s.askAxle n) := (refl _).grantPass
  exact freed.coupling.trans asked.coupling

theorem setHr (h : Grants s t) (r : Hr) : Grants s { t with hr := r } := h.trans (.frame rfl rfl rfl)

theorem followHold (s : State) : Grants s s.followHold := by
  unfold State.followHold
  dsimp only
  have entry : ∀ f : Flow, f.axle.state = s.flow.axle.state → Grants s { s with flow := f } :=
    fun f same => ⟨.inl rfl, fun idle => ⟨same.trans idle, rfl⟩, rfl⟩
  refine ite (refl s) (ite (grantPass (entry _ ?_)) (grantPass (entry _ ?_)))
  · rfl
  show (s.flow.axle.rewait s.now).state = s.flow.axle.state
  unfold FlowEntry.rewait
  split <;> rfl

theorem hrMove (h : Grants s t) (m : Motion) : Grants s (t.hrMove m) := ((h.setHr _).askLift _).hrSync

theorem hrRegulate (h : Grants s t) : Grants s t.hrRegulate := (h.setHr _).hrMove _

theorem hrEnterHold (h : Grants s t) : Grants s t.hrEnterHold := (h.setHr _).hrMove _

theorem hrWork (h : Grants s t) : Grants s t.hrWork := ite ((h.setHr _).hrMove _) (h.setHr _).hrRegulate

theorem hrRefresh (h : Grants s t) : Grants s t.hrRefresh :=
  ite (ite h h.hrEnterHold) (ite (h.setHr _).hrWork (ite ((h.setHr _).hrMove _) h))

end Grants

/-- A pass with a release outside RELEASE_WAIT tells the axle nothing. -/
theorem State.coupling_releaseAxle (s : State) (other : s.acu.coupling ≠ .releaseWait) :
    s.releaseAxle.acu.coupling = s.acu.coupling := by
  rcases (Grants.refl s).releaseAxle.coupling with same | ⟨waits, -⟩
  · exact same
  · exact absurd waits other

/-- Where an engagement leads from each coupling state (R111). -/
def Coupling.afterEngage (c : Coupling) : Coupling :=
  match c with
  | .engaged | .releaseWait => .engaged
  | .releasing | .released | .engaging => .engaging

theorem State.coupling_acuEngage (s : State) : s.acuEngage.acu.coupling = s.acu.coupling.afterEngage := by
  unfold State.acuEngage Coupling.afterEngage
  cases coupling : s.acu.coupling <;> dsimp only
  case engaged => exact coupling
  case releaseWait => exact State.coupling_releaseAxle _ (by simp)
  case releasing => exact State.coupling_releaseAxle _ (by simp)
  case engaging => exact coupling

/-- Where the coupling engages, it is engaged or engaging, whatever a grant of the event brought before (R111). -/
def Coupling.Engages : Coupling → Coupling → Prop
  | .engaged, c => c = .engaged
  | .releaseWait, c => c = .engaged ∨ c = .engaging
  | .releasing, c | .released, c | .engaging, c => c = .engaging

theorem State.engages_unitsFollow (running : s.running = true) (stays : s.acuWantsReleased = false) :
    s.acu.coupling.Engages s.unitsFollow.acu.coupling := by
  have held := Grants.followHold s
  have works := (JobOnly.refl s).followHold
  have grounds := SameGrounds.ofJob works
  have follow : s.followHold.acuFollow = s.followHold.acuEngage := by
    unfold State.acuFollow
    rw [works.running, running, grounds.acuWantsReleased s.followHold_signs.1, stays]
    rfl
  have engaged := s.followHold.coupling_acuEngage
  have after : s.unitsFollow.acu.coupling = s.followHold.acu.coupling.afterEngage := by
    unfold State.unitsFollow
    dsimp only
    rw [follow, if_pos ((JobOnly.refl _).acuEngage.running.trans (works.running.trans running)), ← engaged]
    rcases (Grants.refl s.followHold.acuEngage).hrRefresh.coupling with same | ⟨waits, -⟩
    · exact same
    · rw [engaged] at waits
      cases coupling : s.followHold.acu.coupling <;> rw [coupling] at waits <;> cases waits
  rw [after]
  rcases held.coupling with same | ⟨waits, begins⟩
  · rw [same]
    cases s.acu.coupling
    all_goals simp [Coupling.Engages, Coupling.afterEngage]
  · rw [waits, begins]
    exact .inr rfl

/-- A coupling that waits for a grant it has no request for any more: engaged where no release may begin. -/
theorem State.coupling_acuFollow_idle (running : s.running = true) (waits : s.acu.coupling = .releaseWait)
    (idle : s.flow.axle.state = .idle) :
    s.acuFollow.flow.axle.state = .idle ∧
      s.acuFollow.acu.coupling =
        if s.acuWantsReleased && !s.sq.flags.releaseDeferral then .releaseWait else .engaged := by
  have engaged : (s.acuCoupling .engaged).releaseAxle.flow.axle.state = .idle ∧
      (s.acuCoupling .engaged).releaseAxle.acu.coupling = .engaged :=
    (Grants.refl _).releaseAxle.idle idle
  unfold State.acuFollow State.acuRelease State.acuEngage
  rw [running, waits]
  cases wants : s.acuWantsReleased <;> cases defers : s.sq.flags.releaseDeferral <;> simp [idle, waits, engaged]

/-- An engaged coupling that may begin a release asks for its fill; else it stays engaged (R109). -/
theorem State.coupling_acuFollow_engaged (engaged : s.acu.coupling = .engaged) :
    let begins : Bool := s.running && s.acuWantsReleased && !s.sq.flags.releaseDeferral
    (begins = false → s.acuFollow.acu.coupling = .engaged) ∧
      (begins = true → s.acuFollow.acu.coupling = .releaseWait ∨ s.acuFollow.acu.coupling = .releasing) := by
  have enable : s.acuWantsReleased = true → s.enable = true := by
    unfold State.acuWantsReleased
    simp
  have asked : ((s.acuCoupling .releaseWait).askAxle (axleFillUnits s.items)).acu.coupling = .releaseWait ∨
      ((s.acuCoupling .releaseWait).askAxle (axleFillUnits s.items)).acu.coupling = .releasing :=
    (Grants.askAxle _ _).imp_right And.right
  unfold State.acuFollow State.acuRelease State.acuEngage
  rw [engaged]
  cases s.running <;> cases wants : s.acuWantsReleased <;> cases s.sq.flags.releaseDeferral <;>
    simp_all

/-! The hitch. -/

/-- What grants to others leave alone at the hitch: all but granted amount, stall timer and working mode. -/
structure HitchWaits (s t : State) : Prop where
  still : t.hr.still = s.hr.still
  hold : t.hr.mode = .hold ↔ s.hr.mode = .hold
  asked : t.flow.liftAsked = s.flow.liftAsked

namespace HitchWaits

theorem refl (s : State) : HitchWaits s s := ⟨rfl, .rfl, rfl⟩

theorem trans (h : HitchWaits s t) (g : HitchWaits t u) : HitchWaits s u :=
  ⟨g.still.trans h.still, g.hold.trans h.hold, g.asked.trans h.asked⟩

theorem ite {c : Prop} [Decidable c] {a b : State} (ha : HitchWaits s a) (hb : HitchWaits s b) :
    HitchWaits s (if c then a else b) := by
  split
  · exact ha
  · exact hb

theorem frame (h : HitchWaits s t) (hr : u.hr = t.hr := by rfl) (asked : u.flow.liftAsked = t.flow.liftAsked := by rfl) :
    HitchWaits s u := h.trans ⟨by rw [hr], by rw [hr], asked⟩

theorem grantPass (h : HitchWaits s t) : HitchWaits s t.grantPass :=
  h.trans ⟨t.still_grantPass, t.hold_grantPass, by rw [State.flow_grantPass, Flow.liftAsked_pass]⟩

theorem releaseAxle (h : HitchWaits s t) : HitchWaits s t.releaseAxle :=
  ite h (h.frame (u := { t with flow := { t.flow with axle := .idle } })).grantPass

theorem askAxle (h : HitchWaits s t) (n : Nat) : HitchWaits s (t.askAxle n) := by
  have freed : HitchWaits s t.freeAxle := ite h.releaseAxle h
  exact (freed.frame (u := { t.freeAxle with
    flow := { t.freeAxle.flow with axle := t.freeAxle.flow.request t.freeAxle.now n } })).grantPass

theorem acuEngage (h : HitchWaits s t) : HitchWaits s t.acuEngage := by
  unfold State.acuEngage
  split
  · exact (h.frame (u := t.acuCoupling .engaged)).releaseAxle
  · exact (h.frame (u := { t with
      acu := { t.acu with coupling := .engaging, fill := none, settle := Timer.begun t.now } })).releaseAxle
  · exact h.frame
  · exact h
  · exact h

theorem acuRelease (h : HitchWaits s t) : HitchWaits s t.acuRelease := by
  unfold State.acuRelease
  split
  · exact ite ((h.frame (u := t.acuCoupling .releaseWait)).askAxle _) h
  · exact ite (h.frame (u := t.acuCoupling .engaged)).releaseAxle h
  · exact h
  · exact h
  · exact h

theorem acuFollow (h : HitchWaits s t) : HitchWaits s t.acuFollow := ite h (ite h.acuRelease h.acuEngage)

theorem followHold (s : State) : HitchWaits s s.followHold := by
  unfold State.followHold
  dsimp only
  have flow : ∀ f : Flow, f.liftAsked = s.flow.liftAsked → HitchWaits s { s with flow := f } := fun f same =>
    (refl s).frame rfl same
  refine ite (refl s) (ite (grantPass (flow _ ?_)) (grantPass (flow _ ?_))) <;> rfl

/-- The supply hold and the coupling follow a change of the fault table before the hitch does. -/
theorem beforeRefresh (s : State) : HitchWaits s s.followHold.acuFollow := (followHold s).acuFollow

end HitchWaits

theorem Hr.of_still {g h : Hr} (same : g.still = h.still) :
    g.motion = h.motion ∧ g.asked = h.asked ∧ g.blocked = h.blocked :=
  ⟨show g.still.motion = h.still.motion by rw [same], show g.still.asked = h.still.asked by rw [same],
    show g.still.blocked = h.still.blocked by rw [same]⟩

/-- A hitch that does not raise has no stall timer and no stall. -/
theorem State.stall_hrSync (idle : s.hrSync.hr.motion ≠ .raise) :
    s.hrSync.hr.stall = none ∧ s.hrSync.hr.stallActive = none := by
  have motion : s.hrSync.hr.motion = s.hr.motion := (Hr.of_still s.still_hrSync).1
  rw [motion] at idle
  unfold State.hrSync Hr.followStall
  dsimp only
  have other : ∀ h : Hr, h.motion = s.hr.motion → ¬ (h.motion = .raise ∧ 0 < h.granted) :=
    fun h same raises => idle (same ▸ raises.1)
  rw [if_neg (other _ (by split <;> rfl))]
  exact ⟨rfl, rfl⟩

/-- What the end of a motion leaves: nothing asked, no stall, the mode of HOLD where it was in force. -/
theorem State.hrMove_idle (s : State) :
    let t := s.hrMove .idle
    t.hr.motion = .idle ∧ t.hr.asked = 0 ∧ t.flow.liftAsked = 0 ∧ t.hr.stall = none ∧ t.hr.stallActive = none ∧
      t.hr.blocked = s.hr.blocked ∧ (s.hr.mode = .hold → t.hr.mode = .hold) := by
  intro t
  obtain ⟨still, asked, -, mode⟩ := s.hrMove_does .idle
  obtain ⟨motion, asks, blocked⟩ := Hr.of_still still
  have idle : t.hr.motion = .idle := motion
  have stalls : t.hr.stall = none ∧ t.hr.stallActive = none :=
    State.stall_hrSync (s := ({ s with
      hr := { s.hr.move s.items s.now (s.pub.position.getD 0) .idle with asked := 0 } } : State).askLift 0)
      (by
        show t.hr.motion ≠ .raise
        rw [idle]
        decide)
  exact ⟨idle, asks, asked, stalls.1, stalls.2, blocked,
    fun held => mode.trans (if_pos held)⟩

/-- Nothing asked is nothing granted, through any pass. -/
theorem Flow.liftGranted_pass {f : Flow} (asked : f.liftAsked = 0) (granted : f.liftGranted = 0) (b : Nat) :
    (f.pass b).liftGranted = 0 := by
  have fill : ∀ f : Flow, f.liftGranted = 0 → (f.serveFill b).liftGranted = 0 := by
    intro f granted
    unfold Flow.serveFill serve
    dsimp only
    split
    · rw [granted, Nat.zero_sub]
    · exact granted
  have axle : ∀ f : Flow, f.liftGranted = 0 → (f.serveAxle b).liftGranted = 0 := by
    intro f granted
    unfold Flow.serveAxle serve
    dsimp only
    split
    · rw [granted, Nat.zero_sub]
    · exact granted
  have served : ∀ f : Flow, f.liftAsked = 0 → f.liftGranted = 0 → (f.serveLift b).liftGranted = 0 := by
    intro f asked granted
    unfold Flow.serveLift
    split
    · exact granted
    · rw [asked, Nat.zero_min]
  have asked' : ((f.serveFill b).serveAxle b).liftAsked = 0 := by
    unfold Flow.serveFill Flow.serveAxle
    repeat' split
    all_goals exact asked
  unfold Flow.pass
  dsimp only
  split
  · exact served _ asked granted
  · exact served _ asked' (axle _ (fill _ granted))

/-- The end of a raise gives its grant back. -/
theorem State.liftGranted_hrMove (asks : 0 < s.flow.liftAsked) : (s.hrMove .idle).flow.liftGranted = 0 := by
  show (({ s with
    hr := { s.hr.move s.items s.now (s.pub.position.getD 0) .idle with asked := 0 } } : State).askLift 0).flow.liftGranted = 0
  unfold State.askLift
  rw [if_neg (Nat.ne_of_lt asks), State.flow_grantPass]
  exact Flow.liftGranted_pass rfl (Nat.min_zero _) _

/-! The hitch holds, goes on, or ends a raise, as the units follow a change of the fault table. -/

theorem State.unitsFollow_running (running : s.running = true) : s.unitsFollow = s.followHold.acuFollow.hrRefresh :=
  if_pos ((JobOnly.refl s).followHold.acuFollow.running.trans running)

/-- A hitch outside its HOLD row is in RUN. -/
theorem State.running_of_hrHold (works : s.hrHold = false) : s.running = true := by
  unfold State.hrHold at works
  simp only [Bool.or_eq_false_iff, Bool.not_eq_false'] at works
  obtain ⟨⟨⟨⟨⟨⟨⟨running, -⟩, -⟩, -⟩, -⟩, -⟩, -⟩, -⟩ := works
  exact running

theorem State.hrHold_beforeRefresh (s : State) : s.followHold.acuFollow.hrHold = s.hrHold :=
  (SameGrounds.ofJob (JobOnly.refl s).followHold.acuFollow).hrHold
    ((Works.refl s.followHold).acuFollow.hr.trans s.followHold_signs.2)

theorem State.supplyDegrade_beforeRefresh (s : State) : s.followHold.acuFollow.supplyDegrade = s.supplyDegrade :=
  (SameGrounds.ofJob (JobOnly.refl s).followHold.acuFollow).supplyDegrade

theorem State.rests_unitsFollow (running : s.running = true) (holds : s.hrHold = true) :
    let t := s.unitsFollow
    t.hr.mode = .hold ∧ (s.hr.mode ≠ .hold →
      t.hr.motion = .idle ∧ t.hr.asked = 0 ∧ t.flow.liftAsked = 0 ∧ t.hr.stall = none ∧ t.hr.stallActive = none) := by
  have waits := HitchWaits.beforeRefresh s
  have holds' := s.hrHold_beforeRefresh.trans holds
  rw [State.unitsFollow_running running]
  generalize s.followHold.acuFollow = v at waits holds'
  unfold State.hrRefresh
  rw [if_pos holds']
  split
  · next held => exact ⟨held, fun works => absurd (waits.hold.mp held) works⟩
  · obtain ⟨motion, asked, lift, stall, active, -, mode⟩ := ({ v with
      hr := { v.hr with
        mode := .hold, holdPos := v.pub.position, error := 0, clamp := false, blocked := false,
        deviation := none } } : State).hrMove_idle
    exact ⟨mode rfl, fun _ => ⟨motion, asked, lift, stall, active⟩⟩

/-- A hitch outside HOLD takes no notice, unless a raise has to end. -/
theorem State.hrRefresh_works (works : s.hrHold = false) (mode : s.hr.mode ≠ .hold)
    (goes : ¬ (s.hr.motion = .raise ∧ s.supplyDegrade = true)) : s.hrRefresh = s := by
  unfold State.hrRefresh
  rw [works, if_neg Bool.false_ne_true, if_neg mode, if_neg goes]

theorem State.regulates_unitsFollow (works : s.hrHold = false) (mode : s.hr.mode ≠ .hold)
    (goes : s.supplyDegrade = false) : s.unitsFollow = s.followHold.acuFollow := by
  have waits := HitchWaits.beforeRefresh s
  rw [State.unitsFollow_running (State.running_of_hrHold works)]
  refine State.hrRefresh_works (s.hrHold_beforeRefresh.trans works) (mt waits.hold.mp mode) fun ends => ?_
  rw [State.supplyDegrade_beforeRefresh, goes] at ends
  exact Bool.false_ne_true ends.2

theorem State.blocks_unitsFollow (works : s.hrHold = false) (mode : s.hr.mode ≠ .hold) (raises : s.hr.motion = .raise)
    (degrade : s.supplyDegrade = true) :
    let t := s.unitsFollow
    t.hr.motion = .idle ∧ t.hr.asked = 0 ∧ t.flow.liftAsked = 0 ∧ t.hr.blocked = true ∧
      (0 < s.flow.liftAsked → t.flow.liftGranted = 0) := by
  have waits := HitchWaits.beforeRefresh s
  have works' := s.hrHold_beforeRefresh.trans works
  have degrade' := s.supplyDegrade_beforeRefresh.trans degrade
  rw [State.unitsFollow_running (State.running_of_hrHold works)]
  generalize s.followHold.acuFollow = v at waits works' degrade'
  have raises' : v.hr.motion = .raise := (Hr.of_still waits.still).1.trans raises
  unfold State.hrRefresh
  rw [works', if_neg Bool.false_ne_true, if_neg (mt waits.hold.mp mode), if_pos ⟨raises', degrade'⟩]
  obtain ⟨motion, asked, lift, -, -, blocked, -⟩ := ({ v with hr := { v.hr with blocked := true } } : State).hrMove_idle
  refine ⟨motion, asked, lift, blocked, fun asks => ?_⟩
  refine State.liftGranted_hrMove (s := { v with hr := { v.hr with blocked := true } }) ?_
  show 0 < v.flow.liftAsked
  rw [waits.asked]
  exact asks

/-! A coupling that has nothing to follow. -/

/-- The coupling stands as it should: in CONFIG always; in RUN by wanted state, deferral flag and ENABLE. -/
def State.couplingStands (s : State) : Prop :=
  s.running = true →
    if s.acuWantsReleased then
      match s.acu.coupling with
      | .engaged => (s.enable && !s.sq.flags.releaseDeferral) = false
      | .releaseWait => s.sq.flags.releaseDeferral = false
      | .releasing | .released | .engaging => True
    else s.acu.coupling = .engaged ∨ s.acu.coupling = .engaging

theorem State.acuFollow_of_stands (stands : s.couplingStands) : s.acuFollow = s := by
  unfold State.couplingStands at stands
  unfold State.acuFollow State.acuRelease State.acuEngage
  cases running : s.running
  · rfl
  · specialize stands running
    cases wants : s.acuWantsReleased <;> cases coupling : s.acu.coupling <;> simp_all

theorem State.stands_of_acuFollow (same : s.acuFollow = s) : s.couplingStands := by
  intro running
  have coupled : s.acuFollow.acu.coupling = s.acu.coupling := by rw [same]
  cases wants : s.acuWantsReleased
  · have engaged := s.coupling_acuEngage
    unfold State.acuFollow at coupled
    simp only [running, wants, Bool.not_true, Bool.false_eq_true, if_false] at coupled ⊢
    rw [coupled] at engaged
    revert engaged
    cases s.acu.coupling <;> simp [Coupling.afterEngage]
  · rw [if_pos rfl]
    cases coupling : s.acu.coupling <;> dsimp only
    case engaged =>
      obtain ⟨-, begins⟩ := s.coupling_acuFollow_engaged coupling
      rw [coupled, coupling] at begins
      cases defers : s.sq.flags.releaseDeferral
      · rw [running, wants, defers] at begins
        rcases begins rfl with h | h <;> cases h
      · simp
    case releaseWait =>
      cases defers : s.sq.flags.releaseDeferral
      · rfl
      · have engaged := (s.acuCoupling .engaged).coupling_releaseAxle (by simp)
        unfold State.acuFollow State.acuRelease at coupled
        simp [running, wants, coupling, defers, engaged] at coupled

/-! A change of the fault table, the units that follow it, and the end of its event. -/

/-- The conditions of the fault table are brought up to date at its end (R162). -/
theorem State.conditionsFollow_of (h : SettleOnly s.fuConditions t) : s.conditionsFollow t := by
  refine ⟨?_, ?_, ?_⟩
  · rw [h.safeCondition, h.fu]
    rfl
  · unfold State.latched
    rw [h.fu]
    rfl
  · rw [h.fu]
    rfl

/-- What the units' following and the end of the event leave of a state with its fault table and marks changed. -/
structure Followed (s t : State) : Prop extends SameGrounds s t where
  now : t.now = s.now
  leases : t.lcu.leases = s.lcu.leases
  flow : t.flow = s.unitsFollow.flow
  hitch : t.hr = s.unitsFollow.hr
  coupling : t.acu.coupling = s.unitsFollow.acu.coupling
  record : t.fu.record = s.fu.record
  mask : t.fu.mask = s.fu.mask
  marks : t.fu.clutchOpen = s.fu.clutchOpen ∧ t.fu.clutchShort = s.fu.clutchShort
  conditions : s.conditionsFollow t
  speed : ∀ ch, ∃ timer, t.mu.speed.get ch = { s.mu.speed.get ch with lostTimer := timer }
  conv : t.mu.conv = s.mu.conv
  os : ∀ ch, (t.os.get ch).tripped = (s.os.get ch).tripped
  acu : t.acu.signs = s.acu.signs
  hr : t.hr.signs = s.hr.signs
  tbu : t.tbu.openMark = s.tbu.openMark ∧ t.tbu.shortMark = s.tbu.shortMark

theorem State.followed (ends : SettleOnly s.unitsFollow.fuConditions t) : Followed s t := by
  have work := (JobOnly.refl s).unitsFollow
  obtain ⟨acu, hr⟩ := s.unitsFollow_signs
  have conditions := State.conditionsFollow_of ends
  generalize following : s.unitsFollow = u at ends work acu hr conditions
  have fault : SameGrounds u u.fuConditions := ⟨rfl, rfl, rfl, rfl⟩
  have fu : t.fu = u.fuConditions.fu := ends.fu
  exact {
    toSameGrounds := ((SameGrounds.ofJob work).trans fault).trans (.ofSettle ends)
    now := ends.now.trans (congrArg Lcu.now work.lcu :)
    leases := ends.leases.trans (congrArg Lcu.leases work.lcu :)
    flow := ends.flow.trans (congrArg State.flow following.symm :)
    hitch := ends.hr.trans (congrArg State.hr following.symm :)
    coupling := (congrArg Acu.coupling ends.acu).trans (congrArg (fun v : State => v.acu.coupling) following.symm :)
    record := (congrArg Fu.record fu).trans (congrArg Fu.record work.fu :)
    mask := (congrArg Fu.mask fu).trans (congrArg Fu.mask work.fu :)
    marks := ⟨(congrArg Fu.clutchOpen fu).trans (congrArg Fu.clutchOpen work.fu :),
      (congrArg Fu.clutchShort fu).trans (congrArg Fu.clutchShort work.fu :)⟩
    conditions := by
      unfold State.conditionsFollow at conditions ⊢
      rwa [work.fu] at conditions
    speed := fun ch => ⟨_, (ends.speed ch).trans (congrArg (fun m : Mu =>
      ({ m.speed.get ch with lostTimer := (t.mu.speed.get ch).lostTimer } : SpeedRec)) work.mu :)⟩
    conv := (congrArg Mu.conv ends.mu).trans (congrArg Mu.conv work.mu :)
    os := fun ch => (congrArg OutRec.tripped (ends.os ch)).trans
      (congrArg (fun o : ByOut OutRec => (o.get ch).tripped) work.os :)
    acu := (congrArg Acu.signs ends.acu).trans acu
    hr := (congrArg Hr.signs ends.hr).trans hr
    tbu := ⟨(congrArg Tbu.openMark ends.tbu).trans (congrArg Tbu.openMark work.tbu :),
      (congrArg Tbu.shortMark ends.tbu).trans (congrArg Tbu.shortMark work.tbu :)⟩ }

/-- The supply hold is that of the fault table (R69). -/
theorem Followed.hold (h : Followed s t) : t.flow.hold = s.supplyDegrade := by
  rw [h.flow]
  exact s.hold_unitsFollow

theorem Followed.fresh (h : Followed s t) {c : WaitClass} (was : s.flow.Fresh s.now c) : t.flow.Fresh s.now c := by
  rw [h.flow]
  exact s.fresh_unitsFollow was

end Sys2Proof.Machine
end

section
/-! SUPPORT and O34. CLEAR_FAULT: what an unlatch undoes, and what follows it (R69, R159, R162, R163, R166). -/

namespace Sys2Proof.Machine

variable {s t u : State}

/-! ACTIVE (R159). -/

/-- A kind is ACTIVE as its unit words the test. -/
def State.ActiveBy (s : State) (k : FaultKind) : Prop :=
  match k with
  | .outOpen => ∃ ch, s.LoadOpen ch
  | .outShort | .flowStarved | .syncTimeout => False
  | .sensorRange => ∃ ch, (s.mu.conv.get ch).window = .outOfRange ∧ (s.mu.conv.get ch).inside = false
  | .speedLost => ∃ ch, s.SilentWhileMoving ch
  | .speedMismatch => s.SpeedsDisagree
  | .clutchHot => ∃ c, (s.sq.clutch.get c).hot = true
  | .gearSlip => s.DrivenGearSlips
  | .axleMismatch => s.AxlesDisagree
  | .hitchStall => ∃ p, s.hr.stallActive = some p
  | .tbrakeTracking => s.LineMisses
  | .supplyLow => s.mu.supplyLow = true
  | .breakaway => s.inputs.breakaway = true
  | .enableLost => s.inputs.enable = false

theorem State.active_iff (s : State) (k : FaultKind) : s.active k = true ↔ s.ActiveBy k := by
  have outs : ∀ ch, ch ∈ OutCh.all := fun ch => by cases ch <;> decide
  have convs : ∀ ch, ch ∈ ConvCh.all := fun ch => by cases ch <;> decide
  have speeds : ∀ ch, ch ∈ SpeedCh.all := fun ch => by cases ch <;> decide
  have clutches : ∀ c, c ∈ Clutch.all := fun c => by cases c <;> decide
  cases k <;> unfold State.active State.ActiveBy <;> dsimp only
  case outOpen => simp [outs, State.openCondition_iff]
  case sensorRange => simp [State.rangeActive, convs]
  case speedLost => simp [speeds, State.silent_iff]
  case speedMismatch => exact s.disagree_iff
  case clutchHot => simp [clutches]
  case gearSlip => exact s.gearSlips_iff
  case axleMismatch => exact s.acuMismatch_iff
  case hitchStall => exact Option.isSome_iff_exists
  case tbrakeTracking => exact s.tbuMisses_iff
  case enableLost => simp [State.enable]
  all_goals simp

/-- What a port holds is no matter to a test. -/
theorem State.active_rp (s : State) (rp : ByPort PortRec) (k : FaultKind) : ({ s with rp := rp } : State).active k = s.active k := by
  cases k <;> rfl

theorem State.entryWords_rp (s : State) (rp : ByPort PortRec) (k : FaultKind) :
    ({ s with rp := rp } : State).entryWords k = s.entryWords k := by
  unfold State.entryWords
  rw [State.active_rp]
  rfl

/-! An unlatch. -/

/-- The state in which the units follow an unlatch: the entry, the record and the marks are as it leaves them. -/
def State.unmarked (s : State) (k : FaultKind) : State :=
  ({ s with
    fu := { s.fu with
      record := recordAfter s.fu.record k,
      entry := s.fu.entry.set k { s.fu.entry.get k with latched := false } } } : State).unmarkUnits k

/-- What an unlatch leaves alone before the units follow it. -/
theorem State.unmarked_frame (s : State) (k : FaultKind) :
    (s.unmarked k).cs = s.cs ∧ (s.unmarked k).inputs = s.inputs ∧ (s.unmarked k).lcu = s.lcu ∧
      (s.unmarked k).flow = s.flow ∧
      (s.unmarked k).fu.entry = s.fu.entry.set k { s.fu.entry.get k with latched := false } ∧
      (s.unmarked k).fu.safeNeutral = s.fu.safeNeutral ∧ (s.unmarked k).fu.breakaway = s.fu.breakaway ∧
      (s.unmarked k).fu.reports = s.fu.reports ∧ (s.unmarked k).fu.record = recordAfter s.fu.record k ∧
      (s.unmarked k).fu.mask = s.fu.mask ∧ (s.unmarked k).fu.clutchMark k = false := by
  unfold State.unmarked State.unmarkUnits
  cases k <;> exact ⟨rfl, rfl, rfl, rfl, rfl, rfl, rfl, rfl, rfl, rfl, rfl⟩

theorem Fu.clutchMark_congr {f g : Fu} (opens : g.clutchOpen = f.clutchOpen) (shorts : g.clutchShort = f.clutchShort)
    (k : FaultKind) : g.clutchMark k = f.clutchMark k := by
  unfold Fu.clutchMark
  rw [opens, shorts]

theorem recordAfter_eq (r : Option FirstFault) (k : FaultKind) :
    recordAfter r k = if r.any fun f => f.kind = k then none else r := by
  unfold recordAfter
  cases r <;> simp

/-- The marks, the tripped channels and the channels out of range that an unlatch undoes. -/
theorem State.unmarked_marks (s : State) (k : FaultKind) :
    let u := s.unmarked k
    (k = .outOpen → u.acu.openMark = false ∧ u.hr.openMark = false ∧ u.tbu.openMark = false) ∧
      (k = .outShort → u.acu.shortMark = false ∧ u.hr.shortMark = false ∧ u.tbu.shortMark = false ∧
        ∀ ch, (u.os.get ch).tripped = false) ∧
      (k = .hitchStall → u.hr.stallMark = false) ∧
      (k = .speedLost → ∀ ch, (u.mu.speed.get ch).lost = false ∧
        (u.mu.speed.get ch).readsLost = (s.mu.speed.get ch).readsLost) ∧
      (k = .sensorRange → ∀ ch, (u.mu.conv.get ch).window =
          (if (s.mu.conv.get ch).window = .outOfRange then .inWindow else (s.mu.conv.get ch).window) ∧
        (u.mu.conv.get ch).value = (s.mu.conv.get ch).value) := by
  refine ⟨?_, ?_, ?_, ?_, ?_⟩ <;> rintro rfl
  · exact ⟨rfl, rfl, rfl⟩
  · exact ⟨rfl, rfl, rfl, fun ch => congrArg OutRec.tripped (ByOut.get_tabulate _ ch)⟩
  · rfl
  · intro ch
    have channel : ((s.unmarked .speedLost).mu.speed.get ch) = { s.mu.speed.get ch with
        lost := false, resuming := (s.mu.speed.get ch).resuming || (s.mu.speed.get ch).lost } := BySpeed.get_tabulate _ ch
    rw [channel]
    exact ⟨rfl, (Bool.false_or _).trans (Bool.or_comm _ _)⟩
  · intro ch
    have channel : ((s.unmarked .sensorRange).mu.conv.get ch) = if (s.mu.conv.get ch).window = .outOfRange then
        { s.mu.conv.get ch with window := .inWindow, resuming := true } else s.mu.conv.get ch := ByConv.get_tabulate _ ch
    rw [channel]
    unfold ConvRec.value
    split
    · next out => rw [out]; exact ⟨rfl, rfl⟩
    · exact ⟨rfl, rfl⟩

/-- CLEAR_FAULT from CAB, by the entry it names. -/
theorem exec_clearFault (takes : (s.port .cab).takes) (tag kind : Byte) :
    exec (.clearFault .cab tag kind) s =
      .next (((s.risen .cab).runClear tag kind).1.answering .cab ((s.risen .cab).runClear tag kind).2) :=
  congrArg _ (State.cabRequest_takes takes 14 tag _)

/-- A request that clears nothing. -/
theorem exec_clearFault_refused (takes : (s.port .cab).takes) {k : FaultKind} {tag kind : Byte} (named : kindOf kind = some k)
    {r : Result} (refused : s.latched k = false ∧ r = .ok ∨ s.latched k = true ∧ s.active k = true ∧ r = .stillActive) :
    exec (.clearFault .cab tag kind) s =
      .next ((s.risen .cab).answering .cab ⟨14, tag, r, .dormant, .empty, 0, .ofList (s.entryWords k)⟩) := by
  rw [exec_clearFault takes]
  have latched : (s.risen .cab).latched k = s.latched k := rfl
  have active : (s.risen .cab).active k = s.active k := s.active_rp _ k
  have words : (s.risen .cab).entryWords k = s.entryWords k := s.entryWords_rp _ k
  unfold State.runClear
  simp only [named, latched, active, words]
  rcases refused with ⟨free, rfl⟩ | ⟨held, acts, rfl⟩
  · rw [free]
    rfl
  · rw [held, acts]
    rfl

/-- A request that clears its kind. -/
theorem exec_clearFault_clears (takes : (s.port .cab).takes) {k : FaultKind} {tag kind : Byte} (named : kindOf kind = some k)
    (latched : s.latched k = true) (still : s.active k = false) {t : State}
    (cleared : t = ((s.risen .cab).unlatch k).settle (s.risen .cab).sq) :
    exec (.clearFault .cab tag kind) s =
      .next (t.answering .cab ⟨14, tag, .ok, .dormant, .empty, 0, .ofList (t.entryWords k)⟩) := by
  rw [exec_clearFault takes, cleared]
  have latched' : (s.risen .cab).latched k = true := latched
  have still' : (s.risen .cab).active k = false := (s.active_rp _ k).trans still
  unfold State.runClear
  simp only [named, latched', still', Bool.not_true, Bool.false_eq_true, if_false]
  rfl

/-- Settles O34. -/
theorem clearFaultUnlatches : Obligations.ClearFaultUnlatches := by
  refine ⟨fun s k => s.active_iff k, fun tag kind s takes => ?_⟩
  dsimp only
  refine ⟨fun unnamed => ?_, fun k named => ⟨fun free => ?_, fun held acts => ?_, fun held still => ?_⟩⟩
  · rw [exec_clearFault takes]
    unfold State.runClear
    simp only [unnamed]
    rfl
  · exact exec_clearFault_refused takes named (.inl ⟨free, rfl⟩)
  · exact exec_clearFault_refused takes named (.inr ⟨held, acts, rfl⟩)
  · have done := fun t cleared => exec_clearFault_clears (t := t) (tag := tag) takes named held still cleared
    have ends := (SettleOnly.refl ((s.risen .cab).unlatch k)).settle (s.risen .cab).sq
    generalize cleared : ((s.risen .cab).unlatch k).settle (s.risen .cab).sq = t at ends
    obtain ⟨cs, inputs, lcu, flow, entry, safe, breakaway, reports, record, mask, mark⟩ := (s.risen .cab).unmarked_frame k
    obtain ⟨openMarks, shortMarks, stallMark, lost, range⟩ := (s.risen .cab).unmarked_marks k
    have follows : Followed ((s.risen .cab).unmarked k) t := State.followed ends
    generalize (s.risen .cab).unmarked k = m at *
    have entries : ∀ j, t.fu.entry.get j = if j = k then ⟨false, (s.fu.entry.get k).site⟩ else s.fu.entry.get j := by
      intro j
      rw [follows.entry, entry, ByKind.get_set]
      rfl
    have acu := follows.acu
    have hr := follows.hr
    simp only [Acu.signs, Prod.mk.injEq] at acu
    simp only [Hr.signs, Prod.mk.injEq] at hr
    obtain ⟨-, -, acuOpen, acuShort⟩ := acu
    obtain ⟨-, hrStall, hrOpen, hrShort⟩ := hr
    obtain ⟨tbuOpen, tbuShort⟩ := follows.tbu
    have now : m.now = s.now := congrArg Lcu.now lcu
    refine ⟨_, done t cleared.symm, (entries k).trans (if_pos rfl), fun j other => (entries j).trans (if_neg other), ?_,
      ?_, ?_, follows.mask.trans mask, fun open' => ?_, fun short => ?_, fun low => ?_, fun silent ch => ?_, fun out ch => ?_,
      fun stall => ?_, ?_, follows.cs.trans cs, follows.inputs.trans inputs,
      follows.leases.trans (congrArg Lcu.leases lcu), follows.now.trans now⟩
    · exact (Fu.clutchMark_congr follows.marks.1 follows.marks.2 k).trans mark
    · exact (follows.record.trans record).trans (recordAfter_eq _ _)
    · have conditions := follows.conditions
      unfold State.conditionsFollow at conditions
      rw [safe, breakaway, reports] at conditions
      exact conditions
    · obtain ⟨markA, markH, markT⟩ := openMarks open'
      exact ⟨acuOpen.trans markA, hrOpen.trans markH, tbuOpen.trans markT⟩
    · obtain ⟨markA, markH, markT, tripped⟩ := shortMarks short
      exact ⟨acuShort.trans markA, hrShort.trans markH, tbuShort.trans markT, fun ch => (follows.os ch).trans (tripped ch)⟩
    · have free : t.flow.hold = false := by
        rw [follows.hold]
        unfold State.supplyDegrade State.latched
        rw [entry, low, ByKind.get_set_self]
        rfl
      refine ⟨free, fun was c waiting => ?_⟩
      have fresh := follows.fresh (c := c) fun _ => .inr ((congrArg Flow.hold flow).trans was)
      rw [State.entryOf_eq] at waiting ⊢
      rcases fresh waiting with wait | held
      · rw [← now]
        exact wait
      · rw [free] at held
        cases held
    · obtain ⟨timer, channel⟩ := follows.speed ch
      obtain ⟨cleared', reads⟩ := lost silent ch
      refine ⟨(congrArg SpeedRec.lost channel).trans cleared', (congrArg SpeedRec.readsLost channel).trans reads⟩
    · obtain ⟨window, value⟩ := range out ch
      exact ⟨(congrArg (fun v : ByConv ConvRec => (v.get ch).window) follows.conv).trans window,
        (congrArg (fun v : ByConv ConvRec => (v.get ch).value) follows.conv).trans value⟩
    · exact hrStall.trans (stallMark stall)
    · rw [State.port_answering_self]
      have active : (t.answering .cab ⟨14, tag, .ok, .dormant, .empty, 0, .ofList (t.entryWords k)⟩).active k = t.active k :=
        t.active_rp _ k
      have action : t.action k = s.action k := by
        rw [follows.action]
        unfold State.action State.items
        rw [cs]
        rfl
      rw [active]
      unfold State.entryWords
      rw [entries k, if_pos rfl, action]
      rfl

end Sys2Proof.Machine
end

section
/-! SUPPORT and O41. What the detecting unit itself does at its detection (R49, R51, R68, R69, R110, R111, R116, R131, R132, R145,
R151, R153, R154, R161). -/

namespace Sys2Proof.Machine

variable {s t u : State}

/-! A detection, before the units follow it. -/

/-- The state in which the units follow a detection: latch, site, record and marks are set, and it is reported. -/
def State.marked (s : State) (k : FaultKind) (site : Word) : State :=
  (({ s with
      fu := { s.fu with record := s.recordFirst k site, entry := s.fu.entry.set k ⟨true, some site⟩ } } : State).reportFault
    k).markUnits k site

theorem State.detect_eq (s : State) (k : FaultKind) (site : Word) :
    s.detect k site = (s.marked k site).unitsFollow.fuConditions := rfl

/-- A command that detects a fault completes with what the units' following and the end of the event leave. -/
theorem completes_detection {c : Instr} {p : State} {k : FaultKind} {site : Word} {old : Sq} {post : State → Prop}
    (run : exec c s = .next ((p.detect k site).settle old)) (after : ∀ t, Followed (p.marked k site) t → post t) :
    CompletesWith c s post := ⟨_, run, after _ (State.followed ((SettleOnly.refl _).settle old))⟩

/-- What no detection changes before the units follow it. -/
structure MarkOnly (s t : State) : Prop where
  cs : t.cs = s.cs
  inputs : t.inputs = s.inputs
  lcu : t.lcu = s.lcu
  flow : t.flow = s.flow
  sq : t.sq = s.sq
  os : t.os = s.os
  pub : t.pub = s.pub
  conv : t.mu.conv = s.mu.conv
  axle : t.acu.coupling = s.acu.coupling ∧ t.acu.taken = s.acu.taken ∧ t.acu.latch = s.acu.latch
  hitch : t.hr = { s.hr with stallMark := t.hr.stallMark, openMark := t.hr.openMark, shortMark := t.hr.shortMark }

theorem MarkOnly.trans (h : MarkOnly s t) (g : MarkOnly t u) : MarkOnly s u where
  cs := g.cs.trans h.cs
  inputs := g.inputs.trans h.inputs
  lcu := g.lcu.trans h.lcu
  flow := g.flow.trans h.flow
  sq := g.sq.trans h.sq
  os := g.os.trans h.os
  pub := g.pub.trans h.pub
  conv := g.conv.trans h.conv
  axle := ⟨g.axle.1.trans h.axle.1, g.axle.2.1.trans h.axle.2.1, g.axle.2.2.trans h.axle.2.2⟩
  hitch := by rw [g.hitch, h.hitch]

theorem MarkOnly.markUnits (s : State) (k : FaultKind) (site : Word) : MarkOnly s (s.markUnits k site) := by
  unfold State.markUnits
  dsimp only
  repeat' split
  all_goals exact ⟨rfl, rfl, rfl, rfl, rfl, rfl, rfl, rfl, ⟨rfl, rfl, rfl⟩, rfl⟩

/-- The report of a detection, ahead of its marks: entry and causes. -/
theorem State.marked_reported (s : State) (k : FaultKind) (site : Word) :
    ∃ v : State, s.marked k site = v.markUnits k site ∧ MarkOnly s v ∧ v.mu = s.mu ∧ v.acu = s.acu ∧ v.hr = s.hr ∧
      v.tbu = s.tbu ∧ v.fu.entry = s.fu.entry.set k ⟨true, some site⟩ ∧ v.fu.clutchOpen = s.fu.clutchOpen ∧
      v.fu.clutchShort = s.fu.clutchShort := by
  unfold State.marked
  generalize latched : ({ s with
    fu := { s.fu with record := s.recordFirst k site, entry := s.fu.entry.set k ⟨true, some site⟩ } } : State) = a
  have told := (CausesOnly.refl a).reportFault k
  generalize a.reportFault k = v at told
  subst latched
  have pub : v.pub = s.pub := congrArg Mu.pub told.mu
  refine ⟨v, rfl, ⟨told.cs, told.inputs, told.lcu, told.flow, told.sq, told.os, pub, congrArg Mu.conv told.mu, ?_, ?_⟩,
    told.mu, told.acu, told.hr, told.tbu, (congrArg Fu.entry told.fu :), (congrArg Fu.clutchOpen told.fu :),
    (congrArg Fu.clutchShort told.fu :)⟩
  · rw [told.acu]
    exact ⟨rfl, rfl, rfl⟩
  · rw [told.hr]

theorem State.markOnly (s : State) (k : FaultKind) (site : Word) : MarkOnly s (s.marked k site) := by
  obtain ⟨v, eq, only, -⟩ := s.marked_reported k site
  rw [eq]
  exact only.trans (.markUnits v k site)

/-- The entry of a detected kind, and that of every other. -/
theorem State.latched_marked (s : State) (k : FaultKind) (site : Word) (j : FaultKind) :
    (s.marked k site).latched j = if j = k then true else s.latched j := by
  obtain ⟨v, eq, -, -, -, -, -, entry, -, -⟩ := s.marked_reported k site
  unfold State.latched
  rw [eq, (v.markUnits_entry k site).1, entry, ByKind.get_set]
  split <;> rfl

namespace MarkOnly

variable (h : MarkOnly s t)
include h

theorem running : t.running = s.running := by unfold State.running; rw [h.cs]

theorem enable : t.enable = s.enable := by unfold State.enable; rw [h.inputs]

theorem items : t.items = s.items := by unfold State.items; rw [h.cs]

theorem action (k : FaultKind) : t.action k = s.action k := by unfold State.action; rw [h.items]

theorem now : t.now = s.now := congrArg Lcu.now h.lcu

end MarkOnly

theorem State.supplyDegrade_marked (s : State) {k : FaultKind} (other : k ≠ .supplyLow) (site : Word) :
    (s.marked k site).supplyDegrade = s.supplyDegrade := by
  unfold State.supplyDegrade
  rw [State.latched_marked, if_neg (Ne.symm other), (s.markOnly k site).action]

/-! The kinds whose detection sets no mark. -/

/-- A kind whose detection sets no mark of a unit. -/
def SetsNoMark : FaultKind → Prop
  | .speedLost | .outOpen | .outShort | .hitchStall => False
  | _ => True

theorem State.markUnits_unmarked {k : FaultKind} (none : SetsNoMark k) (s : State) (site : Word) : s.markUnits k site = s := by
  cases k
  case speedLost | outOpen | outShort | hitchStall => exact none.elim
  all_goals rfl

/-- Such a detection leaves the units as they are, before they follow it. -/
theorem State.marked_unmarked {k : FaultKind} (none : SetsNoMark k) (s : State) (site : Word) :
    (s.marked k site).mu = s.mu ∧ (s.marked k site).acu = s.acu ∧ (s.marked k site).hr = s.hr := by
  obtain ⟨v, eq, -, mu, acu, hr, -⟩ := s.marked_reported k site
  rw [eq, State.markUnits_unmarked none]
  exact ⟨mu, acu, hr⟩

/-! Converter and speed channels, tripped channels. -/

theorem windowTimerExpiry_acts {ch : ConvCh} (due : s.windowDue ch = true) :
    CompletesWith (.windowTimerExpiry ch) s fun t =>
      (t.mu.conv.get ch).window = .outOfRange ∧ ∀ c, c ≠ ch → t.mu.conv.get c = s.mu.conv.get c := by
  refine completes_detection (congrArg Host.Outcome.next (State.expire_due due _)) fun t follows => ?_
  have conv := follows.conv.trans (State.markOnly _ _ _).conv
  dsimp only at conv
  rw [conv, ByConv.get_set_self]
  exact ⟨rfl, fun c other => by rw [ByConv.get_set, if_neg other]⟩

theorem State.markUnits_speedLost (s : State) (ch : SpeedCh) :
    s.markUnits .speedLost (Word.ofNat ch.code) =
      if s.action .speedLost ≠ .advisory then
        { s with mu := { s.mu with speed := s.mu.speed.set ch { s.mu.speed.get ch with lost := true } } }
      else s := by
  unfold State.markUnits
  cases ch <;> simp [SpeedCh.code, SpeedCh.all, Word.ofNat]

/-- A lost timer whose expiry is taken. -/
def State.lostOut (s : State) (ch : SpeedCh) : State :=
  let r := s.mu.speed.get ch
  { s with mu := { s.mu with speed := s.mu.speed.set ch { r with lostTimer := r.lostTimer.runOut } } }

theorem exec_lostTimerExpiry {ch : SpeedCh} (due : (s.mu.speed.get ch).lostTimer.due s.now 1000 = true) :
    exec (.lostTimerExpiry ch) s = .next (((s.lostOut ch).detect .speedLost (Word.ofNat ch.code)).settle s.sq) :=
  congrArg Host.Outcome.next (State.expire_due (due := fun s => (s.mu.speed.get ch).lostTimer.due s.now 1000) due _)

theorem lostTimerExpiry_acts {ch : SpeedCh} (due : (s.mu.speed.get ch).lostTimer.due s.now 1000 = true) :
    CompletesWith (.lostTimerExpiry ch) s fun t =>
      (t.mu.speed.get ch).lost = ((s.mu.speed.get ch).lost || s.action .speedLost ≠ .advisory) ∧
        ∀ c, (t.mu.speed.get c).timing = (s.mu.speed.get c).timing := by
  refine completes_detection (exec_lostTimerExpiry due) fun t follows => ?_
  have lostOut : ∀ c, ∃ timer, (s.lostOut ch).mu.speed.get c = { s.mu.speed.get c with lostTimer := timer } := by
    intro c
    show ∃ timer, (s.mu.speed.set ch _).get c = _
    by_cases same : c = ch
    · rw [same, BySpeed.get_set_self]
      exact ⟨_, rfl⟩
    · rw [BySpeed.get_set, if_neg same]
      exact ⟨_, rfl⟩
  have action : (s.lostOut ch).action .speedLost = s.action .speedLost := rfl
  obtain ⟨v, eq, only, mu, -⟩ := (s.lostOut ch).marked_reported .speedLost (Word.ofNat ch.code)
  rw [eq, State.markUnits_speedLost, only.action, action] at follows
  have channel : ∀ c, ∃ timer, t.mu.speed.get c = { s.mu.speed.get c with
      lostTimer := timer, lost := (s.mu.speed.get c).lost || decide (c = ch ∧ s.action .speedLost ≠ .advisory) } := by
    intro c
    obtain ⟨timer, channel⟩ := follows.speed c
    obtain ⟨timer', before⟩ := lostOut c
    refine ⟨timer, channel.trans ?_⟩
    by_cases acts : s.action .speedLost ≠ .advisory
    · rw [if_pos acts]
      by_cases same : c = ch
      · subst same
        simp [acts, mu, before]
      · simp [same, mu, before, BySpeed.get_set]
    · rw [if_neg acts, mu, before]
      simp [acts]
  refine ⟨?_, fun c => ?_⟩
  · obtain ⟨timer, channel⟩ := channel ch
    rw [channel]
    simp
  · obtain ⟨timer, channel⟩ := channel c
    rw [channel]

/-! Starved requests (R68, R110). -/

theorem State.entry_idle {c : WaitClass} {now : Time} {f : Flow} (idle : (f.entry c).state = .idle) : f.Fresh now c := by
  intro waiting
  rw [idle] at waiting
  cases waiting

/-- The state with the starved request gone. -/
def State.unasked (s : State) : WaitClass → State
  | .fill => { s with flow := { s.flow with fill := .idle, fillSite := none } }
  | .axle => { s with flow := { s.flow with axle := .idle } }

/-- The site of a starved request. -/
def State.starvedSite (s : State) : WaitClass → Word
  | .fill => siteWord s.flow.fillSite
  | .axle => faSite

theorem State.starve_fill (s : State) :
    s.starve .fill = ((s.unasked .fill).detect .flowStarved (s.starvedSite .fill)).grantPass.sqStarved := rfl

theorem State.starve_axle (s : State) :
    s.starve .axle = ((s.unasked .axle).detect .flowStarved (s.starvedSite .axle)).grantPass.acuStarved := rfl

/-- A starved request's entry ends; the units follow, a pass runs, and the consumer acts. -/
theorem State.starve_works (s : State) (c : WaitClass) :
    Works ((s.unasked c).detect .flowStarved (s.starvedSite c)) (s.starve c) := by
  cases c
  · rw [State.starve_fill]
    exact (Works.refl _).grantPass.sqStarved
  · rw [State.starve_axle]
    exact (Works.refl _).grantPass.acuStarved

theorem flowWaitExpiry_fresh {c : WaitClass} (due : s.starves c = true) :
    CompletesWith (.flowWaitExpiry c) s fun t =>
      (t.entryOf c).state = .waiting → (t.entryOf c).wait = some s.now ∨ t.flow.hold = true := by
  refine ⟨_, congrArg Host.Outcome.next (State.expire_due due _), ?_⟩
  have ends := (SettleOnly.refl (s.starve c)).settle s.sq
  generalize (s.starve c).settle s.sq = t at ends
  have work := s.starve_works c
  have idle : ((s.unasked c).flow.entry c).state = .idle := by cases c <;> rfl
  have now : (s.unasked c).now = s.now := by cases c <;> rfl
  generalize s.unasked c = p at work idle now
  generalize FaultKind.flowStarved = k at work
  generalize s.starvedSite c = site at work
  have only := p.markOnly k site
  have marked : (p.marked k site).flow.Fresh (p.marked k site).now c := by
    rw [only.flow]
    exact State.entry_idle idle
  have detected : (p.detect k site).flow.Fresh s.now c := by
    rw [← now, ← only.now, State.detect_eq]
    generalize p.marked k site = m at marked
    exact State.fresh_unitsFollow marked
  have steps := work.steps
  have now' : (p.detect k site).now = s.now := (congrArg Lcu.now ((DetectOnly.refl p).detect k site).lcu).trans now
  rw [now'] at steps
  have after := steps.fresh detected
  rw [← ends.flow] at after
  dsimp only
  rw [State.entryOf_eq]
  exact after

theorem State.flags_acuFollow (s : State) : s.acuFollow.sq.flags = s.sq.flags := by
  have asked : ∀ (v : State) (n : Nat), (v.askAxle n).sq.flags = v.sq.flags := fun v n =>
    (Grants.refl _).grantPass.flags.trans (Grants.ite (Grants.refl v).releaseAxle (.refl v)).flags
  have engage : s.acuEngage.sq.flags = s.sq.flags := by
    unfold State.acuEngage
    split
    · exact (Grants.refl _).releaseAxle.flags
    · exact (Grants.refl _).releaseAxle.flags
    all_goals rfl
  have release : s.acuRelease.sq.flags = s.sq.flags := by
    unfold State.acuRelease
    split
    · split
      · exact asked _ _
      · rfl
    · split
      · exact (Grants.refl _).releaseAxle.flags
      · rfl
    all_goals rfl
  unfold State.acuFollow
  split
  · rfl
  · split
    · exact release
    · exact engage

/-- The units follow while the coupling waits for a request that is gone. -/
theorem State.coupling_unitsFollow_idle (waits : s.acu.coupling = .releaseWait) (idle : s.flow.axle.state = .idle) :
    let t := s.unitsFollow
    t.flow.axle.state = .idle ∧ t.sq.flags = s.sq.flags ∧
      t.acu.coupling =
        if s.running = false ∨ (s.acuWantsReleased && !s.sq.flags.releaseDeferral) = true then .releaseWait else .engaged := by
  have held := Grants.followHold s
  obtain ⟨idle', waits'⟩ := held.idle idle
  have works := (JobOnly.refl s).followHold
  have wants := (SameGrounds.ofJob works).acuWantsReleased s.followHold_signs.1
  have flags := held.flags
  have follow : s.unitsFollow = if s.running then s.followHold.acuFollow.hrRefresh else s.followHold := by
    unfold State.unitsFollow
    dsimp only
    rw [((JobOnly.refl s.followHold).acuFollow).running, works.running]
    cases running : s.running
    · unfold State.acuFollow
      simp [works.running, running]
    · rfl
  intro t
  have run : t = if s.running then s.followHold.acuFollow.hrRefresh else s.followHold := follow
  have running' := works.running
  clear_value t
  generalize s.followHold = v at *
  cases running : s.running
  · rw [run, running]
    exact ⟨idle', flags, waits'.trans waits⟩
  · obtain ⟨idle'', coupling⟩ := State.coupling_acuFollow_idle (running'.trans running) (waits'.trans waits) idle'
    have flags' := v.flags_acuFollow
    rw [run, running, if_pos rfl]
    generalize v.acuFollow = w at *
    have refreshed := (Grants.refl w).hrRefresh
    obtain ⟨rests, same⟩ := refreshed.idle idle''
    refine ⟨rests, refreshed.flags.trans (flags'.trans flags), same.trans (coupling.trans ?_)⟩
    rw [wants, flags]
    simp

theorem SettleOnly.coupling (h : SettleOnly s t) : t.acu.coupling = s.acu.coupling := (congrArg Acu.coupling h.acu :)

/-- The axle told that its request is gone: a release that may begin asks again (R110). -/
theorem State.coupling_acuStarved (coupling : s.acu.coupling =
      if s.running = false ∨ (s.acuWantsReleased && !s.sq.flags.releaseDeferral) = true then .releaseWait else .engaged) :
    let begins : Bool := s.running && s.acuWantsReleased && !s.sq.flags.releaseDeferral
    (begins = false → s.acuStarved.acu.coupling = .engaged) ∧
      (begins = true → s.acuStarved.acu.coupling = .releaseWait ∨ s.acuStarved.acu.coupling = .releasing) := by
  have again := (s.acuCoupling .engaged).coupling_acuFollow_engaged rfl
  have running : (s.acuCoupling .engaged).running = s.running := rfl
  have wants : (s.acuCoupling .engaged).acuWantsReleased = s.acuWantsReleased := rfl
  have flags : (s.acuCoupling .engaged).sq.flags = s.sq.flags := rfl
  rw [running, wants, flags] at again
  unfold State.acuStarved
  split
  · exact again
  · next rests =>
    rw [coupling] at rests
    split at rests
    · exact absurd rfl rests
    · next stays =>
      rw [coupling, if_neg stays]
      refine ⟨fun _ => rfl, fun begins => absurd (.inr ?_) stays⟩
      rw [Bool.and_assoc, Bool.and_eq_true] at begins
      exact begins.2

theorem flowWaitExpiry_axle (due : s.starves .axle = true) (waits : s.acu.coupling = .releaseWait) :
    CompletesWith (.flowWaitExpiry .axle) s fun t =>
      let begins : Bool := s.running && s.acuWantsReleased && !s.sq.flags.releaseDeferral
      (begins = false → t.acu.coupling = .engaged) ∧
        (begins = true → t.acu.coupling = .releaseWait ∨ t.acu.coupling = .releasing) := by
  refine ⟨_, congrArg Host.Outcome.next (State.expire_due due _), ?_⟩
  have ends := (SettleOnly.refl (s.starve .axle)).settle s.sq
  generalize (s.starve .axle).settle s.sq = t at ends
  have settled := ends.coupling
  rw [State.starve_axle, State.detect_eq] at settled
  have only := (s.unasked .axle).markOnly .flowStarved (s.starvedSite .axle)
  obtain ⟨-, acu, -⟩ := State.marked_unmarked (k := .flowStarved) trivial (s.unasked .axle) (s.starvedSite .axle)
  have mismatch : ((s.unasked .axle).marked .flowStarved (s.starvedSite .axle)).latched .axleMismatch =
      s.latched .axleMismatch := by
    rw [State.latched_marked, if_neg (by decide)]
    rfl
  generalize (s.unasked .axle).marked .flowStarved (s.starvedSite .axle) = m at only acu mismatch settled
  have running : m.running = s.running := only.running
  have wants : m.acuWantsReleased = s.acuWantsReleased := by
    unfold State.acuWantsReleased State.acuWishReleased State.acuDegraded
    rw [mismatch, only.action, only.enable, only.pub, acu]
    rfl
  have flags : m.sq.flags = s.sq.flags := congrArg Sq.flags only.sq
  have idle : m.flow.axle.state = .idle := congrArg (fun f : Flow => f.axle.state) only.flow
  obtain ⟨idle', flags', coupling⟩ := State.coupling_unitsFollow_idle ((congrArg Acu.coupling acu).trans waits) idle
  have grounds := SameGrounds.ofJob (JobOnly.refl m).unitsFollow
  have signs := m.unitsFollow_signs.1
  generalize m.unitsFollow = u at *
  have fault : SameGrounds u u.fuConditions := ⟨rfl, rfl, rfl, rfl⟩
  have pass := Works.grantPass (.refl u.fuConditions)
  have grants := Grants.grantPass (.refl u.fuConditions)
  have all := (grounds.trans fault).trans (.ofJob pass.toJobOnly)
  have coupled := (grants.idle idle').2.trans coupling
  have wants' := (all.acuWantsReleased (pass.acu.trans signs)).trans wants
  have running' := all.running.trans running
  have flags'' := (grants.flags.trans flags').trans flags
  generalize u.fuConditions.grantPass = w at *
  rw [running, wants, flags, ← running', ← wants', ← flags''] at coupled
  have starved := State.coupling_acuStarved coupled
  dsimp only
  rw [settled, ← running', ← wants', ← flags'']
  exact starved

/-! The degraded hold of the axle (R116). -/

/-- A degraded axle engages. -/
theorem Followed.engages (h : Followed s t) (degraded : s.acuDegraded = true) :
    t.acuDegraded = true ∧ t.acuWantsReleased = false ∧
      (s.running = true → s.acu.coupling.Engages t.acu.coupling) := by
  have stays : s.acuWantsReleased = false := by
    unfold State.acuWantsReleased
    rw [degraded]
    simp
  refine ⟨(h.acuDegraded h.acu).trans degraded, (h.acuWantsReleased h.acu).trans stays, fun running => ?_⟩
  rw [h.coupling]
  exact State.engages_unitsFollow running stays

/-- The axle's mismatch timer, its expiry taken. -/
def State.mismatchOut (s : State) : State := { s with acu := { s.acu with mismatch := s.acu.mismatch.runOut } }

theorem exec_axleMismatchTimerExpiry (due : s.acu.mismatch.due s.now 1000 = true) :
    exec .axleMismatchTimerExpiry s = .next ((s.mismatchOut.detect .axleMismatch faSite).settle s.sq) :=
  congrArg Host.Outcome.next (State.expire_due (due := fun s => s.acu.mismatch.due s.now 1000) due _)

theorem axleMismatchTimerExpiry_acts (due : s.acu.mismatch.due s.now 1000 = true) :
    CompletesWith .axleMismatchTimerExpiry s fun t =>
      (s.action .axleMismatch = .degrade → t.acuDegraded = true ∧ t.acuWantsReleased = false ∧
        (s.running = true → s.acu.coupling.Engages t.acu.coupling)) ∧
      (s.action .axleMismatch ≠ .degrade → t.acuDegraded = s.acuDegraded) := by
  refine completes_detection (exec_axleMismatchTimerExpiry due) fun t follows => ?_
  have only := s.mismatchOut.markOnly .axleMismatch faSite
  obtain ⟨-, acu, -⟩ := State.marked_unmarked (k := .axleMismatch) trivial s.mismatchOut faSite
  have latched : (s.mismatchOut.marked .axleMismatch faSite).latched .axleMismatch = true := by
    rw [State.latched_marked, if_pos rfl]
  generalize s.mismatchOut.marked .axleMismatch faSite = m at *
  have action : m.action .axleMismatch = s.action .axleMismatch := only.action _
  have running : m.running = s.running := only.running
  have coupling : m.acu.coupling = s.acu.coupling := (congrArg Acu.coupling acu :)
  have marks : m.acu.openMark = s.acu.openMark ∧ m.acu.shortMark = s.acu.shortMark :=
    ⟨(congrArg Acu.openMark acu :), (congrArg Acu.shortMark acu :)⟩
  refine ⟨fun degrade => ?_, fun other => ?_⟩
  · have degraded : m.acuDegraded = true := by
      unfold State.acuDegraded
      rw [latched, action, degrade]
      rfl
    rw [← running, ← coupling]
    exact follows.engages degraded
  · rw [follows.acuDegraded follows.acu]
    unfold State.acuDegraded
    rw [action, decide_eq_false other, Bool.and_false, Bool.and_false, marks.1, marks.2]

/-! The stalled hitch (R131). -/

/-- What the obligation calls resting: HOLD, with a motion under way ended. -/
def State.restsTo (s t : State) : Prop :=
  t.hr.mode = .hold ∧ (s.hr.mode ≠ .hold → t.hr.motion = .idle ∧ t.hr.asked = 0 ∧ t.flow.liftAsked = 0)

/-- A hitch that has to hold rests, its stall with it. -/
theorem Followed.rests (h : Followed s t) (running : s.running = true) (holds : s.hrHold = true) :
    s.restsTo t ∧ (s.hr.mode ≠ .hold → t.hr.stall = none ∧ t.hr.stallActive = none) := by
  obtain ⟨mode, ended⟩ := State.rests_unitsFollow running holds
  rw [← h.hitch, ← h.flow] at ended
  rw [← h.hitch] at mode
  refine ⟨⟨mode, fun works => ?_⟩, fun works => ?_⟩
  · obtain ⟨motion, asked, lift, -, -⟩ := ended works
    exact ⟨motion, asked, lift⟩
  · obtain ⟨-, -, -, stall, active⟩ := ended works
    exact ⟨stall, active⟩

/-- A hitch that may go on does. -/
theorem Followed.goesOn (h : Followed s t) (works : s.hrHold = false) (mode : s.hr.mode ≠ .hold)
    (goes : s.supplyDegrade = false) : t.hr.motion = s.hr.motion := by
  rw [h.hitch, State.regulates_unitsFollow works mode goes]
  exact (Hr.of_still (HitchWaits.beforeRefresh s).still).1

/-- Where neither hold nor coupling has anything to follow, the hitch that goes on is untouched. -/
theorem Followed.untouched (h : Followed s t) (works : s.hrHold = false) (mode : s.hr.mode ≠ .hold)
    (goes : s.supplyDegrade = false) (free : s.flow.hold = false) (stands : s.couplingStands) : t.hr = s.hr := by
  have held : s.followHold = s := by
    unfold State.followHold
    dsimp only
    rw [goes, free, if_pos rfl]
  rw [h.hitch, State.regulates_unitsFollow works mode goes, held, State.acuFollow_of_stands stands]

/-- The stall timer, its expiry taken. -/
def State.stallOut (s : State) : State := { s with hr := s.hr.stallOut (s.pub.position.getD 0) }

theorem exec_stallTimerExpiry (due : s.hr.stallTimer.due s.now 2000 = true) :
    exec .stallTimerExpiry s = .next ((s.stallOut.detect .hitchStall hitchRaiseSite).settle s.sq) :=
  congrArg Host.Outcome.next (State.expire_due (due := fun s => s.hr.stallTimer.due s.now 2000) due _)

/-- The detection of a stall: what it marks. -/
theorem State.marked_hitchStall (s : State) (site : Word) :
    (s.marked .hitchStall site).hr =
        { s.hr with stallMark := s.hr.stallMark || decide (s.action .hitchStall = .degrade) } ∧
      (s.marked .hitchStall site).acu = s.acu := by
  obtain ⟨v, eq, only, -, acu, hr, -⟩ := s.marked_reported .hitchStall site
  rw [eq]
  unfold State.markUnits
  dsimp only
  rw [only.action]
  split
  · next degrade => exact ⟨by simp [hr, degrade], acu⟩
  · next other => exact ⟨by simp [hr, other], acu⟩

theorem stallTimerExpiry_acts (due : s.hr.stallTimer.due s.now 2000 = true) (running : s.running = true) :
    CompletesWith .stallTimerExpiry s fun t =>
      (s.action .hitchStall = .degrade →
        t.hr.stallMark = true ∧ s.restsTo t ∧ (s.hr.mode ≠ .hold → t.hr.stall = none ∧ t.hr.stallActive = none)) ∧
      (s.action .hitchStall ≠ .degrade →
        t.hr.stallMark = s.hr.stallMark ∧
        (s.hrHold = false → s.hr.mode ≠ .hold → s.supplyDegrade = false →
          t.hr.motion = s.hr.motion ∧
          (s.flow.hold = false → s.acuFollow = s →
            t.hr.stallActive = s.pub.position ∧
            t.hr.stall = s.hr.stall.map fun r => { r with run := { r.run with out := true } }))) := by
  refine completes_detection (exec_stallTimerExpiry due) fun t follows => ?_
  have only := s.stallOut.markOnly .hitchStall hitchRaiseSite
  obtain ⟨hr, acu⟩ := s.stallOut.marked_hitchStall hitchRaiseSite
  have supply := s.stallOut.supplyDegrade_marked (k := .hitchStall) (by decide) hitchRaiseSite
  have mismatch : (s.stallOut.marked .hitchStall hitchRaiseSite).latched .axleMismatch = s.latched .axleMismatch := by
    rw [State.latched_marked, if_neg (by decide)]
    rfl
  have action : s.stallOut.action .hitchStall = s.action .hitchStall := rfl
  rw [action] at hr
  generalize s.stallOut.marked .hitchStall hitchRaiseSite = m at *
  have running' : m.running = true := only.running.trans running
  have mark : t.hr.stallMark = (s.hr.stallMark || decide (s.action .hitchStall = .degrade)) :=
    (congrArg (fun x => x.2.1) follows.hr).trans (congrArg Hr.stallMark hr)
  have mode : m.hr.mode = s.hr.mode := (congrArg Hr.mode hr :)
  refine ⟨fun degrade => ?_, fun other => ?_⟩
  · have marked : m.hr.stallMark = true := by rw [hr, degrade]; simp
    have holds : m.hrHold = true := by
      unfold State.hrHold
      rw [marked]
      simp
    obtain ⟨rests, stalls⟩ := follows.rests running' holds
    unfold State.restsTo at rests ⊢
    rw [mode] at rests stalls
    exact ⟨by rw [mark, degrade]; simp, rests, stalls⟩
  · have same : m.hr = s.hr.stallOut (s.pub.position.getD 0) := by
      rw [hr, decide_eq_false other, Bool.or_false]
      rfl
    refine ⟨by rw [mark, decide_eq_false other, Bool.or_false], fun works works' goes => ?_⟩
    have holds : m.hrHold = s.hrHold := by
      unfold State.hrHold Hr.holdMode Hr.transport
      rw [only.running, only.enable, only.pub, same]
      rfl
    have works := holds.trans works
    have works' : m.hr.mode ≠ .hold := by rw [mode]; exact works'
    have goes : m.supplyDegrade = false := supply.trans goes
    refine ⟨(follows.goesOn works works' goes).trans (congrArg Hr.motion same :), fun free stays => ?_⟩
    have stands : m.couplingStands := by
      have wants : m.acuWantsReleased = s.acuWantsReleased := by
        unfold State.acuWantsReleased State.acuWishReleased State.acuDegraded
        rw [mismatch, only.action, only.enable, only.pub, acu]
        rfl
      have stood := State.stands_of_acuFollow stays
      unfold State.couplingStands at stood ⊢
      rw [only.running, wants, only.enable, only.sq, acu]
      exact stood
    rw [follows.untouched works works' goes ((congrArg Flow.hold only.flow).trans free) stands, same]
    have seen : s.pub.position.isNone = false := by
      rw [holds] at works
      unfold State.hrHold at works
      simp only [Bool.or_eq_false_iff] at works
      obtain ⟨⟨⟨-, seen⟩, -⟩, -⟩ := works
      exact seen
    refine ⟨?_, rfl⟩
    show some (s.pub.position.getD 0) = _
    cases position : s.pub.position with
    | none => rw [position] at seen; cases seen
    | some p => rfl

/-! The supply hold (R69). -/

/-- The supply timer, its expiry taken. -/
def State.supplyOut (s : State) : State := { s with mu := { s.mu with supply := s.mu.supply.runOut } }

theorem exec_supplyTimerExpiry (due : s.mu.supply.due s.now 200 = true) :
    exec .supplyTimerExpiry s =
      .next ((s.supplyOut.detect .supplyLow (Word.ofNat ConvCh.supply.code)).settle s.sq) :=
  congrArg Host.Outcome.next (State.expire_due (due := fun s => s.mu.supply.due s.now 200) due _)

/-- The hold begins: no wait runs, nothing new is granted, a raise ends. -/
theorem Followed.holds (h : Followed s t) (degrade : s.supplyDegrade = true) :
    t.flow.hold = true ∧
      (s.flow.hold = false → t.flow.fill.wait = none ∧ t.flow.axle.wait = none) ∧
      (t.flow.fill.state = .granted → s.flow.fill.state = .granted) ∧
      (t.flow.axle.state = .granted → s.flow.axle.state = .granted) ∧
      (s.hrHold = false → s.hr.mode ≠ .hold → s.hr.motion = .raise →
        t.hr.motion = .idle ∧ t.hr.asked = 0 ∧ t.flow.liftAsked = 0 ∧ t.hr.blocked = true ∧
          (0 < s.flow.liftAsked → t.flow.liftGranted = 0)) := by
  have hold : t.flow.hold = true := h.hold.trans degrade
  rw [h.flow] at hold ⊢
  rw [h.hitch]
  obtain ⟨waitFill, grantFill⟩ := State.held_unitsFollow degrade .fill
  obtain ⟨waitAxle, grantAxle⟩ := State.held_unitsFollow degrade .axle
  exact ⟨hold, fun free => ⟨waitFill free, waitAxle free⟩, grantFill, grantAxle, fun works mode raises =>
    State.blocks_unitsFollow works mode raises degrade⟩

theorem supplyTimerExpiry_acts (due : s.mu.supply.due s.now 200 = true) :
    CompletesWith .supplyTimerExpiry s fun t =>
      (s.action .supplyLow = .degrade →
        t.flow.hold = true ∧
        (s.flow.hold = false → t.flow.fill.wait = none ∧ t.flow.axle.wait = none) ∧
        (t.flow.fill.state = .granted → s.flow.fill.state = .granted) ∧
        (t.flow.axle.state = .granted → s.flow.axle.state = .granted) ∧
        (s.hrHold = false → s.hr.mode ≠ .hold → s.hr.motion = .raise →
          t.hr.motion = .idle ∧ t.hr.asked = 0 ∧ t.flow.liftAsked = 0 ∧ t.hr.blocked = true ∧
            (0 < s.flow.liftAsked → t.flow.liftGranted = 0))) ∧
      (s.action .supplyLow ≠ .degrade →
        t.flow.hold = false ∧ (s.hrHold = false → s.hr.mode ≠ .hold → t.hr.motion = s.hr.motion)) := by
  refine completes_detection (exec_supplyTimerExpiry due) fun t follows => ?_
  have only := s.supplyOut.markOnly .supplyLow (Word.ofNat ConvCh.supply.code)
  obtain ⟨-, -, hr⟩ := State.marked_unmarked (k := .supplyLow) trivial s.supplyOut (Word.ofNat ConvCh.supply.code)
  have latched : (s.supplyOut.marked .supplyLow (Word.ofNat ConvCh.supply.code)).latched .supplyLow = true := by
    rw [State.latched_marked, if_pos rfl]
  generalize s.supplyOut.marked .supplyLow (Word.ofNat ConvCh.supply.code) = m at *
  have hr : m.hr = s.hr := hr
  have flow : m.flow = s.flow := only.flow
  have degrades : m.supplyDegrade = decide (s.action .supplyLow = .degrade) := by
    unfold State.supplyDegrade
    rw [latched, only.action, Bool.true_and]
    rfl
  have works : m.hrHold = s.hrHold := by
    unfold State.hrHold
    rw [only.running, only.enable, only.pub, hr]
    rfl
  refine ⟨fun degrade => ?_, fun other => ?_⟩
  · have held := follows.holds (degrades.trans (decide_eq_true degrade))
    rw [flow, hr, works] at held
    exact held
  · have free := degrades.trans (decide_eq_false other)
    refine ⟨follows.hold.trans free, fun works' mode => ?_⟩
    rw [← hr] at mode ⊢
    exact follows.goesOn (works.trans works') mode free

/-! Output channels: open loads and short circuits (R116, R132, R145, R151, R154, R161). -/

/-- What a mark does to the unit of its channel: a marked axle engages, a marked hitch rests. -/
def State.marksTo (s t : State) (ch : OutCh) : Prop :=
  (ch = .oc9 → t.acuWantsReleased = false ∧ (s.running = true → s.acu.coupling.Engages t.acu.coupling)) ∧
    (ch = .oc10 ∨ ch = .oc11 → s.running = true → s.restsTo t)

theorem Followed.marksTo (h : Followed s t) {ch : OutCh}
    (axle : ch = .oc9 → s.acu.openMark = true ∨ s.acu.shortMark = true)
    (hitch : ch = .oc10 ∨ ch = .oc11 → s.hr.openMark = true ∨ s.hr.shortMark = true) : s.marksTo t ch := by
  refine ⟨fun isAxle => ?_, fun isHitch running => ?_⟩
  · have degraded : s.acuDegraded = true := by
      unfold State.acuDegraded
      rcases axle isAxle with mark | mark <;> simp [mark]
    exact (h.engages degraded).2
  · have holds : s.hrHold = true := by
      unfold State.hrHold
      rcases hitch isHitch with mark | mark <;> simp [mark]
    exact (h.rests running holds).1

/-- The marks of an open load, by its channel. -/
theorem State.markUnits_outOpen (s : State) (ch : OutCh) :
    let t := s.markUnits .outOpen (Word.ofNat ch.code)
    let acts : Bool := s.action .outOpen ≠ .advisory
    t.fu.clutchOpen = (s.fu.clutchOpen || (decide (ch.code ≤ 8) && acts)) ∧
      t.acu = { s.acu with openMark := s.acu.openMark || (decide (ch = .oc9) && acts) } ∧
      t.hr = { s.hr with openMark := s.hr.openMark || (decide (ch = .oc10 ∨ ch = .oc11) && acts) } ∧
      t.tbu.openMark = (s.tbu.openMark || decide (ch = .oc12)) := by
  unfold State.markUnits
  by_cases acts : s.action .outOpen = .advisory <;> cases ch <;> simp [acts, OutCh.code, Word.ofNat]

/-- The marks of a short circuit, by its channel. -/
theorem State.markUnits_outShort (s : State) (ch : OutCh) :
    let t := s.markUnits .outShort (Word.ofNat ch.code)
    t.fu.clutchShort =
        (s.fu.clutchShort || (decide (ch.code ≤ 8) && decide (s.action .outShort ≠ .advisory))) ∧
      t.acu = { s.acu with shortMark := s.acu.shortMark || decide (ch = .oc9) } ∧
      t.hr = { s.hr with shortMark := s.hr.shortMark || decide (ch = .oc10 ∨ ch = .oc11) } ∧
      t.tbu.shortMark = (s.tbu.shortMark || decide (ch = .oc12)) := by
  unfold State.markUnits
  by_cases acts : s.action .outShort = .advisory <;> cases ch <;> simp [acts, OutCh.code, Word.ofNat]

/-- The open-load timer of a channel, its expiry taken. -/
def State.openOut (s : State) (ch : OutCh) : State :=
  let r := s.os.get ch
  { s with os := s.os.set ch { r with openTimer := r.openTimer.runOut } }

theorem exec_openLoadTimerExpiry {ch : OutCh} (due : (s.os.get ch).openTimer.due s.now 50 = true) :
    exec (.openLoadTimerExpiry ch) s = .next (((s.openOut ch).detect .outOpen (Word.ofNat ch.code)).settle s.sq) :=
  congrArg Host.Outcome.next (State.expire_due (due := fun s => (s.os.get ch).openTimer.due s.now 50) due _)

theorem State.marked_outOpen (s : State) (ch : OutCh) :
    let t := s.marked .outOpen (Word.ofNat ch.code)
    let acts : Bool := s.action .outOpen ≠ .advisory
    t.fu.clutchOpen = (s.fu.clutchOpen || (decide (ch.code ≤ 8) && acts)) ∧
      t.acu = { s.acu with openMark := s.acu.openMark || (decide (ch = .oc9) && acts) } ∧
      t.hr = { s.hr with openMark := s.hr.openMark || (decide (ch = .oc10 ∨ ch = .oc11) && acts) } ∧
      t.tbu.openMark = (s.tbu.openMark || decide (ch = .oc12)) := by
  obtain ⟨v, eq, only, -, acu, hr, tbu, -, opens, -⟩ := s.marked_reported .outOpen (Word.ofNat ch.code)
  have marks := v.markUnits_outOpen ch
  dsimp only at marks ⊢
  rw [eq]
  rwa [only.action, acu, hr, tbu, opens] at marks

theorem openLoadTimerExpiry_acts {ch : OutCh} (due : (s.os.get ch).openTimer.due s.now 50 = true) :
    CompletesWith (.openLoadTimerExpiry ch) s fun t =>
      let acts : Bool := s.action .outOpen ≠ .advisory
      t.fu.clutchOpen = (s.fu.clutchOpen || (decide (ch.code ≤ 8) && acts)) ∧
      t.acu.openMark = (s.acu.openMark || (decide (ch = .oc9) && acts)) ∧
      t.hr.openMark = (s.hr.openMark || (decide (ch = .oc10 ∨ ch = .oc11) && acts)) ∧
      t.tbu.openMark = (s.tbu.openMark || decide (ch = .oc12)) ∧ (acts = true → s.marksTo t ch) := by
  refine completes_detection (exec_openLoadTimerExpiry due) fun t follows => ?_
  have only := (s.openOut ch).markOnly .outOpen (Word.ofNat ch.code)
  have marks := (s.openOut ch).marked_outOpen ch
  dsimp only at marks ⊢
  generalize (s.openOut ch).marked .outOpen (Word.ofNat ch.code) = m at *
  have action : (s.openOut ch).action .outOpen = s.action .outOpen := rfl
  rw [action] at marks
  obtain ⟨clutches, acu, hr, tbu⟩ := marks
  refine ⟨follows.marks.1.trans clutches,
    (congrArg (fun x => x.2.2.1) follows.acu).trans (congrArg Acu.openMark acu :),
    (congrArg (fun x => x.2.2.1) follows.hr).trans (congrArg Hr.openMark hr :), follows.tbu.1.trans tbu, fun acts => ?_⟩
  have marked := follows.marksTo (ch := ch) (fun axle => .inl (by rw [acu]; simp [axle, acts]))
    (fun hitch => .inl (by rw [hr]; simp [hitch, acts]))
  unfold State.marksTo State.restsTo at marked ⊢
  rw [only.running, acu, hr] at marked
  exact marked

/-- A channel that has tripped. -/
def State.trip (s : State) (ch : OutCh) : State :=
  { s with os := s.os.set ch { s.os.get ch with tripped := true } }

theorem exec_shortCircuitTrip {ch : OutCh} {sample : Word} (drives : s.outState ch = .driving)
    (high : 2400 < sample.toNat) :
    exec (.shortCircuitTrip ch sample) s =
      .next (((s.trip ch).detect .outShort (Word.ofNat ch.code)).settle s.sq) :=
  congrArg Host.Outcome.next (State.event_pos (by simp [drives, high]) _)

theorem State.marked_outShort (s : State) (ch : OutCh) :
    let t := s.marked .outShort (Word.ofNat ch.code)
    t.fu.clutchShort =
        (s.fu.clutchShort || (decide (ch.code ≤ 8) && decide (s.action .outShort ≠ .advisory))) ∧
      t.acu = { s.acu with shortMark := s.acu.shortMark || decide (ch = .oc9) } ∧
      t.hr = { s.hr with shortMark := s.hr.shortMark || decide (ch = .oc10 ∨ ch = .oc11) } ∧
      t.tbu.shortMark = (s.tbu.shortMark || decide (ch = .oc12)) := by
  obtain ⟨v, eq, only, -, acu, hr, tbu, -, -, shorts⟩ := s.marked_reported .outShort (Word.ofNat ch.code)
  have marks := v.markUnits_outShort ch
  dsimp only at marks ⊢
  rw [eq]
  rwa [only.action, acu, hr, tbu, shorts] at marks

theorem shortCircuitTrip_marks {ch : OutCh} {sample : Word} (drives : s.outState ch = .driving)
    (high : 2400 < sample.toNat) :
    CompletesWith (.shortCircuitTrip ch sample) s fun t =>
      t.fu.clutchShort = (s.fu.clutchShort || (decide (ch.code ≤ 8) && decide (s.action .outShort ≠ .advisory))) ∧
      t.acu.shortMark = (s.acu.shortMark || decide (ch = .oc9)) ∧
      t.hr.shortMark = (s.hr.shortMark || decide (ch = .oc10 ∨ ch = .oc11)) ∧
      t.tbu.shortMark = (s.tbu.shortMark || decide (ch = .oc12)) ∧ s.marksTo t ch := by
  refine completes_detection (exec_shortCircuitTrip drives high) fun t follows => ?_
  have only := (s.trip ch).markOnly .outShort (Word.ofNat ch.code)
  have marks := (s.trip ch).marked_outShort ch
  dsimp only at marks ⊢
  generalize (s.trip ch).marked .outShort (Word.ofNat ch.code) = m at *
  have action : (s.trip ch).action .outShort = s.action .outShort := rfl
  rw [action] at marks
  obtain ⟨clutches, acu, hr, tbu⟩ := marks
  refine ⟨follows.marks.2.trans clutches,
    (congrArg (fun x => x.2.2.2) follows.acu).trans (congrArg Acu.shortMark acu :),
    (congrArg (fun x => x.2.2.2) follows.hr).trans (congrArg Hr.shortMark hr :), follows.tbu.2.trans tbu, ?_⟩
  have marked := follows.marksTo (ch := ch) (fun axle => .inr (by rw [acu]; simp [axle]))
    (fun hitch => .inr (by rw [hr]; simp [hitch]))
  unfold State.marksTo State.restsTo at marked ⊢
  rw [only.running, acu, hr] at marked
  exact marked

/-! A tripped channel carries no current, and its open-load timer is discarded (R151, R153, R154). -/

/-- The end of an event discards the open-load timer of a channel that does not drive. -/
theorem State.openTimer_settle (s : State) (old : Sq) {ch : OutCh} (stands : s.outState ch ≠ .driving) :
    ((s.settle old).os.get ch).openTimer = none := by
  have guarded : (s.osGuard.os.get ch).openTimer = none := by
    show ((ByOut.tabulate _ : ByOut OutRec).get ch).openTimer = none
    rw [ByOut.get_tabulate, if_neg stands]
  have reported : (s.osGuard.sqGuard.gearReport old).os = s.osGuard.os := by
    have noted := ClaimOnly.ite (c := s.osGuard.sqGuard.sq.record = old.record) (.refl s.osGuard.sqGuard)
      (.ofCauses ((CausesOnly.refl _).setCauseBoth .gear))
    unfold State.gearReport
    dsimp only
    exact (ClaimOnly.ite noted (noted.sweep _)).os
  unfold State.settle
  generalize s.osGuard.sqGuard.gearReport old = g at reported
  have handed : ((g.followLost.followMismatch.unitGuards.clutchCurrents.handSetpoints).os.get ch).openTimer = none := by
    unfold State.handSetpoints
    rw [← reported] at guarded
    split
    · show ((ByOut.tabulate _ : ByOut OutRec).get ch).openTimer = none
      rw [ByOut.get_tabulate]
      exact guarded
    · exact guarded
  generalize g.followLost.followMismatch.unitGuards.clutchCurrents.handSetpoints = u at handed
  have kept : ClaimOnly u u.keepAll := by
    unfold State.keepAll
    exact .ite (((((ClaimOnly.refl u).writeKeeping _ _).writeKeeping _ _).writeKeeping _ _).writeKeeping _ _) (.refl u)
  rw [kept.os]
  exact handed

theorem State.outState_tripped {ch : OutCh} (tripped : (s.os.get ch).tripped = true) : s.outState ch = .tripped := by
  unfold State.outState
  dsimp only
  rw [if_pos tripped]

theorem shortCircuitTrip_trips {ch : OutCh} {sample : Word} (drives : s.outState ch = .driving)
    (high : 2400 < sample.toNat) :
    CompletesWith (.shortCircuitTrip ch sample) s fun t =>
      t.outState ch = .tripped ∧ t.outputCurrent ch = 0 ∧ (t.os.get ch).openTimer = none ∧
        ∀ c, c ≠ ch → (t.os.get c).tripped = (s.os.get c).tripped := by
  have detected : ((s.trip ch).detect .outShort (Word.ofNat ch.code)).os = s.os.set ch
      { s.os.get ch with tripped := true } := by
    have only := ((s.trip ch).markOnly .outShort (Word.ofNat ch.code)).os
    rw [State.detect_eq]
    generalize (s.trip ch).marked .outShort (Word.ofNat ch.code) = m at only
    exact (JobOnly.refl m).unitsFollow.os.trans only
  refine ⟨_, exec_shortCircuitTrip drives high, ?_⟩
  have ends := (SettleOnly.refl ((s.trip ch).detect .outShort (Word.ofNat ch.code))).settle s.sq
  have timer := ((s.trip ch).detect .outShort (Word.ofNat ch.code)).openTimer_settle s.sq (ch := ch)
  generalize (s.trip ch).detect .outShort (Word.ofNat ch.code) = d at *
  have tripped : (d.os.get ch).tripped = true := by rw [detected, ByOut.get_set_self]
  have after := State.outState_tripped ((congrArg OutRec.tripped (ends.os ch)).trans tripped)
  refine ⟨after, ?_, timer (by rw [State.outState_tripped tripped]; decide), fun c other => ?_⟩
  · unfold State.outputCurrent
    rw [after]
    rfl
  · refine (congrArg OutRec.tripped (ends.os c)).trans ?_
    show (d.os.get c).tripped = _
    rw [detected, ByOut.get_set, if_neg other]

/-- Settles O41. -/
theorem detectingUnitsAct : Obligations.DetectingUnitsAct := by
  refine ⟨⟨fun _ _ due => windowTimerExpiry_acts due, fun _ _ due => lostTimerExpiry_acts due,
    fun _ _ _ drives high => shortCircuitTrip_trips drives high⟩, fun _ _ due => flowWaitExpiry_fresh due,
    fun _ due waits => flowWaitExpiry_axle due waits, ?_⟩
  intro engages rests
  have engages_of : ∀ s t : State, s.acu.coupling.Engages t.acu.coupling → engages s t := by
    intro s t engaged
    dsimp only [engages]
    revert engaged
    cases s.acu.coupling <;> exact id
  refine ⟨fun s due => ?_, fun s due running => stallTimerExpiry_acts due running, fun s due => ?_, ?_⟩
  · obtain ⟨t, run, degrade, other⟩ := axleMismatchTimerExpiry_acts due
    refine ⟨t, run, fun acts => ?_, other⟩
    obtain ⟨degraded, stays, engaged⟩ := degrade acts
    exact ⟨degraded, stays, fun running => engages_of s t (engaged running)⟩
  · obtain ⟨t, run, degrade, other⟩ := supplyTimerExpiry_acts due
    refine ⟨t, run, fun acts => ?_, fun acts => ?_⟩
    · obtain ⟨hold, waits, fill, axle, raises⟩ := degrade acts
      exact ⟨hold, waits, fill, axle, fun _ => raises⟩
    · obtain ⟨free, goes⟩ := other acts
      exact ⟨free, fun _ => goes⟩
  · intro marks
    have marks_of : ∀ (s t : State) (ch : OutCh), s.marksTo t ch → marks s t ch := fun s t ch ⟨axle, hitch⟩ =>
      ⟨fun isAxle => ⟨(axle isAxle).1, fun running => engages_of s t ((axle isAxle).2 running)⟩, hitch⟩
    refine ⟨fun ch s due => ?_, fun ch sample s drives high => ?_⟩
    · obtain ⟨t, run, clutches, acu, hr, tbu, marked⟩ := openLoadTimerExpiry_acts due
      exact ⟨t, run, clutches, acu, hr, tbu, fun acts => marks_of s t ch (marked acts)⟩
    · obtain ⟨t, run, clutches, acu, hr, tbu, marked⟩ := shortCircuitTrip_marks drives high
      exact ⟨t, run, clutches, acu, hr, tbu, marks_of s t ch marked⟩

end Sys2Proof.Machine
end

section
/-! SUPPORT and O51. A grant pass: what it grants, what a request and a release make of it, and what the consumers it tells
of a grant do (R63 to R67, R69, R83, R110). -/

namespace Sys2Proof.Machine

variable {s t u : State}

/-! The flow. -/

/-- The turn of an entry: granted whole where the lift can be cut for it, else the whole lift is cut. -/
theorem serve_eq {asked budget used lift : Nat} (fits : used + lift ≤ budget) :
    serve asked (budget - (used + lift)) lift =
      if asked ≤ budget - used then (true, lift - (asked - (budget - (used + lift)))) else (false, 0) := by
  unfold serve
  dsimp only
  split
  · next room => rw [decide_eq_true (by omega), Nat.min_eq_right (by omega)]
  · next full => rw [decide_eq_false (by omega), Nat.min_eq_left (by omega), Nat.sub_self]

/-- The fill entry's turn. -/
theorem Flow.serveFill_eq {f : Flow} {budget : Nat} (fits : f.granted ≤ budget) (waits : f.fill.state = .waiting) :
    ∃ lift, f.serveFill budget = { f with
        fill := if f.fill.asked ≤ budget - (f.fill.granted + f.axle.granted) then f.fill.grant else f.fill,
        liftGranted := lift } ∧
      (¬ f.fill.asked ≤ budget - (f.fill.granted + f.axle.granted) → lift = 0) := by
  have turn := serve_eq (asked := f.fill.asked) fits
  unfold Flow.serveFill Flow.available
  rw [if_pos waits, turn]
  by_cases room : f.fill.asked ≤ budget - (f.fill.granted + f.axle.granted)
  · refine ⟨f.liftGranted - (f.fill.asked - (budget - (f.fill.granted + f.axle.granted + f.liftGranted))), ?_,
      fun full => absurd room full⟩
    simp only [if_pos room, if_true]
  · exact ⟨0, by simp [if_neg room], fun _ => rfl⟩

/-- The axle entry's turn, behind no FILL that waits. -/
theorem Flow.serveAxle_eq {f : Flow} {budget : Nat} (fits : f.granted ≤ budget) (free : f.fill.state ≠ .waiting)
    (waits : f.axle.state = .waiting) :
    ∃ lift, f.serveAxle budget = { f with
        axle := if f.axle.asked ≤ budget - (f.fill.granted + f.axle.granted) then f.axle.grant else f.axle,
        liftGranted := lift } ∧
      (¬ f.axle.asked ≤ budget - (f.fill.granted + f.axle.granted) → lift = 0) := by
  have turn := serve_eq (asked := f.axle.asked) fits
  unfold Flow.serveAxle Flow.available
  rw [if_pos ⟨free, waits⟩, turn]
  by_cases room : f.axle.asked ≤ budget - (f.fill.granted + f.axle.granted)
  · refine ⟨f.liftGranted - (f.axle.asked - (budget - (f.fill.granted + f.axle.granted + f.liftGranted))), ?_,
      fun full => absurd room full⟩
    simp only [if_pos room, if_true]
  · exact ⟨0, by simp [if_neg room], fun _ => rfl⟩

/-- The lift's turn: what is left, and nothing new while a request waits. -/
theorem Flow.serveLift_eq (f : Flow) (budget : Nat) :
    f.serveLift budget = { f with
      liftGranted := if f.fill.state = .waiting ∨ f.axle.state = .waiting then f.liftGranted
        else min f.liftAsked (budget - (f.fill.granted + f.axle.granted)) } := by
  unfold Flow.serveLift
  split <;> rfl

theorem Flow.pass_held {f : Flow} (hold : f.hold = true) (budget : Nat) : f.pass budget = f.serveLift budget := by
  unfold Flow.pass
  rw [if_pos hold]

theorem Flow.pass_free {f : Flow} (free : f.hold = false) (budget : Nat) :
    f.pass budget = ((f.serveFill budget).serveAxle budget).serveLift budget := by
  unfold Flow.pass
  rw [free, if_neg Bool.false_ne_true]

theorem Flow.serveFill_of_ne {f : Flow} (other : f.fill.state ≠ .waiting) (budget : Nat) : f.serveFill budget = f := by
  unfold Flow.serveFill
  rw [if_neg other]

theorem Flow.serveAxle_of_ne {f : Flow} (other : ¬ (f.fill.state ≠ .waiting ∧ f.axle.state = .waiting)) (budget : Nat) :
    f.serveAxle budget = f := by
  unfold Flow.serveAxle
  rw [if_neg other]

/-- What a pass makes of a flow: each request whole or not at all, then the lift (R65, R66, R69). -/
def Flow.Passed (f : Flow) (budget : Nat) (g : Flow) : Prop :=
  let waits : Prop := g.fill.state = .waiting ∨ g.axle.state = .waiting
  g.fill =
    (if f.fill.state = .waiting ∧ f.hold = false ∧ f.fill.asked ≤ budget - (f.fill.granted + f.axle.granted) then
       f.fill.grant
     else f.fill) ∧
  g.axle =
    (if f.axle.state = .waiting ∧ f.hold = false ∧ g.fill.state ≠ .waiting ∧
        f.axle.asked ≤ budget - (g.fill.granted + f.axle.granted) then
       f.axle.grant
     else f.axle) ∧
  (¬ waits → g.liftGranted = min f.liftAsked (budget - (g.fill.granted + g.axle.granted))) ∧
  (waits → g.liftGranted = if f.hold then f.liftGranted else 0) ∧
  g.liftAsked = f.liftAsked ∧ g.fillSite = f.fillSite ∧ g.hold = f.hold

/-- Under the supply hold only the lift has a turn. -/
theorem Flow.passed_held {f : Flow} (hold : f.hold = true) (budget : Nat) : f.Passed budget (f.pass budget) := by
  rw [Flow.pass_held hold, Flow.serveLift_eq]
  unfold Flow.Passed
  simp only [hold, Bool.true_eq_false, false_and, and_false, if_false, if_true, true_and, and_true]
  exact ⟨fun rests => if_neg rests, fun waits => if_pos waits⟩

/-- Without it, the axle's turn behind the fill's. -/
theorem Flow.passed_free {f : Flow} {budget : Nat} (fits : f.granted ≤ budget) (free : f.hold = false) :
    f.Passed budget (f.pass budget) := by
  rw [Flow.pass_free free]
  have fits' := f.serveFill_fits budget fits
  have fill : ∃ lift, f.serveFill budget = { f with
      fill := if f.fill.state = .waiting ∧ f.fill.asked ≤ budget - (f.fill.granted + f.axle.granted) then f.fill.grant
        else f.fill, liftGranted := lift } ∧ ((f.serveFill budget).fill.state = .waiting → lift = 0) := by
    by_cases waits : f.fill.state = .waiting
    · obtain ⟨lift, turn, cut⟩ := Flow.serveFill_eq fits waits
      refine ⟨lift, by simpa only [waits, true_and] using turn, fun still => cut fun room => ?_⟩
      rw [turn] at still
      simp only [if_pos room, FlowEntry.grant, reduceCtorEq] at still
    · refine ⟨f.liftGranted, ?_, ?_⟩ <;> rw [Flow.serveFill_of_ne waits]
      · simp [waits]
      · exact fun still => absurd still waits
  obtain ⟨lift, turn, cut⟩ := fill
  have axle : ∃ lift', (f.serveFill budget).serveAxle budget = { f.serveFill budget with
      axle := if f.axle.state = .waiting ∧ (f.serveFill budget).fill.state ≠ .waiting ∧
          f.axle.asked ≤ budget - ((f.serveFill budget).fill.granted + f.axle.granted) then f.axle.grant else f.axle,
      liftGranted := lift' } ∧
      ((f.serveFill budget).fill.state = .waiting ∨
        ((f.serveFill budget).serveAxle budget).axle.state = .waiting → lift' = 0) := by
    have same : (f.serveFill budget).axle = f.axle := by rw [turn]
    have left : (f.serveFill budget).liftGranted = lift := by rw [turn]
    generalize f.serveFill budget = g at *
    by_cases waits : g.fill.state ≠ .waiting ∧ g.axle.state = .waiting
    · obtain ⟨lift', turn', cut'⟩ := Flow.serveAxle_eq fits' waits.1 waits.2
      rw [same] at waits turn' cut'
      refine ⟨lift', by simpa only [waits.1, waits.2, ne_eq, not_false_eq_true, true_and] using turn', fun still => ?_⟩
      refine cut' fun room => ?_
      rcases still with fills | axles
      · exact waits.1 fills
      · rw [turn'] at axles
        simp only [if_pos room, FlowEntry.grant, reduceCtorEq] at axles
    · rw [Flow.serveAxle_of_ne waits]
      rw [same] at waits
      refine ⟨lift, ?_, fun still => cut ?_⟩
      · rw [if_neg fun ⟨axles, fills, _⟩ => waits ⟨fills, axles⟩, ← same, ← left]
      · rw [same] at still
        by_contra fills
        exact still.elim fills fun axles => waits ⟨fills, axles⟩
  obtain ⟨lift', turn', cut'⟩ := axle
  unfold Flow.Passed
  rw [Flow.serveLift_eq]
  have filled : ((f.serveFill budget).serveAxle budget).fill = (f.serveFill budget).fill := by rw [turn']
  have asked : ((f.serveFill budget).serveAxle budget).liftAsked = f.liftAsked := by rw [turn', turn]
  have lifts : ((f.serveFill budget).serveAxle budget).liftGranted = lift' := by rw [turn']
  have others : ((f.serveFill budget).serveAxle budget).fillSite = f.fillSite ∧
      ((f.serveFill budget).serveAxle budget).hold = f.hold := by rw [turn', turn]; exact ⟨rfl, rfl⟩
  refine ⟨?_, ?_, ?_, ?_, asked, others.1, others.2⟩
  · dsimp only
    rw [filled, turn]
    simp only [free, true_and]
  · dsimp only
    rw [filled, turn']
    simp only [free, true_and]
  · dsimp only
    intro rests
    rw [if_neg rests, asked]
  · dsimp only
    intro waits
    rw [if_pos waits, free, if_neg Bool.false_ne_true, lifts]
    exact cut' (by rwa [filled] at waits)

theorem Flow.passed {f : Flow} {budget : Nat} (fits : f.granted ≤ budget) : f.Passed budget (f.pass budget) := by
  cases hold : f.hold
  · exact Flow.passed_free fits hold
  · exact Flow.passed_held hold budget

/-! The consumers. -/

/-- The states of clutches that have been put into one. -/
theorem Sq.clutch_enterAll (q : Sq) (cs : List Clutch) (st : ClutchState) (c : Clutch) :
    (q.enterAll cs st).clutch.get c = if c ∈ cs then (q.clutch.get c).enter st else q.clutch.get c := by
  unfold Sq.enterAll
  dsimp only
  generalize q.clutch = b
  induction cs generalizing b with
  | nil => rfl
  | cons d cs ih =>
    have twice : ∀ r : ClutchRec, (r.enter st).enter st = r.enter st := fun _ => rfl
    rw [List.foldl_cons, ih, ByClutch.get_set]
    by_cases same : c = d
    · simp [same, twice]
    · simp [same]

theorem Sq.state_enterAll (q : Sq) (cs : List Clutch) (st : ClutchState) (c : Clutch) :
    (q.enterAll cs st).state c = if c ∈ cs then st else q.state c := by
  unfold Sq.state
  rw [Sq.clutch_enterAll]
  split <;> rfl

/-- What a pass does at the SQ: told of a grant, it goes on in FILL (R83). -/
theorem State.sq_grantPass (s : State) :
    s.grantPass.sq =
      if s.flow.fill.state ≠ .granted ∧ (s.flow.pass (flowBudget s.items)).fill.state = .granted then s.sqFillGranted.sq
      else s.sq := by
  have told : ∀ f : Flow, ({ s with flow := f } : State).sqFillGranted.sq = s.sqFillGranted.sq := by
    intro f
    unfold State.sqFillGranted
    dsimp only
    split
    · split <;> rfl
    · rfl
  have axle : ∀ (c : Prop) [Decidable c] (v : State), (if c then v.acuAxleGranted else v).sq = v.sq := by
    intro c _ v
    unfold State.acuAxleGranted
    split
    · split <;> rfl
    · rfl
  have hitch : ∀ (c : Prop) [Decidable c] (v : State), (if c then v else v.hrSync).sq = v.sq := by
    intro c _ v
    split <;> rfl
  unfold State.grantPass
  dsimp only
  rw [hitch, axle]
  split
  · exact told _
  · rfl

/-- What a pass does at the ACU: told of a grant, it begins the release (R110). -/
theorem State.acu_grantPass (s : State) :
    s.grantPass.acu =
      if s.flow.axle.state ≠ .granted ∧ (s.flow.pass (flowBudget s.items)).axle.state = .granted ∧
          s.acu.coupling = .releaseWait then
        { s.acu with coupling := .releasing, fill := Timer.begun s.now }
      else s.acu := by
  have fill : ∀ (c : Prop) [Decidable c] (v : State),
      (if c then v.sqFillGranted else v).acu = v.acu ∧ (if c then v.sqFillGranted else v).now = v.now := by
    intro c _ v
    unfold State.sqFillGranted
    repeat' split
    all_goals exact ⟨rfl, rfl⟩
  have axle : ∀ v : State, v.acuAxleGranted.acu =
      if v.acu.coupling = .releaseWait then { v.acu with coupling := .releasing, fill := Timer.begun v.now } else v.acu := by
    intro v
    unfold State.acuAxleGranted
    split <;> rfl
  have hitch : ∀ (c : Prop) [Decidable c] (v : State), (if c then v else v.hrSync).acu = v.acu := by
    intro c _ v
    split <;> rfl
  unfold State.grantPass
  dsimp only
  rw [hitch]
  obtain ⟨acu, now⟩ := fill
    (s.flow.fill.state ≠ .granted ∧ (s.flow.pass (flowBudget s.items)).fill.state = .granted)
    { s with flow := s.flow.pass (flowBudget s.items) }
  split
  · next granted =>
    rw [axle, acu, now]
    simp only [granted, ne_eq, not_false_eq_true, true_and]
    rfl
  · next rests => rw [acu, if_neg fun ⟨new, granted, _⟩ => rests ⟨new, granted⟩]

/-- A pass that moves the lift grant hands it to the HR (R66). -/
theorem State.granted_grantPass (s : State)
    (moves : (s.flow.pass (flowBudget s.items)).liftGranted ≠ s.flow.liftGranted) :
    s.grantPass.hr.granted = (s.flow.pass (flowBudget s.items)).liftGranted := by
  have told : ∀ (c : Prop) [Decidable c] (f : State → State) (v : State), (∀ w, (f w).flow = w.flow) →
      (if c then f v else v).flow = v.flow := by
    intro c _ f v stays
    split
    · exact stays v
    · rfl
  have synced : ∀ v : State, v.hrSync.hr.granted = v.flow.liftGranted := by
    intro v
    unfold State.hrSync Hr.followStall
    dsimp only
    split <;> split <;> rfl
  unfold State.grantPass
  dsimp only
  rw [if_neg moves, synced, told _ State.acuAxleGranted _ State.flow_acuAxleGranted,
    told _ State.sqFillGranted _ State.flow_sqFillGranted]

/-! Requests and releases, each with its pass (R63, R64, R67). -/

/-- An entry that rests grants nothing in a pass. -/
theorem Flow.fill_pass_of_ne {f : Flow} (other : f.fill.state ≠ .waiting) (budget : Nat) : (f.pass budget).fill = f.fill := by
  have axle : ∀ g : Flow, (g.serveAxle budget).fill = g.fill := fun g => by unfold Flow.serveAxle; split <;> rfl
  unfold Flow.pass
  dsimp only
  rw [Flow.serveLift_eq, Flow.serveFill_of_ne other]
  split
  · rfl
  · exact axle f

theorem Flow.axle_pass_of_ne {f : Flow} (other : f.axle.state ≠ .waiting) (budget : Nat) : (f.pass budget).axle = f.axle := by
  have fill : (f.serveFill budget).axle = f.axle := by unfold Flow.serveFill; split <;> rfl
  unfold Flow.pass
  dsimp only
  rw [Flow.serveLift_eq, Flow.serveAxle_of_ne (by rw [fill]; exact fun ⟨_, waits⟩ => other waits)]
  split
  · rfl
  · exact fill

theorem State.flow_releaseFill (s : State) (asked : s.flow.fill.state ≠ .idle) :
    s.releaseFill.flow = ({ s.flow with fill := .idle, fillSite := none } : Flow).pass (flowBudget s.items) := by
  unfold State.releaseFill
  rw [if_neg asked, State.flow_grantPass]
  rfl

theorem State.releaseFill_idle (idle : s.flow.fill.state = .idle) : s.releaseFill = s := if_pos idle

/-- A release leaves its entry idle. -/
theorem State.fill_releaseFill (s : State) : s.releaseFill.flow.fill.state = .idle := by
  by_cases idle : s.flow.fill.state = .idle
  · rw [State.releaseFill_idle idle]
    exact idle
  · rw [s.flow_releaseFill idle, Flow.pass_fill_idle _ _ rfl]
    rfl

theorem State.flow_releaseAxle (s : State) (asked : s.flow.axle.state ≠ .idle) :
    s.releaseAxle.flow = ({ s.flow with axle := .idle } : Flow).pass (flowBudget s.items) := by
  unfold State.releaseAxle
  rw [if_neg asked, State.flow_grantPass]
  rfl

theorem State.releaseAxle_idle (idle : s.flow.axle.state = .idle) : s.releaseAxle = s := if_pos idle

theorem State.axle_releaseAxle (s : State) : s.releaseAxle.flow.axle.state = .idle := by
  by_cases idle : s.flow.axle.state = .idle
  · rw [State.releaseAxle_idle idle]
    exact idle
  · rw [s.flow_releaseAxle idle, Flow.pass_axle_idle _ _ rfl]
    rfl

theorem State.flow_putFill (s : State) (units : Nat) (c : Clutch) :
    (s.putFill units c).flow =
      ({ s.flow with fill := s.flow.request s.now units, fillSite := some c } : Flow).pass (flowBudget s.items) :=
  State.flow_grantPass _

/-- A request on a grant releases it first (R63). -/
theorem State.askFill_granted (s : State) (units : Nat) (c : Clutch) (granted : s.flow.fill.state = .granted) :
    s.askFill units c = s.releaseFill.askFill units c := by
  have idle := s.fill_releaseFill
  unfold State.askFill State.freeFill
  rw [if_pos granted, if_neg (by rw [idle]; decide)]

theorem State.askAxle_granted (s : State) (units : Nat) (granted : s.flow.axle.state = .granted) :
    s.askAxle units = s.releaseAxle.askAxle units := by
  have idle := s.axle_releaseAxle
  unfold State.askAxle State.freeAxle
  rw [if_pos granted, if_neg (by rw [idle]; decide)]

theorem State.flow_askFill (s : State) (units : Nat) (c : Clutch) (other : s.flow.fill.state ≠ .granted) :
    (s.askFill units c).flow =
      ({ s.flow with fill := s.flow.request s.now units, fillSite := some c } : Flow).pass (flowBudget s.items) := by
  unfold State.askFill State.freeFill
  rw [if_neg other, State.flow_putFill]

theorem State.flow_askAxle (s : State) (units : Nat) (other : s.flow.axle.state ≠ .granted) :
    (s.askAxle units).flow =
      ({ s.flow with axle := s.flow.request s.now units } : Flow).pass (flowBudget s.items) := by
  unfold State.askAxle State.freeAxle State.putAxle
  rw [if_neg other, State.flow_grantPass]
  rfl

theorem State.flow_askLift (s : State) (units : Nat) (new : units ≠ s.flow.liftAsked) :
    (s.askLift units).flow =
      ({ s.flow with liftAsked := units, liftGranted := min s.flow.liftGranted units } : Flow).pass
        (flowBudget s.items) := by
  unfold State.askLift
  rw [if_neg new, State.flow_grantPass]
  rfl

/-- The SQ told of its grant: the on-coming clutches of the step that waits enter FILL, with its length and the engine speed
of the moment (R83, R94). -/
theorem State.sq_sqFillGranted {st : GearStep} {rest : List GearStep} (queue : s.sq.queue = st :: rest)
    (waits : st.phase = some .flowWait) :
    s.sqFillGranted.sq =
      { s.sq.enterAll st.on .fill with
        queue :=
          { st with
            phase := some .fill, phaseStart := s.now, phaseLength := fillLength s.items s.sq st.on,
            preShift := s.pub.engine, observation := 0,
            observable := st.upshift && s.pub.engine.isSome && s.pub.band = .released } :: rest } := by
  unfold State.sqFillGranted
  rw [queue]
  simp only [waits, if_true]

/-- Where no step waits for flow, a grant changes nothing at the SQ. -/
theorem State.sq_sqFillGranted_of_ne (none : ∀ st, s.sq.queue.head? = some st → st.phase ≠ some .flowWait) :
    s.sqFillGranted.sq = s.sq := by
  unfold State.sqFillGranted
  split
  · next st rest queue => rw [if_neg (none st (by rw [queue]; rfl))]
  · rfl

/-- Settles O51. -/
theorem grantPassServes : Obligations.GrantPassServes := by
  refine ⟨fun f budget fits => f.passed fits, fun s units c => ?_, fun s => ?_⟩
  · exact ⟨s.flow_askFill units c, s.askFill_granted units c, s.flow_askAxle units, s.askAxle_granted units,
      State.releaseFill_idle, s.flow_releaseFill, State.releaseAxle_idle, s.flow_releaseAxle, s.flow_askLift units⟩
  · refine ⟨s.flow_grantPass, fun new granted st rest queue waits => ?_, fun new granted waits => ?_, s.granted_grantPass⟩
    · have told := s.sq_grantPass
      rw [if_pos ⟨new, granted⟩, State.sq_sqFillGranted queue waits] at told
      rw [told]
      exact ⟨fun c => s.sq.state_enterAll st.on .fill c, rfl⟩
    · have told := s.acu_grantPass
      rw [if_pos ⟨new, granted, waits⟩] at told
      exact told

end Sys2Proof.Machine
end

section
/-! SUPPORT. The changes that reach the Flow Arbiter and the coupling, one by one, and the two invariants of the flow through each
of them (R61, R70, R105). -/

namespace Sys2Proof.Machine

variable {s t u : State}

/-- One change as the Flow Arbiter and the coupling meet it. -/
inductive FlowTurn : State → State → Prop where
  | frame {s t : State} (cs : t.cs = s.cs) (flow : t.flow = s.flow) (coupling : t.acu.coupling = s.acu.coupling)
      (mode : s.running = false → s.hr.mode = .hold → t.hr.mode = .hold) : FlowTurn s t
  | pass (s : State) : FlowTurn s s.grantPass
  | endFill (s : State) : FlowTurn s { s with flow := { s.flow with fill := .idle, fillSite := none } }
  | askFill (s : State) (units : Nat) (c : Clutch) (running : s.running = true) :
      FlowTurn s { s with flow := { s.flow with fill := s.flow.request s.now units, fillSite := some c } }
  | askLift (s : State) (units : Nat) (may : s.running = false → s.hr.mode = .hold → units = 0) :
      FlowTurn s (s.askLift units)
  | followHold (s : State) : FlowTurn s s.followHold
  | engage (s : State) : FlowTurn s s.acuEngage
  | release (s : State) : FlowTurn s s.acuRelease
  | released {s : State} (releasing : s.acu.coupling = .releasing) :
      FlowTurn s ({ s with acu := { s.acu with coupling := .released, fill := none } } : State).releaseAxle
  | settled {s : State} (engaging : s.acu.coupling = .engaging) :
      FlowTurn s { s with acu := { s.acu with coupling := .engaged, settle := none } }
  | starved {s : State} (waits : s.flow.axle.state = .waiting) : FlowTurn s (s.starve .axle)
  | start (s : State) : FlowTurn s { s with cs := { s.cs with device := .run } }
  | items {s : State} {item first n : Nat} {vals : List Word} {items : List (List Word)}
      (ok : s.configCheck item first n vals = .ok items) : FlowTurn s { s with cs := { s.cs with items := items } }
  | stop {s t : State} (items : t.items = s.items) (flow : t.flow = { Flow.reset with hold := t.flow.hold })
      (coupling : t.acu.coupling = .engaged) (mode : t.hr.mode = .hold) : FlowTurn s t

/-- Changes one after the other. -/
def FlowTurns : State → State → Prop := Relation.ReflTransGen FlowTurn

/-! The budget. -/

/-- A written run brings each value as it was, or one of its own. -/
theorem getD_writeRun_or (l : List Word) (first : Nat) (vals : List Word) (x : Nat) :
    (writeRun l first vals).getD x 0 = l.getD x 0 ∨
      ∃ m w, vals[m]? = some w ∧ x = first + m ∧ (writeRun l first vals).getD x 0 = w := by
  induction vals generalizing l first with
  | nil => exact .inl rfl
  | cons v vals ih =>
    rw [writeRun]
    rcases ih (l.set first v) (first + 1) with same | ⟨m, w, value, place, written⟩
    · rw [same]
      by_cases here : x = first ∧ first < l.length
      · exact .inr ⟨0, v, rfl, here.1, by
          rw [here.1, List.getD_eq_getElem?_getD, List.getElem?_set_self here.2, Option.getD_some]⟩
      · refine .inl ?_
        rw [List.getD_eq_getElem?_getD, List.getD_eq_getElem?_getD]
        by_cases inside : first < l.length
        · rw [List.getElem?_set_ne fun e => here ⟨e.symm, inside⟩]
        · rw [List.set_eq_of_length_le (by omega)]
    · exact .inr ⟨m + 1, w, value, by omega, written⟩

/-- A write that passes its checks leaves each value as it was, or in its range (R181). -/
theorem itemValue_written {item first n : Nat} {vals : List Word} {items : List (List Word)}
    (ok : s.configCheck item first n vals = .ok items) (j x : Nat) :
    itemValue items j x = itemValue s.items j x ∨ valueOk j x (itemValue items j x) = true := by
  obtain ⟨-, -, -, values, -, written⟩ := State.configCheck_ok ok
  rw [written]
  unfold itemValue
  by_cases here : j = item ∧ item < s.items.length
  · obtain ⟨rfl, inside⟩ := here
    rw [getD_writeItem _ _ _ _ inside, if_pos rfl]
    rcases getD_writeRun_or (s.items.getD j []) first vals x with same | ⟨m, w, value, place, new⟩
    · exact .inl same
    · rw [new, place]
      exact .inr (values m w value)
  · refine .inl (congrArg (List.getD · x 0) ?_)
    unfold writeItem
    by_cases inside : item < s.items.length
    · rw [List.getD_eq_getElem?_getD, List.getElem?_set_ne fun e => here ⟨e.symm, inside⟩, List.getD_eq_getElem?_getD]
    · rw [List.set_eq_of_length_le (by omega)]

namespace State.FlowSafe

/-- Where nothing is granted, reserve and capacity decide. -/
theorem of_none (granted : s.flow.granted = 0) (reserve : flowReserve s.items ≤ 8) (capacity : 8 ≤ flowCapacity s.items)
    (config : s.running = false → s.flow.liftAsked = 0 ∧ s.flow.fill.state = .idle ∧ s.flow.axle.state = .idle ∧
      s.hr.mode = .hold) : s.FlowSafe := by
  unfold Flow.granted at granted
  refine ⟨by omega, reserve, capacity, fun stopped => ?_⟩
  obtain ⟨asked, fill, axle, mode⟩ := config stopped
  exact ⟨by omega, by omega, by omega, asked, fill, axle, mode⟩

/-- A written store keeps the budget: reserve and capacity stay in their ranges, and in CONFIG nothing is granted. -/
theorem items (h : s.FlowSafe) {item first n : Nat} {vals : List Word} {items : List (List Word)}
    (ok : s.configCheck item first n vals = .ok items) : ({ s with cs := { s.cs with items := items } } : State).FlowSafe := by
  obtain ⟨stopped, -⟩ := State.configCheck_ok ok
  obtain ⟨fill, axle, lift, asked, fillIdle, axleIdle, mode⟩ := h.config stopped
  refine of_none ?_ ?_ ?_ fun _ => ⟨asked, fillIdle, axleIdle, mode⟩
  · show s.flow.fill.granted + s.flow.axle.granted + s.flow.liftGranted = 0
    omega
  · show (itemValue items 12 1).toNat ≤ 8
    have reserve : (itemValue s.items 12 1).toNat ≤ 8 := h.reserve
    rcases itemValue_written ok 12 1 with same | good
    · rw [same]
      exact reserve
    · have good : within 1 8 (itemValue items 12 1).toNat = true := good
      simp only [within, Bool.and_eq_true, decide_eq_true_eq] at good
      exact good.2
  · show 8 ≤ (itemValue items 12 0).toNat
    have capacity : 8 ≤ (itemValue s.items 12 0).toNat := h.capacity
    rcases itemValue_written ok 12 0 with same | good
    · rw [same]
      exact capacity
    · have good : within 8 63 (itemValue items 12 0).toNat = true := good
      simp only [within, Bool.and_eq_true, decide_eq_true_eq] at good
      exact good.1

theorem acuStarved (h : s.FlowSafe) : s.acuStarved.FlowSafe := ite (h.acuCoupling _).acuFollow h

end State.FlowSafe

/-- Every change keeps the budget (R61). -/
theorem FlowTurn.flowSafe (turn : FlowTurn s t) (h : s.FlowSafe) : t.FlowSafe := by
  cases turn with
  | frame cs flow coupling mode =>
    refine h.congr cs flow fun stopped => ?_
    obtain ⟨-, -, -, -, -, -, hold⟩ := h.config stopped
    exact (mode stopped hold).trans hold.symm
  | pass => exact h.grantPass
  | endFill => exact h.idleFill
  | askFill units c running =>
    refine h.setFlow _ ?_ fun stopped => absurd (running.symm.trans stopped) Bool.noConfusion
    have budget := h.budget
    unfold Flow.granted Flow.request at *
    dsimp only
    omega
  | askLift units may =>
    refine h.askLift units ?_
    cases running : s.running
    · obtain ⟨-, -, -, -, -, -, hold⟩ := h.config running
      exact .inr (may running hold)
    · exact .inl rfl
  | followHold => exact h.followHold
  | engage => exact h.acuEngage
  | release => exact h.acuRelease
  | released => exact (h.setAcu _).releaseAxle
  | settled => exact h.setAcu _
  | starved => exact (h.idleAxle.detect _ _).grantPass.acuStarved
  | start => exact ⟨h.fits, h.reserve, h.capacity, fun stopped => nomatch stopped⟩
  | items ok => exact h.items ok
  | stop items flow coupling mode =>
    refine .of_none ?_ (items ▸ h.reserve) (items ▸ h.capacity) fun _ => ⟨?_, ?_, ?_, mode⟩
    all_goals
      rw [flow]
      rfl

/-! The coupling and its entry. -/

/-- A coupling that neither waits nor releases has no request to stand with. -/
def Coupling.rests (c : Coupling) : Prop := c ≠ .releaseWait ∧ c ≠ .releasing

namespace State.CouplingForm

theorem congr (h : s.CouplingForm) (flow : t.flow.axle.state = s.flow.axle.state)
    (coupling : t.acu.coupling = s.acu.coupling) : t.CouplingForm := by
  refine ⟨?_, ?_⟩ <;> rw [flow, coupling]
  · exact h.releasing
  · exact h.waiting

/-- A coupling at rest beside an idle entry. -/
theorem of_rests (rests : s.acu.coupling.rests) (idle : s.flow.axle.state = .idle) : s.CouplingForm := by
  refine ⟨iff_of_false rests.2 ?_, iff_of_false rests.1 ?_⟩ <;>
    · rw [idle]
      decide

/-- Beside a coupling at rest the entry is idle. -/
theorem idle (h : s.CouplingForm) (rests : s.acu.coupling.rests) : s.flow.axle.state = .idle := by
  cases state : s.flow.axle.state
  · rfl
  · exact absurd (h.waiting.mpr state) rests.1
  · exact absurd (h.releasing.mpr state) rests.2

/-- A pass grants the request of a release that waits and tells the coupling, or leaves both (R110). -/
theorem grantPass (h : s.CouplingForm) : s.grantPass.CouplingForm := by
  have flow := State.flow_grantPass s
  have acu := s.acu_grantPass
  by_cases waits : s.flow.axle.state = .waiting
  · rcases s.flow.entry_pass (flowBudget s.items) .axle with same | ⟨-, granted⟩
    · have same : (s.flow.pass (flowBudget s.items)).axle = s.flow.axle := same
      refine h.congr (by rw [flow, same]) ?_
      rw [acu, same, if_neg fun ⟨_, granted, _⟩ => nomatch waits.symm.trans granted]
    · have granted : (s.flow.pass (flowBudget s.items)).axle.state = .granted := congrArg FlowEntry.state granted
      rw [if_pos ⟨by rw [waits]; decide, granted, h.waiting.mpr waits⟩] at acu
      refine ⟨iff_of_true (by rw [acu]) (by rw [flow, granted]), iff_of_false ?_ ?_⟩
      · rw [acu]
        exact Coupling.noConfusion
      · rw [flow, granted]
        decide
  · have same := Flow.axle_pass_of_ne waits (flowBudget s.items)
    refine h.congr (by rw [flow, same]) ?_
    rw [acu, same, if_neg fun ⟨new, granted, _⟩ => new granted]

/-- A release of the axle entry by a coupling at rest leaves both at rest. -/
theorem releaseAxle (rests : s.acu.coupling.rests) : s.releaseAxle.CouplingForm := by
  refine of_rests ?_ s.axle_releaseAxle
  rw [s.coupling_releaseAxle rests.1]
  exact rests

theorem acuEngage (h : s.CouplingForm) : s.acuEngage.CouplingForm := by
  unfold State.acuEngage
  split
  · exact releaseAxle ⟨nofun, nofun⟩
  · exact releaseAxle ⟨nofun, nofun⟩
  · next released => exact of_rests ⟨nofun, nofun⟩ (h.idle (by rw [released]; exact ⟨nofun, nofun⟩))
  · exact h
  · exact h

/-- A request of a coupling that enters RELEASE_WAIT with it (R109). -/
theorem askAxle (rests : s.flow.axle.state = .idle) (units : Nat) :
    ((s.acuCoupling .releaseWait).askAxle units).CouplingForm := by
  have free : (s.acuCoupling .releaseWait).freeAxle = s.acuCoupling .releaseWait := by
    refine if_neg ?_
    show s.flow.axle.state ≠ .granted
    rw [rests]
    decide
  unfold State.askAxle State.putAxle
  rw [free]
  exact grantPass ⟨iff_of_false nofun nofun, iff_of_true rfl rfl⟩

theorem acuRelease (h : s.CouplingForm) : s.acuRelease.CouplingForm := by
  unfold State.acuRelease
  split
  · next engaged =>
    split
    · exact askAxle (h.idle (by rw [engaged]; exact ⟨nofun, nofun⟩)) _
    · exact h
  · split
    · exact releaseAxle ⟨nofun, nofun⟩
    · exact h
  · exact h
  · exact h
  · exact h

theorem acuFollow (h : s.CouplingForm) : s.acuFollow.CouplingForm := by
  unfold State.acuFollow
  split
  · exact h
  · split
    · exact h.acuRelease
    · exact h.acuEngage

theorem askLift (h : s.CouplingForm) (units : Nat) : (s.askLift units).CouplingForm := by
  unfold State.askLift
  split
  · exact h
  · exact grantPass (h.congr rfl rfl)

theorem followHold (h : s.CouplingForm) : s.followHold.CouplingForm := by
  unfold State.followHold
  dsimp only
  split
  · exact h
  · split
    · exact grantPass (h.congr rfl rfl)
    · refine grantPass (h.congr ?_ rfl)
      show (s.flow.axle.rewait s.now).state = s.flow.axle.state
      unfold FlowEntry.rewait
      split <;> rfl

/-- A starved request is gone, and the coupling that waited for it, told so, is ENGAGED and tests a release again (R68, R110). -/
theorem starve (h : s.CouplingForm) (waits : s.flow.axle.state = .waiting) : (s.starve .axle).CouplingForm := by
  rw [State.starve_axle, State.detect_eq]
  have only := (s.unasked .axle).markOnly .flowStarved (s.starvedSite .axle)
  have coupling := only.axle.1.trans (h.waiting.mpr waits)
  have idle : ((s.unasked .axle).marked .flowStarved (s.starvedSite .axle)).flow.axle.state = .idle := by
    rw [only.flow]
    rfl
  generalize (s.unasked .axle).marked .flowStarved (s.starvedSite .axle) = m at coupling idle
  obtain ⟨idle', -, coupling'⟩ := State.coupling_unitsFollow_idle coupling idle
  have gone : m.unitsFollow.acu.coupling = .releaseWait ∨ m.unitsFollow.acu.coupling = .engaged := by
    rw [coupling']
    split
    · exact .inl rfl
    · exact .inr rfl
  have pass := (Grants.refl m.unitsFollow.fuConditions).grantPass
  obtain ⟨idle'', same⟩ := pass.idle idle'
  generalize m.unitsFollow.fuConditions.grantPass = w at idle'' same
  have gone : w.acu.coupling = .releaseWait ∨ w.acu.coupling = .engaged := by
    rw [same]
    exact gone
  unfold State.acuStarved
  rcases gone with waits | engaged
  · rw [if_pos waits]
    exact acuFollow (of_rests ⟨nofun, nofun⟩ idle'')
  · rw [engaged, if_neg nofun]
    exact of_rests (by rw [engaged]; exact ⟨nofun, nofun⟩) idle''

end State.CouplingForm

/-- Every change keeps the coupling with its entry (R105). -/
theorem FlowTurn.couplingForm (turn : FlowTurn s t) (h : s.CouplingForm) : t.CouplingForm := by
  cases turn with
  | frame cs flow coupling mode => exact h.congr (by rw [flow]) coupling
  | pass => exact h.grantPass
  | endFill => exact h.congr rfl rfl
  | askFill => exact h.congr rfl rfl
  | askLift units => exact h.askLift units
  | followHold => exact h.followHold
  | engage => exact h.acuEngage
  | release => exact h.acuRelease
  | released => exact .releaseAxle ⟨nofun, nofun⟩
  | settled engaging => exact .of_rests ⟨nofun, nofun⟩ (h.idle (by rw [engaging]; exact ⟨nofun, nofun⟩))
  | starved waits => exact h.starve waits
  | start => exact h.congr rfl rfl
  | items => exact h.congr rfl rfl
  | stop items flow coupling mode =>
    refine .of_rests (by rw [coupling]; exact ⟨nofun, nofun⟩) ?_
    rw [flow]
    rfl

end Sys2Proof.Machine
end

section
/-! SUPPORT. Everything that a unit does for itself goes by such changes. -/

namespace Sys2Proof.Machine

namespace FlowTurns

variable {s t u : State}

theorem refl (s : State) : FlowTurns s s := Relation.ReflTransGen.refl

theorem trans (h : FlowTurns s t) (g : FlowTurns t u) : FlowTurns s u := Relation.ReflTransGen.trans h g

theorem turn (h : FlowTurns s t) (g : FlowTurn t u) : FlowTurns s u := Relation.ReflTransGen.tail h g

/-- What every change keeps, changes one after the other keep. -/
theorem keep {P : State → Prop} (keeps : ∀ s t, FlowTurn s t → P s → P t) (h : FlowTurns s t) (p : P s) : P t := by
  induction h with
  | refl => exact p
  | tail _ turn ih => exact keeps _ _ turn ih

theorem frame (h : FlowTurns s t) (cs : u.cs = t.cs) (flow : u.flow = t.flow) (coupling : u.acu.coupling = t.acu.coupling)
    (mode : t.running = false → t.hr.mode = .hold → u.hr.mode = .hold) : FlowTurns s u :=
  h.turn (.frame cs flow coupling mode)

/-- What the Flow Arbiter and the coupling meet of a state, beside the order of changes. -/
def parts (s : State) : Cs × Flow × Coupling × HitchMode := (s.cs, s.flow, s.acu.coupling, s.hr.mode)

/-- A change of none of it. -/
theorem same (h : FlowTurns s t) (parts : parts u = parts t) : FlowTurns s u := by
  simp only [FlowTurns.parts, Prod.mk.injEq] at parts
  obtain ⟨cs, flow, coupling, mode⟩ := parts
  exact h.frame cs flow coupling fun _ hold => mode.trans hold

theorem setSq (h : FlowTurns s t) (q : Sq) : FlowTurns s { t with sq := q } := h.same rfl

/-- What CONFIG asks of a change is not asked in RUN. -/
theorem inRun {P : Prop} (running : t.running = true) : t.running = false → P :=
  fun stopped => absurd (running.symm.trans stopped) Bool.noConfusion

/-- In RUN the mode of the Hitch Regulator is free. -/
theorem setHr (h : FlowTurns s t) (running : t.running = true) (r : Hr) : FlowTurns s { t with hr := r } :=
  h.frame rfl rfl rfl (inRun running)

theorem ite {c : Prop} [Decidable c] {a b : State} (ha : FlowTurns s a) (hb : FlowTurns s b) :
    FlowTurns s (if c then a else b) := by
  split
  · exact ha
  · exact hb

theorem foldl {α : Type} (f : State → α → State) (hf : ∀ u a, FlowTurns u (f u a)) (l : List α) (h : FlowTurns s t) :
    FlowTurns s (l.foldl f t) := by
  induction l generalizing t with
  | nil => exact h
  | cons a l ih => exact ih (h.trans (hf t a))

/-! The Flow Arbiter and the coupling. -/

theorem grantPass (h : FlowTurns s t) : FlowTurns s t.grantPass := h.turn (.pass t)

theorem releaseFill (h : FlowTurns s t) : FlowTurns s t.releaseFill := ite h (h.turn (.endFill t)).grantPass

theorem askFill (h : FlowTurns s t) (running : t.running = true) (n : Nat) (c : Clutch) : FlowTurns s (t.askFill n c) := by
  have freed : FlowTurns s t.freeFill := ite h.releaseFill h
  exact (freed.turn (.askFill _ n c ((JobOnly.refl t).freeFill.running.trans running))).grantPass

theorem askLift (h : FlowTurns s t) (n : Nat) (may : t.running = false → t.hr.mode = .hold → n = 0) : FlowTurns s (t.askLift n) :=
  h.turn (.askLift t n may)

theorem followHold (h : FlowTurns s t) : FlowTurns s t.followHold := h.turn (.followHold t)

theorem acuEngage (h : FlowTurns s t) : FlowTurns s t.acuEngage := h.turn (.engage t)

theorem acuFollow (h : FlowTurns s t) : FlowTurns s t.acuFollow := ite h (ite (h.turn (.release t)) h.acuEngage)

theorem acuTake (h : FlowTurns s t) : FlowTurns s t.acuTake := by
  refine acuFollow (h.frame rfl rfl ?_ fun _ hold => hold)
  unfold Acu.take
  dsimp only
  split <;> rfl

theorem acuPublish (h : FlowTurns s t) (was : Bool) : FlowTurns s (t.acuPublish was) := by
  refine ite (acuFollow (h.frame rfl rfl ?_ fun _ hold => hold)) h
  unfold Acu.publish
  split
  · rfl
  · split <;> rfl

theorem acuEnableFall (h : FlowTurns s t) : FlowTurns s t.acuEnableFall := ite h.acuEngage h

/-! The hitch. -/

theorem hrSync (h : FlowTurns s t) : FlowTurns s t.hrSync := by
  refine h.frame rfl rfl rfl fun _ hold => ?_
  unfold State.hrSync
  dsimp only
  rw [Hr.followStall_mode, if_pos hold]
  exact hold

theorem hrMove (h : FlowTurns s t) {m : Motion} (may : t.running = false → t.hr.mode = .hold → m ≠ .raise) : FlowTurns s (t.hrMove m) := by
  have moved : FlowTurns s { t with
      hr := { t.hr.move t.items t.now (t.pub.position.getD 0) m with
        asked := if m = .raise then liftFor t.items t.hr.error else 0 } } :=
    h.frame rfl rfl rfl fun _ hold => (State.FlowSafe.move_mode _ _ _ _ _).trans hold
  refine (moved.askLift _ fun stopped hold => if_neg (may stopped ?_)).hrSync
  exact (State.FlowSafe.move_mode _ _ _ _ _).symm.trans hold

theorem hrRegulate (h : FlowTurns s t) (running : t.running = true) : FlowTurns s t.hrRegulate :=
  hrMove (h.setHr running _) (inRun running)

/-- A correction is one of TRANSPORT. -/
theorem hrCorrect (h : FlowTurns s t) (works : t.running = false → t.hr.mode ≠ .hold) : FlowTurns s t.hrCorrect :=
  ite (h.same rfl) (hrMove (h.same (by rfl)) fun stopped hold => absurd hold (works stopped))

theorem hrTransport (h : FlowTurns s t) (running : t.running = true) : FlowTurns s t.hrTransport := by
  unfold State.hrTransport
  exact ite (ite (hrCorrect (h.setHr running _) (inRun running)) (h.setHr running _))
    (ite (hrMove (h.setHr running _) (inRun running)) (hrMove (h.setHr running _) (inRun running)))

theorem hrEnterHold (h : FlowTurns s t) : FlowTurns s t.hrEnterHold :=
  hrMove (m := .idle) (h.frame (by rfl) (by rfl) (by rfl) fun _ _ => by rfl) fun _ _ => by decide

theorem hrWork (h : FlowTurns s t) (running : t.running = true) : FlowTurns s t.hrWork :=
  ite (hrMove (h.setHr running _) (inRun running)) (hrRegulate (h.setHr running _) running)

theorem hrRefresh (h : FlowTurns s t) : FlowTurns s t.hrRefresh := by
  unfold State.hrRefresh
  split
  · exact ite h h.hrEnterHold
  · next works =>
    have running := State.FlowSafe.running_of_work works
    exact ite (hrWork (h.same (by rfl)) running) (ite (hrMove (h.same (by rfl)) (inRun running)) h)

theorem hrFreeze (h : FlowTurns s t) : FlowTurns s t.hrFreeze := h.same rfl

theorem hrUnfreeze (h : FlowTurns s t) : FlowTurns s t.hrUnfreeze := h.same rfl

theorem hrPublish (h : FlowTurns s t) (lowering : Bool) : FlowTurns s (t.hrPublish lowering) := by
  unfold State.hrPublish
  split
  · exact h
  · next stopped =>
    have running : t.running = true := by simpa using stopped
    have refreshed := (h.setHr running
      { t.hr.trimPublish t.now t.slipOver with
        frozenLost := t.hr.frozenLost || (t.sq.flags.draftFreeze && t.pub.draft.isNone) }).hrRefresh
    have running' := ((JobOnly.refl { t with
      hr := { t.hr.trimPublish t.now t.slipOver with
        frozenLost := t.hr.frozenLost || (t.sq.flags.draftFreeze && t.pub.draft.isNone) } }).hrRefresh).running.trans running
    dsimp only
    refine ite refreshed ?_
    split
    · exact (hrTransport refreshed running').setHr (((JobOnly.refl _).hrTransport).running.trans running') _
    · split
      · exact refreshed.setHr running' _
      · exact (hrRegulate refreshed running').setHr (((JobOnly.refl _).hrRegulate).running.trans running') _

/-- A hand-over at the hitch, the order and the trim once taken. -/
theorem hrTaken (h : FlowTurns s t) (other : Bool) :
    FlowTurns s
      (if t.hrHold then
        if t.hr.mode ≠ .hold then t.hrEnterHold
        else if other && t.hr.holdMode then { t with hr := { t.hr with holdPos := t.pub.position } } else t
       else ({ t with hr := { t.hr with holdPos := none } } : State).hrWork) := by
  split
  · exact ite h.hrEnterHold (ite (h.same rfl) h)
  · next works => exact hrWork (h.same (by rfl)) (State.FlowSafe.running_of_work works)

theorem hrTake (h : FlowTurns s t) : FlowTurns s t.hrTake := by
  unfold State.hrTake
  dsimp only
  refine hrTaken (h.frame (by rfl) (by rfl) (by rfl) fun _ hold => ?_) _
  dsimp only
  rw [State.FlowSafe.trimTake_mode]
  repeat' split
  all_goals exact hold

/-! The gearbox. -/

theorem clearFlags (h : FlowTurns s t) : FlowTurns s t.clearFlags := by
  have cleared : FlowTurns s { t with sq := { t.sq with flags := .clear } } := h.same rfl
  have unfrozen := ite (c := (t.sq.flags.draftFreeze : Prop)) cleared.hrUnfreeze cleared
  exact ite unfrozen.acuFollow unfrozen

theorem inchEntry (h : FlowTurns s t) : FlowTurns s t.inchEntry := by
  unfold State.inchEntry
  split
  · exact ite h (h.same rfl)
  · exact h

theorem abandonHead (h : FlowTurns s t) : FlowTurns s t.abandonHead := by
  unfold State.abandonHead
  split
  · exact (ite (h.setSq _).releaseFill (h.setSq _)).clearFlags.inchEntry
  · exact h

theorem setQueue (h : FlowTurns s t) (l : List GearStep) : FlowTurns s (t.setQueue l) := h.same rfl

theorem setHead (h : FlowTurns s t) (st : GearStep) : FlowTurns s (t.setHead st) := h.same rfl

theorem abandonRebuild (h : FlowTurns s t) : FlowTurns s t.abandonRebuild := h.abandonHead.setQueue _

theorem rebuild (h : FlowTurns s t) : FlowTurns s t.rebuild := by
  unfold State.rebuild
  refine ite h ?_
  split
  · exact h.setQueue _
  · refine ite (h.setQueue _) ?_
    split
    · exact ite (h.setQueue _) h.abandonRebuild
    · exact h.abandonRebuild

theorem endLoose (h : FlowTurns s t) : FlowTurns s t.endLoose := h.same rfl

theorem beginStep (h : FlowTurns s t) (st : GearStep) (running : t.running = true) : FlowTurns s (t.beginStep st) := by
  unfold State.beginStep
  split
  · exact h.same rfl
  · have begun : ∀ (st' : GearStep) (q : Sq) (c : Prop) [Decidable c],
        FlowTurns s (if c then ({ t.setHead st' with sq := q } : State).hrFreeze else { t.setHead st' with sq := q }) :=
      fun st' q c _ => ite ((h.setHead st').setSq q).hrFreeze ((h.setHead st').setSq q)
    dsimp only
    split
    · exact (begun _ _ _).askFill ((JobOnly.ite ((JobOnly.refl t).setHead _ |>.setSq _).hrFreeze
        ((JobOnly.refl t).setHead _ |>.setSq _)).running.trans running) _ _
    · exact begun _ _ _

theorem startPlain (h : FlowTurns s t) : FlowTurns s t.startPlain := by
  unfold State.startPlain
  split
  · split
    · next free => exact h.beginStep _ (State.FlowSafe.running_of_free free)
    · exact h
  · exact h

theorem finishStep (h : FlowTurns s t) (c : Bool) : FlowTurns s (t.finishStep c) := by
  unfold State.finishStep
  split
  · exact (h.setSq _).clearFlags.inchEntry.rebuild
  · exact h

theorem zeroNeutral (h : FlowTurns s t) (st : GearStep) : FlowTurns s (t.zeroNeutral st) :=
  (h.setSq _).endLoose.finishStep _

theorem tryStart (h : FlowTurns s t) : FlowTurns s t.tryStart := by
  unfold State.tryStart
  split
  · split
    · next free => exact ite (h.zeroNeutral _).startPlain (h.beginStep _ (State.FlowSafe.running_of_free free))
    · exact h
  · exact h

theorem endStep (h : FlowTurns s t) (c : Bool) : FlowTurns s (t.endStep c) := (h.finishStep c).tryStart

theorem replan (h : FlowTurns s t) : FlowTurns s t.replan := h.rebuild.tryStart

theorem fillDone (h : FlowTurns s t) (st : GearStep) : FlowTurns s (t.fillDone st) :=
  ((h.setHead _).setSq _).releaseFill

theorem rampFlags (h : FlowTurns s t) (st : GearStep) : FlowTurns s (t.rampFlags st) := by
  unfold State.rampFlags
  exact ite (h.setSq _).acuFollow (h.setSq _)

theorem holdDone (h : FlowTurns s t) (st : GearStep) : FlowTurns s (t.holdDone st) := by
  unfold State.holdDone
  dsimp only
  split
  · exact ite ((h.setSq _).endStep _) (h.same rfl)
  all_goals exact (h.setSq _).rampFlags _

theorem rampDone (h : FlowTurns s t) (st : GearStep) : FlowTurns s (t.rampDone st) :=
  ite ((h.setSq _).endStep _) (h.same rfl)

theorem endDecel (h : FlowTurns s t) (st : GearStep) : FlowTurns s (t.endDecel st) := h.same rfl

theorem lockStep (h : FlowTurns s t) (st : GearStep) (c : Bool) : FlowTurns s (t.lockStep st c) :=
  (h.setSq _).endStep _

theorem lockLoose (h : FlowTurns s t) (d : Dir) : FlowTurns s (t.lockLoose d) :=
  ((h.setSq _).endLoose).tryStart

theorem observe (h : FlowTurns s t) : FlowTurns s t.observe := by
  unfold State.observe
  split
  · exact h.setHead _
  · exact h

theorem pedalSync (h : FlowTurns s t) (down : Bool) : FlowTurns s (t.pedalSync down) := by
  unfold State.pedalSync
  split
  · exact h
  · have entered : ∀ q, FlowTurns s (if down then ({ t with sq := q } : State) else t) := fun q => ite (h.same rfl) h
    dsimp only
    split
    · exact ite (entered _) ((entered _).setHead _)
    · exact (entered _).setSq _

theorem pedalChange (h : FlowTurns s t) (old : Band) : FlowTurns s (t.pedalChange old) := by
  unfold State.pedalChange
  refine ite h ?_
  have synced := ite (c := old = .released) (h.pedalSync true) (ite (c := t.pub.band = .released) (h.pedalSync false) h)
  have entered := fun c d => @ite s c d _ _ synced.inchEntry synced
  exact ite (ite (entered _ _).abandonHead (entered _ _)).rebuild (entered _ _)

theorem standstill (h : FlowTurns s t) : FlowTurns s t.standstill := by
  unfold State.standstill
  split
  · exact ite (h.endDecel _) h
  · exact h

theorem lockStart (h : FlowTurns s t) : FlowTurns s t.lockStart := by
  unfold State.lockStart
  split
  · exact ite (h.same rfl) h
  · exact h

theorem looseStart (h : FlowTurns s t) : FlowTurns s t.looseStart := by
  unfold State.looseStart
  split
  · exact ite (h.same rfl) h
  · exact h

theorem retarget (h : FlowTurns s t) (g : Nat) : FlowTurns s (t.retarget g) := (h.setSq _).replan

theorem halt (h : FlowTurns s t) : FlowTurns s t.halt := (h.releaseFill.setSq _).clearFlags

theorem cutNeutral (h : FlowTurns s t) : FlowTurns s t.cutNeutral := by
  unfold State.cutNeutral
  split
  · exact ite (h.zeroNeutral _) h
  · exact h

theorem sqTake (h : FlowTurns s t) : FlowTurns s t.sqTake := (h.setSq _).cutNeutral.replan

theorem sqStarved (h : FlowTurns s t) : FlowTurns s t.sqStarved := by
  unfold State.sqStarved
  split
  · exact ite h.abandonHead.replan h
  · exact h

theorem upExpires (h : FlowTurns s t) : FlowTurns s t.upExpires :=
  ite ((h.setSq _).retarget _) (h.same rfl)

theorem downExpires (h : FlowTurns s t) : FlowTurns s t.downExpires :=
  ite ((h.setSq _).retarget _) (h.same rfl)

end FlowTurns

end Sys2Proof.Machine
end

section
/-! SUPPORT and O6. Claims, detections, the end of an event and every command go by such changes (R61, R70, R105). -/

namespace Sys2Proof.Machine

namespace FlowTurns

variable {s t u : State}

theorem causes (h : FlowTurns s t) (g : CausesOnly t u) : FlowTurns s u :=
  h.frame g.cs g.flow (by rw [g.acu]) fun _ hold => by rw [g.hr]; exact hold

theorem settle (h : FlowTurns s t) (old : Sq) : FlowTurns s (t.settle old) := by
  have only := (SettleOnly.refl t).settle old
  exact h.frame only.cs only.flow only.coupling fun _ hold => by rw [only.hr]; exact hold

/-! Detections. -/

theorem markUnits (h : FlowTurns s t) (k : FaultKind) (site : Word) : FlowTurns s (t.markUnits k site) := by
  unfold State.markUnits
  dsimp only
  repeat' split
  all_goals exact h.same rfl

theorem unitsFollow (h : FlowTurns s t) : FlowTurns s t.unitsFollow :=
  ite h.followHold.acuFollow.hrRefresh h.followHold.acuFollow

theorem fuConditions (h : FlowTurns s t) : FlowTurns s t.fuConditions := h.same rfl

theorem detect (h : FlowTurns s t) (k : FaultKind) (site : Word) : FlowTurns s (t.detect k site) := by
  have latched : FlowTurns s { t with
    fu := { t.fu with record := t.recordFirst k site, entry := t.fu.entry.set k ⟨true, some site⟩ } } := h.same rfl
  have marked := (latched.causes ((CausesOnly.refl _).reportFault k)).markUnits k site
  exact marked.unitsFollow.fuConditions

theorem unmarkUnits (h : FlowTurns s t) (k : FaultKind) : FlowTurns s (t.unmarkUnits k) := by
  unfold State.unmarkUnits
  split
  all_goals exact h.same rfl

theorem unlatch (h : FlowTurns s t) (k : FaultKind) : FlowTurns s (t.unlatch k) := by
  have cleared : FlowTurns s { t with
    fu := { t.fu with
      record := recordAfter t.fu.record k,
      entry := t.fu.entry.set k { t.fu.entry.get k with latched := false } } } := h.same rfl
  exact (cleared.unmarkUnits k).unitsFollow.fuConditions

theorem hotTests (h : FlowTurns s t) : FlowTurns s t.hotTests :=
  foldl _ (fun u _ => ite (((refl u).same (by rfl)).detect _ _) (ite ((refl u).same (by rfl)) (refl u))) _ h

theorem sqPublish (h : FlowTurns s t) (old : Band) : FlowTurns s (t.sqPublish old) := by
  have heated : FlowTurns s t.heatUp := h.same rfl
  exact ite h ((heated.hotTests.observe.pedalChange old).standstill.lockStart.looseStart).tryStart

theorem enableLost (h : FlowTurns s t) : FlowTurns s t.enableLost := ite h (h.detect _ _)

/-- A starved request: that of the gearbox ends first; that of the axle is one change. -/
theorem starve (h : FlowTurns s t) {c : WaitClass} (due : t.starves c = true) : FlowTurns s (t.starve c) := by
  cases c with
  | fill => exact ((h.turn (.endFill t)).detect _ _).grantPass.sqStarved
  | axle =>
    unfold State.starves at due
    rw [Bool.and_eq_true, decide_eq_true_eq] at due
    exact h.turn (.starved due.1)

/-! Claims. -/

theorem handOver (h : FlowTurns s t) (ch : Channel) : FlowTurns s (t.handOver ch) := by
  unfold State.handOver
  refine ite h ?_
  cases ch with
  | gear => exact h.sqTake
  | axle => exact h.acuTake
  | hitch => exact h.hrTake
  | tbrake => exact h.same rfl

theorem resolve (h : FlowTurns s t) (ch : Channel) (q a : Option Nat) : FlowTurns s (t.resolve ch q a) := by
  have stays := UnitsStay.resolveWalk q (t.list ch) true t
  have walked : FlowTurns s (t.resolveWalk q (t.list ch) true) :=
    h.frame stays.cs stays.flow (by rw [stays.acu]) fun _ hold => by rw [stays.hr]; exact hold
  exact ite (walked.handOver ch) walked

theorem resolveAll (h : FlowTurns s t) (l : List Channel) : FlowTurns s (t.resolveAll l) :=
  foldl _ (fun u ch => (refl u).resolve ch none none) _ h

theorem noteChange (h : FlowTurns s t) (k : Nat) (o : Order) : FlowTurns s (t.noteChange k o) :=
  h.causes ((CausesOnly.refl t).noteChange k o)

theorem lcuReport (h : FlowTurns s t) (k : Nat) (o : Order) : FlowTurns s (t.lcuReport k o) := ite (h.same (by rfl)) (h.same (by rfl))

theorem freeOrder (h : FlowTurns s t) (k : Nat) (o : Order) : FlowTurns s (t.freeOrder k o) := by
  have listed : FlowTurns s ((t.setList o.channel ((t.list o.channel).filter (· ≠ k))).lcuForget k) := h.same rfl
  have left := listed.causes ((CausesOnly.refl _).leaveSet o.owner.port k)
  unfold State.freeOrder
  dsimp only
  split
  · exact left.same rfl
  · exact left.same rfl

theorem freeIf (h : FlowTurns s t) (who : Owner → Bool) (k : Nat) : FlowTurns s (State.freeIf who t k) := by
  unfold State.freeIf
  split
  · exact ite (h.freeOrder _ _) h
  · exact h

theorem freeAll (h : FlowTurns s t) (who : Owner → Bool) : FlowTurns s (t.freeAll who) :=
  foldl _ (fun u k => (refl u).freeIf who k) _ h

theorem takeCondition (h : FlowTurns s t) (k : Nat) (b : Bool) : FlowTurns s (t.takeCondition k b) := by
  unfold State.takeCondition
  split
  · next o _ =>
    have written : FlowTurns s (t.setOrder k { o with cond := b }) := h.same rfl
    exact written.resolve _ _ _
  · exact h

theorem placeAt (h : FlowTurns s t) (p : Port) (k : Nat) (o : Order) : FlowTurns s (t.placeAt p k o) := by
  have entered : FlowTurns s (t.entered p k o) := ite (h.same (by rfl)) (h.same (by rfl))
  exact entered.resolve _ _ _

theorem amendAt (h : FlowTurns s t) (k : Nat) (o : Order) (first n : Nat) (front : Bool) :
    FlowTurns s (t.amendAt k o first n front) := by
  have written : ∀ o', FlowTurns s (t.setOrder k o') := fun o' => h.same rfl
  have reported := fun o' => ite (c := o.termCount = 0) (written o') (h.lcuReport k o')
  have amended : FlowTurns s (t.amended k o first n) := ite ((reported _).same (by rfl)) (reported _)
  exact (ite (amended.same (by rfl)) amended).resolve _ _ _

theorem leaseEnds (h : FlowTurns s t) : FlowTurns s t.leaseEnds := by
  unfold State.leaseEnds
  split
  · next k _ =>
    have dropped : FlowTurns s (t.lcuForget k) := h.same rfl
    unfold State.lapse
    split
    · next o _ =>
      have written : FlowTurns s ((t.lcuForget k).setOrder k o.lapsing) := dropped.same rfl
      exact (written.noteChange k o).resolve _ _ _
    · exact dropped
  · exact h

theorem dwellEnds (h : FlowTurns s t) (k : Nat) (n : TermNo) : FlowTurns s (t.dwellEnds k n) := by
  unfold State.dwellEnds
  split
  · exact h.lcuReport _ _
  · exact h

theorem sweepSlot (h : FlowTurns s t) (about : Quantity → Bool) (k : Nat) : FlowTurns s (State.sweepSlot about t k) := by
  unfold State.sweepSlot
  split
  · exact ite h (h.lcuReport _ _)
  · exact h

theorem brakeAxlePublish (h : FlowTurns s t) : FlowTurns s t.brakeAxlePublish := by
  unfold State.brakeAxlePublish
  exact ite (h.same (by rfl)) (ite (h.same (by rfl)) h)

theorem transportPublish (h : FlowTurns s t) : FlowTurns s t.transportPublish := by
  unfold State.transportPublish
  exact ite (ite (h.same (by rfl)) h) (ite (h.same (by rfl)) h)

theorem lcuPublish (h : FlowTurns s t) : FlowTurns s t.lcuPublish := by
  have swept : FlowTurns s (t.sweep fun q => q ≠ .gearNumber) := foldl _ (fun u k => (refl u).sweepSlot _ k) _ h
  exact swept.brakeAxlePublish.transportPublish

theorem stopKeeping (h : FlowTurns s t) (k : Nat) : FlowTurns s (t.stopKeeping k) := by
  unfold State.stopKeeping
  split
  · next o _ =>
    have written : FlowTurns s (t.setOrder k { o with keeping := .none }) := h.same rfl
    exact ite h (written.noteChange k o)
  · exact h

theorem followLaw (h : FlowTurns s t) : FlowTurns s t.followLaw := by
  unfold State.followLaw
  split
  · exact ite h (h.same (by rfl))
  · exact h

/-! Requests. -/

theorem request {p : Port} {code tag : Byte} {run : State → State × Option Answer}
    (turns : ∀ u, FlowTurns u (run u).1) : FlowTurns s (s.request p code tag run) := by
  unfold State.request
  dsimp only
  split
  · exact (refl s).same rfl
  · exact (refl s).same rfl
  · have taken : FlowTurns s (s.setPort p { (s.port p).begin with txn := none }) := (refl s).same rfl
    have ran := taken.trans (turns _)
    split
    · exact ran.same rfl
    · exact ran

theorem cabRequest {p : Port} {code tag : Byte} {run : State → State × Answer} (turns : ∀ u, FlowTurns u (run u).1) :
    FlowTurns s (s.cabRequest p code tag run) := by
  refine request fun u => ?_
  cases p with
  | cab => exact turns u
  | implement => exact refl u

theorem query {p : Port} {code tag : Byte} {answer : State → Answer} : FlowTurns s (s.query p code tag answer) :=
  request fun u => refl u

theorem runPlace (u : State) (p : Port) (tag channel cls terms : Byte) (lease : Word) (v : Values) :
    FlowTurns u (u.runPlace p tag channel cls terms lease v).1 := by
  unfold State.runPlace
  split
  · exact refl u
  · split
    · exact refl u
    · split
      · exact refl u
      · exact ((refl u).placeAt _ _ _).settle _

theorem runAmend (u : State) (p : Port) (tag slot inc first : Byte) (front : Bool) (count : BitVec 7) (gen : Word)
    (v : Values) : FlowTurns u (u.runAmend p tag slot inc first front count gen v).1 := by
  unfold State.runAmend
  dsimp only
  split
  · exact refl u
  · split
    · exact refl u
    · exact ((refl u).amendAt _ _ _ _ _).settle _

theorem runRenew (u : State) (p : Port) (tag slot inc : Byte) : FlowTurns u (u.runRenew p tag slot inc).1 := by
  unfold State.runRenew
  dsimp only
  repeat' split
  all_goals exact (refl u).same rfl

theorem runRetire (u : State) (p : Port) (tag slot inc : Byte) (gen : Word) :
    FlowTurns u (u.runRetire p tag slot inc gen).1 := by
  unfold State.runRetire
  dsimp only
  split
  · exact refl u
  · split
    · exact refl u
    · split
      · exact refl u
      · exact (((refl u).freeOrder _ _).resolve _ _ _).settle _

theorem runMask (u : State) (p : Port) (code tag mask : Byte) (f : {n : Nat} → BitVec n → BitVec n → BitVec n)
    (value : Word) : FlowTurns u (u.runMask p code tag mask f value).1 := by
  unfold State.runMask
  split
  all_goals exact (refl u).same rfl

theorem attend (h : FlowTurns s t) (p : Port) : FlowTurns s (t.attend p) := h.same rfl

theorem resetPort (h : FlowTurns s t) (p : Port) : FlowTurns s (t.resetPort p) := by
  have cleared : FlowTurns s { t.setPort p ((t.port p).cleared t.now (throttleMs t.items p)) with
    fu := { t.fu with mask := t.fu.mask.set p 0 } } := h.same rfl
  exact (((cleared.freeAll _).resolveAll _).settle t.sq).attend p

theorem runClear (u : State) (tag kind : Byte) : FlowTurns u (u.runClear tag kind).1 := by
  unfold State.runClear
  split
  · exact refl u
  · split
    · exact refl u
    · split
      · exact refl u
      · dsimp only
        exact ((refl u).unlatch _).settle _

theorem itemWritten (h : FlowTurns s t) (item first n : Nat) : FlowTurns s (t.itemWritten item first n) := by
  unfold State.itemWritten
  split
  · exact foldl _ (fun v ch => ite ((refl v).same (by rfl)) (refl v)) _ h
  · exact h.hotTests
  · exact h.followLaw
  · exact h.followHold.fuConditions
  · exact h

theorem runConfigWrite (u : State) (tag item first count : Byte) (v : Values) :
    FlowTurns u (u.runConfigWrite tag item first count v).1 := by
  unfold State.runConfigWrite
  dsimp only
  split
  · exact refl u
  · next items ok => exact (((refl u).turn (.items ok)).itemWritten _ _ _).settle _

theorem runAdaptRead (u : State) (tag first count : Byte) : FlowTurns u (u.runAdaptRead tag first count).1 := by
  unfold State.runAdaptRead
  split <;> exact refl u

theorem runAdaptWrite (u : State) (tag first count : Byte) (v : Values) :
    FlowTurns u (u.runAdaptWrite tag first count v).1 := by
  unfold State.runAdaptWrite
  dsimp only
  repeat' split
  all_goals exact (refl u).same rfl

theorem hrStart (h : FlowTurns s t) : FlowTurns s t.hrStart := by
  have untaken : FlowTurns s { t with hr := { t.hr with taken := none } } := h.same rfl
  exact untaken.hrTake

theorem tbuTake (h : FlowTurns s t) : FlowTurns s t.tbuTake := h.same rfl

theorem starting (u : State) : FlowTurns u u.starting := by
  have started : FlowTurns u ({ u with cs := { u.cs with device := .run } } : State) := (refl u).turn (.start u)
  have units := (started.setSq { u.sq with interlock := true }).sqTake.acuTake.hrStart.tbuTake
  exact units.enableLost.settle _

theorem runStart (u : State) (tag : Byte) : FlowTurns u (u.runStart tag).1 := by
  unfold State.runStart
  split
  · exact refl u
  · split
    · exact refl u
    · dsimp only
      exact starting u

/-- STOP: whatever the last resolutions bring, the units enter their CONFIG behaviour (R70, R114, R133). -/
theorem stopping (u : State) : FlowTurns u u.stopping := by
  have claims := ((ClaimOnly.refl ({ u with cs := { u.cs with device := .config } } : State)).freeAll
    fun o => o ≠ .internal).resolveAll Channel.all
  have kept := ClaimOnly.foldl State.stopKeeping (fun _ k h => h.stopKeeping k) (List.range 8) _ claims
  unfold State.stopping
  dsimp only
  generalize (List.range 8).foldl State.stopKeeping _ = v at kept
  have items : v.stopUnits.items = u.items := (congrArg Cs.items kept.cs :)
  exact ((refl u).turn (.stop (t := v.stopUnits) items rfl rfl rfl)).settle _

theorem runStop (u : State) (tag : Byte) : FlowTurns u (u.runStop tag).1 := by
  unfold State.runStop
  split
  · exact stopping u
  · exact refl u

/-! Events. -/

theorem event {f : State → State} (turns : FlowTurns s (f s)) (c : Bool) : FlowTurns s (s.event c f) :=
  ite (turns.settle _) (refl s)

theorem reach (due : State → Bool) : FlowTurns s (s.reach due) := by
  have ticked : FlowTurns s s.tick := (refl s).same rfl
  exact ite (ticked.settle _) (refl s)

theorem expire {due : State → Bool} {f : State → State} (turns : ∀ u, due u = true → FlowTurns u (f u)) :
    FlowTurns s (s.expire due f) := by
  refine (reach (s := s) due).trans ?_
  unfold State.expire State.event
  dsimp only
  split
  · next comes => exact (turns _ comes).settle _
  · exact refl _

theorem stepExpire {step : State → Option GearStep} {f : State → GearStep → State} (turns : ∀ u st, FlowTurns u (f u st))
    (done : s.stepExpire step f = .next t) : FlowTurns s t := by
  cases done
  refine expire fun u _ => ?_
  split
  · exact turns u _
  · exact refl u

theorem looseExpire {due : State → Dir → Bool} {f : State → Dir → State} (turns : ∀ u d, FlowTurns u (f u d))
    (done : s.looseExpire due f = .next t) : FlowTurns s t := by
  cases done
  refine expire fun u _ => ?_
  split
  · exact turns u _
  · exact refl u

theorem enableFalls (u : State) : FlowTurns u u.enableFalls := by
  have guarded : FlowTurns u ({ u with inputs := { u.inputs with enable := false } } : State).osGuard := (refl u).same rfl
  exact ite (guarded.acuEnableFall.hrRefresh.halt.detect _ _) guarded.fuConditions

theorem enableRises (u : State) : FlowTurns u u.enableRises := by
  have raised : FlowTurns u { u with inputs := { u.inputs with enable := true } } := (refl u).same rfl
  exact (ite raised.acuFollow.hrRefresh.replan raised).fuConditions

theorem muPublish (h : FlowTurns s t) (raw : ByConv (BitVec 12)) : FlowTurns s (t.muPublish raw) := h.same rfl

theorem publication (u : State) (raw : ByConv (BitVec 12)) (old : Band) (was lowering : Bool) :
    FlowTurns u (((((u.pubTime.muPublish raw).lcuPublish).sqPublish old).acuPublish was).hrPublish lowering) := by
  have timed : FlowTurns u u.pubTime := ite ((refl u).same (by rfl)) (refl u)
  exact (((timed.muPublish raw).lcuPublish.sqPublish old).acuPublish was).hrPublish lowering

theorem setOs (h : FlowTurns s t) (os : ByOut OutRec) : FlowTurns s { t with os := os } := h.same rfl

theorem endPeriod (u : State) (mean : ByOut Word) :
    FlowTurns u ((u.endPeriod mean).loadSetpoints.osGuard).turnDither := by
  have ended : FlowTurns u (u.endPeriod mean) := (refl u).setOs _
  generalize u.endPeriod mean = v at ended
  have loaded : FlowTurns u v.loadSetpoints := ended.setOs _
  generalize v.loadSetpoints = w at loaded
  have guarded : FlowTurns u w.osGuard := loaded.setOs _
  exact guarded.setOs _

theorem throttled (p : Port) (done : execThrottleTimerExpiry p s = .next t) : FlowTurns s t := by
  cases done
  have reached := reach (s := s) fun s => s.throttleDue p
  exact ite (reached.same (by rfl)) reached

/-- A command with one next state. -/
theorem of_next (h : FlowTurns s u) (done : (Host.Outcome.next u : Host.Outcome State Fault Refusal) = .next t) :
    FlowTurns s t := by
  cases done
  exact h

/-- What every command does to the flow and the coupling: power-on reset, or changes one after the other. -/
theorem of_exec {c : Instr} {s t : State} (h : exec c s = .next t) :
    FlowTurns s t ∨ c = .powerOnReset ∧ t = s.poweredOn := by
  cases c with
  | powerOnReset =>
    cases h
    exact .inr ⟨rfl, rfl⟩
  | nop | read | find | list | status | faultRead | configRead | badRequest => exact .inl (of_next query h)
  | place => exact .inl (of_next (request fun u => runPlace u ..) h)
  | amend => exact .inl (of_next (request fun u => runAmend u ..) h)
  | renew => exact .inl (of_next (request fun u => runRenew u ..) h)
  | retire => exact .inl (of_next (request fun u => runRetire u ..) h)
  | collect | causes | badFrame => exact .inl (of_next (request fun u => ((refl u).same (by rfl))) h)
  | maskSet | maskClear => exact .inl (of_next (request fun u => runMask u ..) h)
  | portReset => exact .inl (of_next (request fun u => (refl u).resetPort _) h)
  | clearFault => exact .inl (of_next (cabRequest fun u => runClear u ..) h)
  | configWrite => exact .inl (of_next (cabRequest fun u => runConfigWrite u ..) h)
  | adaptRead => exact .inl (of_next (cabRequest fun u => runAdaptRead u ..) h)
  | adaptWrite => exact .inl (of_next (cabRequest fun u => runAdaptWrite u ..) h)
  | start => exact .inl (of_next (cabRequest fun u => runStart u _) h)
  | stop => exact .inl (of_next (cabRequest fun u => runStop u _) h)
  | busy | transactionBegin | answerWritten | heldResetDiscard => exact .inl (of_next ((refl s).same (by rfl)) h)
  | portResetInput p level =>
    change execPortResetInput p level s = .next t at h
    unfold execPortResetInput at h
    split at h
    · exact .inl (of_next ((refl s).same (by rfl)) h)
    · split at h
      · exact .inl (of_next (refl s) h)
      · exact .inl (of_next (((refl s).same (by rfl)).resetPort p) h)
  | enableFall => cases h; exact .inl (event (enableFalls s) _)
  | enableRise => cases h; exact .inl (event (enableRises s) _)
  | periodBoundary mean =>
    cases h
    refine .inl (event ?_ _)
    exact endPeriod s mean
  | trailerPresentChange | breakawayInputChange | selectedEdge =>
    cases h
    exact .inl (event ((refl s).same (by rfl)) _)
  | muPublication raw =>
    refine .inl (of_next (event ?_ true) h)
    exact publication s raw s.pub.band s.pub.slip.isSome (s.hr.motion = .lower)
  | coolingStep =>
    cases h
    have cooled : FlowTurns s s.cool := (refl s).same rfl
    exact .inl (event cooled.hotTests.tryStart _)
  | shortCircuitTrip =>
    cases h
    exact .inl (event (((refl s).same (by rfl)).detect _ _) _)
  | conditionReport slot =>
    change execConditionReport slot s = .next t at h
    unfold execConditionReport at h
    split at h
    · exact .inl (of_next (event (((refl s).same (by rfl)).takeCondition _ _) true) h)
    · exact .inl (of_next (refl s) h)
  | faultConditionReport which =>
    change execFaultConditionReport which s = .next t at h
    unfold execFaultConditionReport at h
    split at h
    · exact .inl (of_next (event (((refl s).same (by rfl)).takeCondition _ _) true) h)
    · exact .inl (of_next (refl s) h)
  | debounceTimerExpiry =>
    cases h
    exact .inl (expire fun u _ => ((refl u).same (by rfl)).causes ((CausesOnly.refl _).setCauseBoth _))
  | speedChannelStall | recordedEdgeExpiry | brakeAxleReleaseTimerExpiry =>
    cases h
    exact .inl (expire fun u _ => ((refl u).same (by rfl)))
  | excessTimerExpiry =>
    cases h
    exact .inl (expire fun u _ => ((refl u).same (by rfl)))
  | stepTimerExpiry =>
    cases h
    refine .inl (expire fun u _ => (refl u).frame rfl rfl rfl fun _ hold => ?_)
    dsimp only
    split
    · exact hold
    · exact hold
  | breakawayTimerExpiry | lostTimerExpiry | windowTimerExpiry | mismatchTimerExpiry | supplyTimerExpiry
  | gearSlipTimerExpiry | axleMismatchTimerExpiry | stallTimerExpiry | trackingTimerExpiry | openLoadTimerExpiry =>
    cases h
    exact .inl (expire fun u _ => ((refl u).same (by rfl)).detect _ _)
  | leaseExpiry => cases h; exact .inl (expire fun u _ => (refl u).leaseEnds)
  | dwellEnd => cases h; exact .inl (expire fun u _ => (refl u).dwellEnds _ _)
  | flowWaitExpiry => cases h; exact .inl (expire fun u due => (refl u).starve due)
  | fillEnd => exact .inl (stepExpire (fun u st => (refl u).fillDone st) h)
  | holdEnd => exact .inl (stepExpire (fun u st => (refl u).holdDone st) h)
  | rampOnEnd => exact .inl (stepExpire (fun u st => (refl u).rampDone st) h)
  | rampOffEnd => exact .inl (stepExpire (fun u st => ((refl u).zeroNeutral st).tryStart) h)
  | lockRampEnd owner =>
    cases owner with
    | step => exact .inl (stepExpire (fun u st => (refl u).lockStep st true) h)
    | direction => exact .inl (looseExpire (fun u d => (refl u).lockLoose d) h)
  | syncLimitExpiry owner =>
    cases owner with
    | step => exact .inl (stepExpire (fun u st => ((refl u).lockStep st false).detect _ _) h)
    | direction => exact .inl (looseExpire (fun u d => ((refl u).lockLoose d).detect _ _) h)
  | decelerationLimitExpiry => exact .inl (stepExpire (fun u st => (refl u).endDecel st) h)
  | upTimerExpiry => cases h; exact .inl (expire fun u _ => (refl u).upExpires)
  | downTimerExpiry => cases h; exact .inl (expire fun u _ => (refl u).downExpires)
  | setTimerExpiry | clearTimerExpiry =>
    cases h
    exact .inl (expire fun u _ => ((refl u).same (by rfl)).acuFollow)
  | settleEnd =>
    cases h
    refine .inl (expire fun u due => acuFollow ((refl u).turn (.settled ?_)))
    rw [Bool.and_eq_true, decide_eq_true_eq] at due
    exact due.1
  | axleFillEnd =>
    cases h
    refine .inl (expire fun u due => (refl u).turn (.released ?_))
    rw [Bool.and_eq_true, decide_eq_true_eq] at due
    exact due.1
  | deviationTimerExpiry =>
    cases h
    refine .inl (expire fun u due => ?_)
    rw [Bool.and_eq_true, Bool.and_eq_true, decide_eq_true_eq] at due
    obtain ⟨⟨transport, -⟩, -⟩ := due
    refine hrCorrect ((refl u).same (by rfl)) fun _ hold => ?_
    cases transport.symm.trans hold
  | throttleTimerExpiry p => exact .inl (throttled p h)

end FlowTurns

/-- What a step keeps: whatever holds after power-on reset and through each change of the flow and the coupling. -/
theorem step_keeps_flow {P : State → Prop} (frame : ∀ s rest, P s → P { s with pending := rest })
    (turn : ∀ s t, FlowTurn s t → P s → P t) (power : ∀ s : State, P s.poweredOn) (s t : State) (h : P s)
    (done : step s = .next t) : P t := by
  unfold step at done
  split at done
  · rcases FlowTurns.of_exec done with turns | ⟨-, rfl⟩
    · exact turns.keep turn (frame _ _ h)
    · exact power _
  · cases done
    exact h

/-- Settles O6. -/
theorem flowSafeKept : Obligations.FlowSafeKept := by
  refine ⟨step_keeps_flow (fun s _ h => h.congr rfl rfl fun _ => rfl) (fun _ _ turn => turn.flowSafe) fun s => ?_,
    step_keeps_flow (fun s _ h => h.congr rfl rfl) (fun _ _ turn => turn.couplingForm) fun s => ?_⟩
  · exact reset_flowSafe.congr rfl rfl fun _ => rfl
  · exact .of_rests ⟨nofun, nofun⟩ rfl

end Sys2Proof.Machine
end

section
/-! SUPPORT. What the grants and the following of the other units leave of the gearbox: the Flow Arbiter tells the SQ of nothing
while its request does not wait, or no step waits for it (R65, R83). -/

namespace Sys2Proof.Machine

variable {s t u : State}

/-- No step at the head waits for flow. -/
def Sq.Unwaiting (q : Sq) : Prop := ∀ st, q.queue.head? = some st → st.phase ≠ some .flowWait

theorem Sq.unwaiting_of_empty {q : Sq} (empty : q.queue = []) : q.Unwaiting := by
  intro st head
  rw [empty] at head
  cases head

theorem Sq.unwaiting_of_head {q : Sq} {st : GearStep} {rest : List GearStep} (queue : q.queue = st :: rest)
    (other : st.phase ≠ some .flowWait) : q.Unwaiting := by
  intro x head
  rw [queue] at head
  cases head
  exact other

/-- A grant tells the gearbox nothing. -/
def State.Untold (s : State) : Prop := s.flow.fill.state = .idle ∨ s.sq.Unwaiting

/-- A grant moves clutches only to FILL. -/
structure Sq.Filled (p q : Sq) : Prop where
  state : ∀ c, q.state c = p.state c ∨ q.state c = .fill
  target : q.autoTarget = p.autoTarget
  interlock : q.interlock = p.interlock
  loose : q.looseSync = p.looseSync

namespace Sq.Filled

variable {p q r : Sq}

theorem refl (p : Sq) : p.Filled p := ⟨fun _ => .inl rfl, rfl, rfl, rfl⟩

theorem trans (h : p.Filled q) (g : q.Filled r) : p.Filled r where
  state c := by
    rcases g.state c with same | fill
    · rw [same]
      exact h.state c
    · exact .inr fill
  target := g.target.trans h.target
  interlock := g.interlock.trans h.interlock
  loose := g.loose.trans h.loose

theorem sqFillGranted (s : State) : s.sq.Filled s.sqFillGranted.sq := by
  unfold State.sqFillGranted
  split
  · next st rest queue =>
    split
    · refine ⟨fun c => ?_, rfl, rfl, rfl⟩
      have enters := Sq.state_enterAll s.sq st.on .fill c
      by_cases on : c ∈ st.on
      · exact .inr (enters.trans (if_pos on))
      · exact .inl (enters.trans (if_neg on))
    · exact .refl _
  · exact .refl _

end Sq.Filled

/-- The gearbox stays where a grant tells it nothing, and an idle fill entry stays idle. -/
structure GearStays (s t : State) : Prop where
  still : s.Untold → t.sq = s.sq
  idle : s.flow.fill.state = .idle → t.flow.fill.state = .idle
  fills : s.sq.Filled t.sq

namespace GearStays

theorem refl (s : State) : GearStays s s := ⟨fun _ => rfl, id, .refl _⟩

theorem untold (h : GearStays s t) (rests : s.Untold) : t.Untold := by
  rcases rests with idle | unwaiting
  · exact .inl (h.idle idle)
  · refine .inr ?_
    rw [h.still (.inr unwaiting)]
    exact unwaiting

theorem trans (h : GearStays s t) (g : GearStays t u) : GearStays s u :=
  ⟨fun rests => (g.still (h.untold rests)).trans (h.still rests), g.idle ∘ h.idle, h.fills.trans g.fills⟩

theorem ite {c : Prop} [Decidable c] {a b : State} (ha : GearStays s a) (hb : GearStays s b) :
    GearStays s (if c then a else b) := by
  split
  · exact ha
  · exact hb

theorem setFlow (h : GearStays s t) (f : Flow) (fill : f.fill.state = t.flow.fill.state) :
    GearStays s { t with flow := f } := h.trans ⟨fun _ => rfl, fun idle => fill.trans idle, .refl _⟩

theorem setAcu (h : GearStays s t) (a : Acu) : GearStays s { t with acu := a } := h.trans ⟨fun _ => rfl, id, .refl _⟩

theorem setHr (h : GearStays s t) (r : Hr) : GearStays s { t with hr := r } := h.trans ⟨fun _ => rfl, id, .refl _⟩

theorem grantPass (h : GearStays s t) : GearStays s t.grantPass := by
  have rests := Flow.pass_fill_idle t.flow (flowBudget t.items)
  refine h.trans ⟨fun untold => ?_, fun idle => ?_, ?_⟩
  · rw [State.sq_grantPass]
    split
    · next told =>
      rcases untold with idle | unwaiting
      · rw [rests idle, idle] at told
        exact nomatch told.2
      · exact State.sq_sqFillGranted_of_ne unwaiting
    · rfl
  · rw [State.flow_grantPass, rests idle]
    exact idle
  · rw [State.sq_grantPass]
    split
    · exact .sqFillGranted t
    · exact .refl _

theorem releaseAxle (h : GearStays s t) : GearStays s t.releaseAxle :=
  ite h (h.setFlow { t.flow with axle := .idle } rfl).grantPass

theorem askAxle (h : GearStays s t) (n : Nat) : GearStays s (t.askAxle n) := by
  have freed : GearStays s t.freeAxle := ite h.releaseAxle h
  exact (freed.setFlow { t.freeAxle.flow with axle := t.freeAxle.flow.request t.freeAxle.now n } rfl).grantPass

theorem askLift (h : GearStays s t) (n : Nat) : GearStays s (t.askLift n) :=
  ite h (h.setFlow { t.flow with liftAsked := n, liftGranted := min t.flow.liftGranted n } rfl).grantPass

theorem releaseFill (h : GearStays s t) : GearStays s t.releaseFill := by
  refine ite h (h.trans ?_)
  have unasked : GearStays { t with flow := { t.flow with fill := .idle, fillSite := none } }
      ({ t with flow := { t.flow with fill := .idle, fillSite := none } } : State).grantPass := (refl _).grantPass
  exact ⟨fun _ => unasked.still (.inl rfl), fun _ => unasked.idle rfl, unasked.fills⟩

theorem followHold (h : GearStays s t) : GearStays s t.followHold := by
  unfold State.followHold
  dsimp only
  refine ite h (ite (h.setFlow _ (by rfl)).grantPass (grantPass (h.setFlow _ ?_)))
  show (t.flow.fill.rewait t.now).state = t.flow.fill.state
  unfold FlowEntry.rewait
  split <;> rfl

theorem acuEngage (h : GearStays s t) : GearStays s t.acuEngage := by
  unfold State.acuEngage
  split
  · exact (h.setAcu _).releaseAxle
  · exact (h.setAcu _).releaseAxle
  · exact h.setAcu _
  · exact h
  · exact h

theorem acuRelease (h : GearStays s t) : GearStays s t.acuRelease := by
  unfold State.acuRelease
  split
  · exact ite ((h.setAcu _).askAxle _) h
  · exact ite (h.setAcu _).releaseAxle h
  · exact h
  · exact h
  · exact h

theorem acuFollow (h : GearStays s t) : GearStays s t.acuFollow := ite h (ite h.acuRelease h.acuEngage)

theorem hrMove (h : GearStays s t) (m : Motion) : GearStays s (t.hrMove m) := by
  exact ((h.setHr _).askLift _).setHr _

theorem hrRefresh (h : GearStays s t) : GearStays s t.hrRefresh := by
  have works : ∀ v : State, GearStays s v → GearStays s v.hrWork := fun v hv =>
    ite ((hv.setHr _).hrMove _) (((hv.setHr _).setHr _).hrMove _)
  exact ite (ite h ((h.setHr _).hrMove _)) (ite (works _ (h.setHr _)) (ite ((h.setHr _).hrMove _) h))

theorem unitsFollow (h : GearStays s t) : GearStays s t.unitsFollow :=
  ite h.followHold.acuFollow.hrRefresh h.followHold.acuFollow

end GearStays

/-- A release of the fill entry leaves the gearbox as it is. -/
theorem State.sq_releaseFill (s : State) : s.releaseFill.sq = s.sq := by
  unfold State.releaseFill
  split
  · rfl
  · exact ((GearStays.refl _).grantPass).still (.inl rfl)

theorem State.sq_acuFollow (unwaiting : s.sq.Unwaiting) : s.acuFollow.sq = s.sq :=
  (GearStays.refl s).acuFollow.still (.inr unwaiting)

/-! Ramps. -/

/-- Clutches that begin their ramps together. -/
theorem Sq.clutch_startRamps (cs : List Clutch) (st : ClutchState) (first last : Clutch → Nat) (now : Time) (length : Nat)
    (q : Sq) (c : Clutch) :
    (cs.foldl (fun q c => q.startRamp c st (first c) (last c) now length) q).clutch.get c =
      if c ∈ cs then { q.clutch.get c with state := st, ramp := some ⟨first c, last c, now, length⟩ }
      else q.clutch.get c := by
  induction cs generalizing q with
  | nil => rfl
  | cons d cs ih =>
    rw [List.foldl_cons, ih]
    unfold Sq.startRamp
    dsimp only
    rw [ByClutch.get_set]
    by_cases same : c = d
    · simp [same]
    · simp [same]

/-- Beside the clutches, ramps leave the gearbox as it is. -/
theorem Sq.startRamps_eq (cs : List Clutch) (st : ClutchState) (first last : Clutch → Nat) (now : Time) (length : Nat)
    (q : Sq) :
    cs.foldl (fun q c => q.startRamp c st (first c) (last c) now length) q =
      { q with clutch := (cs.foldl (fun q c => q.startRamp c st (first c) (last c) now length) q).clutch } := by
  induction cs generalizing q with
  | nil => rfl
  | cons d cs ih => exact (ih _).trans rfl

theorem State.clutch_rampOff (s : State) (cs : List Clutch) (length : Nat) (c : Clutch) :
    (s.rampOff cs length).sq.clutch.get c =
      if c ∈ cs then { s.sq.clutch.get c with state := .rampOff, ramp := some ⟨s.clutchCurrent c, 0, s.now, length⟩ }
      else s.sq.clutch.get c :=
  Sq.clutch_startRamps cs .rampOff s.clutchCurrent (fun _ => 0) s.now length s.sq c

theorem State.rampOff_eq (s : State) (cs : List Clutch) (length : Nat) :
    s.rampOff cs length = { s with sq := { s.sq with clutch := (s.rampOff cs length).sq.clutch } } :=
  congrArg (fun q => ({ s with sq := q } : State))
    (Sq.startRamps_eq cs .rampOff s.clutchCurrent (fun _ => 0) s.now length s.sq)

theorem State.clutch_rampOn (s : State) (cs : List Clutch) (last : ClutchItem → Nat) (length : Nat) (c : Clutch) :
    (s.rampOn cs last length).sq.clutch.get c =
      if c ∈ cs then
        { s.sq.clutch.get c with
          state := .rampOn,
          ramp := some ⟨(clutchItem s.items c).holdCurrent, last (clutchItem s.items c), s.now, length⟩ }
      else s.sq.clutch.get c :=
  Sq.clutch_startRamps cs .rampOn (fun c => (clutchItem s.items c).holdCurrent) (fun c => last (clutchItem s.items c)) s.now
    length s.sq c

theorem State.rampOn_eq (s : State) (cs : List Clutch) (last : ClutchItem → Nat) (length : Nat) :
    s.rampOn cs last length = { s with sq := { s.sq with clutch := (s.rampOn cs last length).sq.clutch } } :=
  congrArg (fun q => ({ s with sq := q } : State))
    (Sq.startRamps_eq cs .rampOn (fun c => (clutchItem s.items c).holdCurrent) (fun c => last (clutchItem s.items c)) s.now
      length s.sq)

end Sys2Proof.Machine
end

section
/-! SUPPORT and O53. FILL ends in HOLD, and HOLD in the ramps of each kind of step (R67, R83, R84, R87 to R89, R101, R113). -/

namespace Sys2Proof.Machine

variable {s t u : State} {st : GearStep} {rest : List GearStep}

/-- The event that ends a phase of the started step, its time come. -/
theorem State.stepExpire_phase {ph : Phase} {f : State → GearStep → State} (queue : s.sq.queue = st :: rest)
    (phase : st.phase = some ph) (due : st.phaseLength ≤ elapsed s.now st.phaseStart) :
    s.stepExpire (State.phaseDue · ph) f = .next ((f s st).settle s.sq) := by
  have started : s.sq.started = some st := by
    unfold Sq.started
    rw [queue]
    simp [phase]
  have comes : s.phaseDue ph = some st := by
    unfold State.phaseDue
    rw [started]
    exact if_pos ⟨phase, due⟩
  unfold State.stepExpire
  rw [State.expire_due (due := fun s => (s.phaseDue ph).isSome) (congrArg Option.isSome comes)]
  simp only [comes]

/-- What the end of an event and the work of the job units before it leave alone. -/
theorem JobOnly.settled (work : JobOnly s u) (ends : SettleOnly u t) :
    t.fu = s.fu ∧ t.cs = s.cs ∧ t.inputs = s.inputs ∧ t.mu.conv = s.mu.conv ∧ t.mu.pub = s.mu.pub ∧ t.now = s.now := by
  refine ⟨ends.fu.trans work.fu, ends.cs.trans work.cs, ends.inputs.trans work.inputs, ?_, ?_,
    ends.now.trans (congrArg Lcu.now work.lcu)⟩
  · rw [ends.mu, ← work.mu]
  · rw [ends.mu, ← work.mu]

theorem SettleOnly.flags (h : SettleOnly s t) : t.sq.flags = s.sq.flags := by rw [h.sq]

theorem SettleOnly.ramp (h : SettleOnly s t) (c : Clutch) : (t.sq.clutch.get c).ramp = (s.sq.clutch.get c).ramp := by
  rw [h.clutch c]

/-! FILL (R83). -/

theorem fillEnd_holds (queue : s.sq.queue = st :: rest) (phase : st.phase = some .fill)
    (due : st.phaseLength ≤ elapsed s.now st.phaseStart) :
    CompletesWith .fillEnd s fun t =>
      t.sq.queue =
        { st with
          phase := some .hold, phaseStart := s.now, phaseLength := overOn s.items st.on ClutchItem.holdTime } :: rest ∧
      (∀ c, t.sq.state c = if c ∈ st.on then .hold else s.sq.state c) ∧ t.flow.fill.state = .idle ∧
      t.sq.flags = s.sq.flags ∧ t.fu = s.fu ∧ t.cs = s.cs ∧ t.inputs = s.inputs ∧ t.mu.conv = s.mu.conv ∧
      t.mu.pub = s.mu.pub ∧ t.now = s.now := by
  refine ⟨_, State.stepExpire_phase queue phase due, ?_⟩
  have ends := (SettleOnly.refl (s.fillDone st)).settle s.sq
  have idle : (s.fillDone st).flow.fill.state = .idle := State.fill_releaseFill _
  have sq : (s.fillDone st).sq = _ := State.sq_releaseFill _
  refine ⟨?_, fun c => ?_, ?_, ?_, ((JobOnly.refl s).fillDone st).settled ends⟩
  · rw [ends.queue, sq]
    show _ :: s.sq.queue.tail = _
    rw [queue]
    rfl
  · rw [ends.clutchState, sq]
    exact Sq.state_enterAll _ _ _ c
  · rw [ends.flow, idle]
  · rw [ends.flags, sq]
    rfl

/-! A step that crosses over (R84, R87, R88). -/

/-- The clutches of a step cross over: the on-coming ones rise and the off-going ones fall. -/
structure Crossed (s : State) (st : GearStep) (rest : List GearStep) (last : ClutchItem → Nat) (length : Nat) (t : State) :
    Prop where
  frame : t = { s with sq := t.sq }
  queue : t.sq.queue = { st with phase := some .rampOn, phaseStart := s.now, phaseLength := length } :: rest
  flags : t.sq.flags = s.sq.flags
  clutch : ∀ c, t.sq.clutch.get c =
    if c ∈ st.on then
      { s.sq.clutch.get c with
        state := .rampOn,
        ramp := some ⟨(clutchItem s.items c).holdCurrent, last (clutchItem s.items c), s.now, length⟩ }
    else if c ∈ st.off then
      { s.sq.clutch.get c with state := .rampOff, ramp := some ⟨s.clutchCurrent c, 0, s.now, length⟩ }
    else s.sq.clutch.get c

/-- The ramps of a crossing, the loose clutch forgotten or not. -/
theorem Crossed.ramps (queue : s.sq.queue = st :: rest) (last : ClutchItem → Nat) (length : Nat) (loose : Option Time) :
    Crossed s st rest last length
      (({ s.rampOff st.off length with sq := { (s.rampOff st.off length).sq with looseSync := loose } } : State).setHead
        { st with phase := some .rampOn, phaseStart := s.now, phaseLength := length } |>.rampOn st.on last length) where
  frame := by rw [State.rampOn_eq, State.rampOff_eq]; rfl
  queue := by
    rw [State.rampOn_eq, State.rampOff_eq]
    show _ :: s.sq.queue.tail = _
    rw [queue]
    rfl
  flags := by rw [State.rampOn_eq, State.rampOff_eq]; rfl
  clutch := fun c => by
    rw [State.clutch_rampOn]
    have fallen := s.clutch_rampOff st.off length c
    split
    · refine (congrArg (fun r : ClutchRec => { r with
        state := .rampOn,
        ramp := some ⟨(clutchItem s.items c).holdCurrent, last (clutchItem s.items c), s.now, length⟩ }) fallen).trans ?_
      dsimp only
      split <;> rfl
    · exact fallen

namespace Crossed

variable {last : ClutchItem → Nat} {length : Nat}

theorem state (h : Crossed s st rest last length t) (c : Clutch) :
    t.sq.state c = if c ∈ st.on then .rampOn else if c ∈ st.off then .rampOff else s.sq.state c := by
  unfold Sq.state
  rw [h.clutch]
  split
  · rfl
  · split <;> rfl

theorem ramp (h : Crossed s st rest last length t) (c : Clutch) :
    (t.sq.clutch.get c).ramp =
      if c ∈ st.on then some ⟨(clutchItem s.items c).holdCurrent, last (clutchItem s.items c), s.now, length⟩
      else if c ∈ st.off then some ⟨s.clutchCurrent c, 0, s.now, length⟩
      else (s.sq.clutch.get c).ramp := by
  rw [h.clutch]
  split
  · rfl
  · split <;> rfl

theorem unwaiting (h : Crossed s st rest last length t) : t.sq.Unwaiting := Sq.unwaiting_of_head h.queue nofun

end Crossed

/-- The coupling follows a release deferral: a release that waits is drawn back, any other wanted one stays (R113). -/
theorem State.acuFollow_deferred (flag : s.sq.flags.releaseDeferral = true) :
    (s.running = true → s.acu.coupling = .releaseWait →
      s.acuFollow.acu.coupling = .engaged ∧ s.acuFollow.flow.axle.state = .idle) ∧
    (s.acuWantsReleased = true → s.acu.coupling ≠ .releaseWait → s.acuFollow.acu.coupling = s.acu.coupling) := by
  have release : s.acuRelease =
      if s.acu.coupling = .releaseWait then (s.acuCoupling .engaged).releaseAxle else s := by
    unfold State.acuRelease
    cases coupling : s.acu.coupling <;> simp [flag]
  have engage (waits : s.acu.coupling = .releaseWait) : s.acuEngage = (s.acuCoupling .engaged).releaseAxle := by
    unfold State.acuEngage
    rw [waits]
  refine ⟨fun running waits => ?_, fun wants other => ?_⟩
  · have drawn : s.acuFollow = (s.acuCoupling .engaged).releaseAxle := by
      unfold State.acuFollow
      rw [release, engage waits, if_pos waits, running]
      simp
    rw [drawn]
    exact ⟨State.coupling_releaseAxle _ nofun, State.axle_releaseAxle _⟩
  · unfold State.acuFollow
    rw [release, if_neg other, if_pos wants]
    split <;> rfl

/-- The flags that a step has from RAMP_ON on (R101). -/
def GearStep.rampFlags (st : GearStep) (f : SqFlags) : SqFlags :=
  { f with
    assistWindow := f.assistWindow || ((st.kind = .single ∨ st.kind = .range : Bool) && st.downward)
    releaseDeferral := st.kind = .range ∨ st.kind = .shuttle }

/-- The flags of a step are set, and the coupling follows the deferral of a RANGE or SHUTTLE step (R101, R113). -/
theorem State.rampFlags_acts (unwaiting : s.sq.Unwaiting) (st : GearStep) :
    let t := s.rampFlags st
    t.sq = { s.sq with flags := st.rampFlags s.sq.flags } ∧
    (st.kind = .range ∨ st.kind = .shuttle →
      (s.running = true → s.acu.coupling = .releaseWait → t.acu.coupling = .engaged ∧ t.flow.axle.state = .idle) ∧
      (s.acuWantsReleased = true → s.acu.coupling ≠ .releaseWait → t.acu.coupling = s.acu.coupling)) ∧
    (st.kind ≠ .range → st.kind ≠ .shuttle → t.acu.coupling = s.acu.coupling ∧ t.flow = s.flow) := by
  intro t
  have run : t =
      if st.kind = .range ∨ st.kind = .shuttle then
        ({ s with sq := { s.sq with flags := st.rampFlags s.sq.flags } } : State).acuFollow
      else { s with sq := { s.sq with flags := st.rampFlags s.sq.flags } } := by
    show s.rampFlags st = _
    unfold State.rampFlags
    simp only [decide_eq_true_eq, GearStep.rampFlags]
  have still : ({ s with sq := { s.sq with flags := st.rampFlags s.sq.flags } } : State).sq.Unwaiting := unwaiting
  by_cases defers : st.kind = .range ∨ st.kind = .shuttle
  · rw [if_pos defers] at run
    have follow := State.acuFollow_deferred
      (s := { s with sq := { s.sq with flags := st.rampFlags s.sq.flags } }) (decide_eq_true defers)
    rw [run]
    exact ⟨State.sq_acuFollow still, fun _ => follow, fun range shuttle => absurd defers (not_or.mpr ⟨range, shuttle⟩)⟩
  · rw [if_neg defers] at run
    rw [run]
    exact ⟨rfl, fun crosses => absurd crosses defers, fun _ _ => ⟨rfl, rfl⟩⟩

/-- A fraction of a milliampere is rounded to a neighbour, and a whole one not at all (log 11). -/
theorem freeRound_near (n d : Nat) : (n % d = 0 → freeRound n d = n / d) ∧
    (freeRound n d = n / d ∨ freeRound n d = n / d + 1) := by
  unfold freeRound
  split
  · exact ⟨fun _ => rfl, .inl rfl⟩
  · next fraction =>
    refine ⟨fun whole => absurd whole fraction, ?_⟩
    split
    · exact .inr rfl
    · exact .inl rfl

theorem shuttleCurrent_near (it : ClutchItem) (response : Nat) :
    let share := it.syncCurrent * (3 + response)
    (share % 5 = 0 → shuttleCurrent it response = min it.lockCurrent (share / 5)) ∧
      (shuttleCurrent it response = min it.lockCurrent (share / 5) ∨
        shuttleCurrent it response = min it.lockCurrent (share / 5 + 1)) := by
  obtain ⟨whole, near⟩ := freeRound_near (it.syncCurrent * (3 + response)) 5
  unfold shuttleCurrent
  exact ⟨fun exact => by rw [whole exact], near.imp (fun down => by rw [down]) fun up => by rw [up]⟩

/-- The last current of an on-coming clutch that crosses over. -/
def GearStep.lastCurrent (st : GearStep) (it : ClutchItem) : Nat :=
  if st.kind = .shuttle then shuttleCurrent it st.response else it.syncCurrent

/-- The length of a crossing. -/
def GearStep.crossing (st : GearStep) (items : List (List Word)) : Nat :=
  if st.kind = .shuttle then overOn items st.off ClutchItem.rampTime else overOn items st.on ClutchItem.rampTime

/-- HOLD ends in the crossing of the step, and its flags. -/
theorem State.holdDone_crosses (queue : s.sq.queue = st :: rest) (crosses : st.kind ≠ .free) :
    ∃ v, Crossed s st rest st.lastCurrent (st.crossing s.items) v ∧ s.holdDone st = v.rampFlags st := by
  unfold State.holdDone
  dsimp only
  split
  · next free => exact absurd free crosses
  · next shuttle =>
    have last : st.lastCurrent = fun it => shuttleCurrent it st.response := by
      unfold GearStep.lastCurrent
      simp [shuttle]
    have length : st.crossing s.items = overOn s.items st.off ClutchItem.rampTime := if_pos shuttle
    rw [last, length]
    exact ⟨_, .ramps queue _ _ none, rfl⟩
  all_goals
    next kind =>
      have last : st.lastCurrent = ClutchItem.syncCurrent := by
        unfold GearStep.lastCurrent
        simp [kind]
      have length : st.crossing s.items = overOn s.items st.on ClutchItem.rampTime := if_neg (by simp [kind])
      rw [last, length]
      exact ⟨_, .ramps queue _ _ (s.rampOff st.off (overOn s.items st.on ClutchItem.rampTime)).sq.looseSync, rfl⟩

end Sys2Proof.Machine
end

section
/-! SUPPORT and O53. HOLD ends: a step that crosses over, and a FREE step (R84, R87 to R89). -/

namespace Sys2Proof.Machine

variable {s t u : State} {st : GearStep} {rest : List GearStep}

theorem holdEnd_crosses (queue : s.sq.queue = st :: rest) (phase : st.phase = some .hold)
    (due : st.phaseLength ≤ elapsed s.now st.phaseStart) (apart : ∀ c ∈ st.on, c ∉ st.off) (crosses : st.kind ≠ .free) :
    CompletesWith .holdEnd s fun t =>
      t.sq.queue =
        { st with phase := some .rampOn, phaseStart := s.now, phaseLength := st.crossing s.items } :: rest ∧
      (∀ c, t.sq.state c = if c ∈ st.on then .rampOn else if c ∈ st.off then .rampOff else s.sq.state c) ∧
      (∀ c,
        let it := clutchItem s.items c
        let ramp := (t.sq.clutch.get c).ramp
        let share := it.syncCurrent * (3 + st.response)
        (c ∈ st.on → st.kind ≠ .shuttle →
          ramp = some ⟨it.holdCurrent, it.syncCurrent, s.now, st.crossing s.items⟩) ∧
        (c ∈ st.on → st.kind = .shuttle →
          ∃ last, ramp = some ⟨it.holdCurrent, last, s.now, st.crossing s.items⟩ ∧
            (share % 5 = 0 → last = min it.lockCurrent (share / 5)) ∧
            (last = min it.lockCurrent (share / 5) ∨ last = min it.lockCurrent (share / 5 + 1))) ∧
        (c ∈ st.off → ramp = some ⟨s.clutchCurrent c, 0, s.now, st.crossing s.items⟩) ∧
        (c ∈ st.off → s.sq.state c = .locked → ramp = some ⟨it.lockCurrent, 0, s.now, st.crossing s.items⟩) ∧
        (c ∉ st.on → c ∉ st.off → ramp = (s.sq.clutch.get c).ramp)) ∧
      t.sq.flags = st.rampFlags s.sq.flags ∧
      (st.kind = .range ∨ st.kind = .shuttle →
        (s.running = true → s.acu.coupling = .releaseWait → t.acu.coupling = .engaged ∧ t.flow.axle.state = .idle) ∧
        (s.acuWantsReleased = true → s.acu.coupling ≠ .releaseWait → t.acu.coupling = s.acu.coupling)) ∧
      (st.kind ≠ .range → st.kind ≠ .shuttle → t.acu.coupling = s.acu.coupling ∧ t.flow = s.flow) ∧
      t.fu = s.fu ∧ t.cs = s.cs ∧ t.inputs = s.inputs ∧ t.mu.conv = s.mu.conv ∧ t.mu.pub = s.mu.pub ∧ t.now = s.now := by
  refine ⟨_, State.stepExpire_phase queue phase due, ?_⟩
  have ends := (SettleOnly.refl (s.holdDone st)).settle s.sq
  have work := ((JobOnly.refl s).holdDone st).settled ends
  obtain ⟨v, crossed, run⟩ := State.holdDone_crosses queue crosses
  obtain ⟨sq, defers, others⟩ := State.rampFlags_acts crossed.unwaiting st
  rw [run] at ends work ⊢
  generalize (v.rampFlags st).settle s.sq = t at ends work
  have frame := crossed.frame
  have acu : v.acu = s.acu := by rw [frame]
  have flow : v.flow = s.flow := by rw [frame]
  have running : v.running = s.running := by rw [frame]; rfl
  have wants : v.acuWantsReleased = s.acuWantsReleased := by rw [frame]; rfl
  have coupling := ends.coupling
  rw [acu, running, wants] at defers
  rw [acu, flow] at others
  have ramp := fun c => (ends.ramp c).trans
    ((congrArg (fun q : Sq => (q.clutch.get c).ramp) sq).trans (crossed.ramp c))
  refine ⟨?_, fun c => ?_, fun c => ⟨fun on kind => ?_, fun on kind => ?_, fun off => ?_, fun off locked => ?_,
    fun on off => ?_⟩, ?_, ?_, ?_, work⟩
  · rw [ends.queue, sq]
    exact crossed.queue
  · rw [ends.clutchState, sq]
    exact crossed.state c
  · rw [ramp, if_pos on]
    unfold GearStep.lastCurrent
    rw [if_neg kind]
  · rw [ramp, if_pos on]
    unfold GearStep.lastCurrent
    rw [if_pos kind]
    exact ⟨_, rfl, shuttleCurrent_near _ _⟩
  · rw [ramp, if_neg fun on => apart c on off, if_pos off]
  · rw [ramp, if_neg fun on => apart c on off, if_pos off]
    have present : s.clutchCurrent c = (clutchItem s.items c).lockCurrent := by
      unfold Sq.state at locked
      unfold State.clutchCurrent
      dsimp only
      rw [locked]
    rw [present]
  · rw [ramp, if_neg on, if_neg off]
  · rw [ends.flags, sq, ← crossed.flags]
  · rw [coupling, ends.flow]
    exact defers
  · rw [coupling, ends.flow]
    exact others

/-! A FREE step (R89). -/

theorem holdEnd_free (queue : s.sq.queue = st :: rest) (phase : st.phase = some .hold)
    (due : st.phaseLength ≤ elapsed s.now st.phaseStart) (kind : st.kind = .free)
    (gear : (st.on.any fun c => c = .cf || c = .cr) = false) :
    CompletesWith .holdEnd s fun t =>
      t.sq.queue = { st with phase := some .rampOn, phaseStart := s.now, phaseLength := 50 } :: rest ∧
      (∀ c, t.sq.state c = if c ∈ st.on then .rampOn else if c ∈ st.off then .opened else s.sq.state c) ∧
      (∀ c ∈ st.on, (t.sq.clutch.get c).ramp =
        some ⟨(clutchItem s.items c).holdCurrent, (clutchItem s.items c).lockCurrent, s.now, 50⟩) ∧
      t.sq.flags = s.sq.flags ∧ t.fu = s.fu ∧ t.cs = s.cs ∧ t.now = s.now := by
  refine ⟨_, State.stepExpire_phase queue phase due, ?_⟩
  have ends := (SettleOnly.refl (s.holdDone st)).settle s.sq
  obtain ⟨fu, cs, -, -, -, now⟩ := ((JobOnly.refl s).holdDone st).settled ends
  have run : s.holdDone st = (({ s with sq := s.sq.enterAll st.off .opened } : State).setHead
      { st with phase := some .rampOn, phaseStart := s.now, phaseLength := 50 }).rampOn st.on ClutchItem.lockCurrent 50 := by
    unfold State.holdDone
    dsimp only
    split
    · exact if_neg (by rw [gear]; exact Bool.false_ne_true)
    all_goals
      next other => exact nomatch kind.symm.trans other
  generalize (s.holdDone st).settle s.sq = t at ends fu cs now
  rw [run] at ends
  have clutch := fun c => State.clutch_rampOn (({ s with sq := s.sq.enterAll st.off .opened } : State).setHead
    { st with phase := some .rampOn, phaseStart := s.now, phaseLength := 50 }) st.on ClutchItem.lockCurrent 50 c
  refine ⟨?_, fun c => ?_, fun c on => ?_, ?_, fu, cs, now⟩
  · rw [ends.queue, State.rampOn_eq]
    show _ :: s.sq.queue.tail = _
    rw [queue]
    rfl
  · rw [ends.clutchState]
    unfold Sq.state
    rw [clutch]
    split
    · rfl
    · exact Sq.state_enterAll s.sq st.off .opened c
  · rw [ends.ramp, clutch, if_pos on]
    rfl
  · rw [ends.flags, State.rampOn_eq]
    rfl

/-! A step that ends with nothing left to do. -/

/-- Steps are planned, and an end of the pedal is taken, by the clutches and the order as taken alone. -/
structure Sq.SameBox (p q : Sq) : Prop where
  clutch : q.clutch = p.clutch
  taken : q.taken = p.taken
  target : q.autoTarget = p.autoTarget

namespace Sq.SameBox

variable {p q : Sq}

theorem box (h : p.SameBox q) : q.box = p.box := by
  unfold Sq.box Sq.takeUp Sq.range Sq.step Sq.locked Sq.state
  rw [h.clutch]

theorem engaged (h : p.SameBox q) : q.engaged = p.engaged := by
  unfold Sq.engaged Sq.locked Sq.state
  rw [h.clutch]

theorem plan (h : p.SameBox q) (band : Band) (base : Conf) : q.plan band base = p.plan band base := by
  unfold Sq.plan Sq.wish Sq.safeNeutral Sq.auto
  rw [h.taken, h.target]

end Sq.SameBox

/-- What clears the flags leaves the gearbox but for the flags, where no step waits for flow. -/
theorem State.sq_clearFlags (unwaiting : s.sq.Unwaiting) : s.clearFlags.sq = { s.sq with flags := .clear } := by
  have unfrozen : ∀ (c : Prop) [Decidable c] (v : State), (if c then v.hrUnfreeze else v).sq = v.sq := by
    intro c _ v
    split <;> rfl
  unfold State.clearFlags
  dsimp only
  split
  · rw [State.sq_acuFollow (by rw [unfrozen]; exact unwaiting), unfrozen]
  · rw [unfrozen]

theorem State.inchEntry_none (none : s.sq.engaged = none) : s.inchEntry = s := by
  unfold State.inchEntry
  rw [none]

/-- With no step queued and nothing to plan, no step is queued. -/
theorem State.sq_rebuild_empty (empty : s.sq.queue = []) (done : s.sq.plan s.pub.band s.sq.box = []) :
    s.rebuild.sq = s.sq := by
  have started : s.sq.started = none := by
    unfold Sq.started
    rw [empty]
  unfold State.rebuild
  rw [started, done]
  split
  · rfl
  · show ({ s.sq with queue := [].take 4 } : Sq) = s.sq
    rw [List.take_nil, ← empty]

theorem State.tryStart_empty (empty : s.sq.queue = []) : s.tryStart = s := by
  unfold State.tryStart Sq.waitingHead
  rw [empty]

/-- A step ends without an observation (R80, R91, R101). -/
theorem State.finishStep_false (queue : s.sq.queue = st :: rest) :
    s.finishStep false = ({ s with sq := { s.sq with queue := rest } } : State).clearFlags.inchEntry.rebuild := by
  have observed : s.sq.observe st false = s.sq := by
    unfold Sq.observe
    split <;> simp
  unfold State.finishStep
  rw [queue]
  dsimp only
  rw [observed]

/-- The last step ends in a box that meets the wish, no direction engaged. -/
theorem State.sq_endStep_last (queue : s.sq.queue = [st]) (none : s.sq.engaged = none)
    (done : s.sq.plan s.pub.band s.sq.box = []) :
    (s.endStep false).sq = { s.sq with queue := [], flags := .clear } := by
  have cleared := State.sq_clearFlags (s := { s with sq := { s.sq with queue := [] } }) (Sq.unwaiting_of_empty rfl)
  have mu := ((JobOnly.refl ({ s with sq := { s.sq with queue := [] } } : State)).clearFlags).mu
  unfold State.endStep
  rw [State.finishStep_false queue]
  generalize ({ s with sq := { s.sq with queue := [] } } : State).clearFlags = v at cleared mu
  have same : s.sq.SameBox v.sq := by rw [cleared]; exact ⟨rfl, rfl, rfl⟩
  have empty : v.sq.queue = [] := by rw [cleared]
  have pub : v.pub = s.pub := congrArg Mu.pub mu
  rw [State.inchEntry_none (same.engaged.trans none)]
  have rebuilt := State.sq_rebuild_empty empty (by rw [pub, same.plan, same.box]; exact done)
  rw [State.tryStart_empty (by rw [rebuilt]; exact empty), rebuilt, cleared]

theorem holdEnd_swaps (queue : s.sq.queue = [st]) (phase : st.phase = some .hold)
    (due : st.phaseLength ≤ elapsed s.now st.phaseStart) (kind : st.kind = .free)
    (direction : (st.on.any fun c => c = .cf || c = .cr) = true)
    (none : ((s.sq.enterAll st.off .opened).enterAll st.on .sync).engaged = none)
    (done : ((s.sq.enterAll st.off .opened).enterAll st.on .sync).plan s.pub.band
      ((s.sq.enterAll st.off .opened).enterAll st.on .sync).box = []) :
    CompletesWith .holdEnd s fun t =>
      t.sq.queue = [] ∧
      (∀ c, t.sq.state c = if c ∈ st.on then .sync else if c ∈ st.off then .opened else s.sq.state c) ∧
      (∀ c ∈ st.on, (t.sq.clutch.get c).ramp = .none) ∧
      t.sq.flags = .clear ∧ t.fu = s.fu ∧ t.cs = s.cs ∧ t.now = s.now := by
  refine ⟨_, State.stepExpire_phase queue phase due, ?_⟩
  have ends := (SettleOnly.refl (s.holdDone st)).settle s.sq
  obtain ⟨fu, cs, -, -, -, now⟩ := ((JobOnly.refl s).holdDone st).settled ends
  have run : s.holdDone st = s.swapDirection st := by
    unfold State.holdDone
    dsimp only
    split
    · exact if_pos direction
    all_goals
      next other => exact nomatch kind.symm.trans other
  have same : ((s.sq.enterAll st.off .opened).enterAll st.on .sync).SameBox
      { (s.sq.enterAll st.off .opened).enterAll st.on .sync with looseSync := s.syncBegin st.on } := ⟨rfl, rfl, rfl⟩
  have last : (s.swapDirection st).sq = _ := State.sq_endStep_last queue (same.engaged.trans none)
    (by rw [same.plan, same.box]; exact done)
  generalize (s.holdDone st).settle s.sq = t at ends fu cs now
  rw [run] at ends
  refine ⟨?_, fun c => ?_, fun c on => ?_, ?_, fu, cs, now⟩
  · rw [ends.queue, last]
  · rw [ends.clutchState, last]
    refine (Sq.state_enterAll _ st.on .sync c).trans ?_
    rw [Sq.state_enterAll]
  · rw [ends.ramp, last]
    refine (congrArg ClutchRec.ramp (Sq.clutch_enterAll _ st.on .sync c)).trans ?_
    rw [if_pos on]
    rfl
  · rw [ends.flags, last]

/-- Settles O53. -/
theorem fillAndHoldEnd : Obligations.FillAndHoldEnd := by
  refine ⟨fun st rest s queue phase due => fillEnd_holds queue phase due,
    fun st rest s queue phase due apart kind => ?_,
    fun st rest s queue phase due kind apart => ⟨fun gear => holdEnd_free queue phase due kind gear,
      fun direction last none done => ?_⟩⟩
  · refine holdEnd_crosses queue phase due apart fun free => ?_
    simp [free] at kind
  · subst last
    exact holdEnd_swaps queue phase due kind direction none done

end Sys2Proof.Machine
end

section
/-! SUPPORT and O52. The plan: its steps in the order of the rows of R78, and where they end. -/

namespace Sys2Proof.Machine

/-! Ends of steps that follow each other. -/

theorem endOf_append (b : Conf) (l m : List GearStep) : endOf b (l ++ m) = endOf (endOf b l) m := by
  induction l generalizing b with
  | nil => rfl
  | cons st l ih => exact ih _

theorem endOf_getLast {b : Conf} {l : List GearStep} {st : GearStep} (last : l.getLast? = some st) :
    st.result = endOf b l := by
  obtain ⟨l, rfl⟩ := List.getLast?_eq_some_iff.mp last
  rw [endOf_append]
  rfl

/-! Changes of gear. -/

theorem gearRange_gearOf (r : Range) (t : StepNo) : gearRange (gearOf r t) = r ∧ gearStepNo (gearOf r t) = t := by
  cases r <;> cases t <;> exact ⟨rfl, rfl⟩

/-- One change of gear is a SINGLE or a RANGE step that nothing has started, up or down. -/
theorem gearChange_step (d : Dir) (r : Range) (t : StepNo) (g : Nat) :
    let st := gearChange d r t g
    (st.kind = .single ∨ st.kind = .range) ∧ st.phase = none ∧
      (st.downward = true ↔ g < gearOf r t) ∧ (st.upward = true ↔ gearOf r t < g) := by
  refine ⟨?_, ?_, decide_eq_true_iff, decide_eq_true_iff⟩
  all_goals
    unfold gearChange
    dsimp only
    split
  · exact .inl rfl
  · split <;> exact .inr rfl
  · rfl
  · split <;> rfl

/-- What a step works on. -/
def GearStep.shape (st : GearStep) : StepKind × List Clutch × List Clutch := (st.kind, st.on, st.off)

/-- The clutches of a change to another gear: those of the range and of the step that change. -/
theorem gearChange_shape (d : Dir) (r0 : Range) (t0 : StepNo) (g : Nat) (other : gearOf r0 t0 ≠ g) (low : 1 ≤ g)
    (high : g ≤ 12) :
    (gearChange d r0 t0 g).shape =
      (if gearRange g = r0 then .single else .range,
        (if gearRange g = r0 then [] else [(gearRange g).clutch]) ++
          (if gearStepNo g = t0 then [] else [(gearStepNo g).clutch]),
        (if gearRange g = r0 then [] else [r0.clutch]) ++ (if gearStepNo g = t0 then [] else [t0.clutch])) := by
  have back := gearOf_gearRange low high
  unfold gearChange GearStep.shape
  dsimp only
  by_cases range : gearRange g = r0
  · have step : gearStepNo g ≠ t0 := by
      rintro rfl
      exact other (range ▸ back)
    simp [range, step, GearStep.fresh]
  · by_cases step : gearStepNo g = t0
    · simp [range, step, GearStep.fresh]
    · simp [range, step, GearStep.fresh]

/-- The gears passed on a way, from one end to the other. -/
theorem gearWalk_eq (n a g : Nat) (reach : (g - a) + (a - g) ≤ n) :
    gearWalk n a g = (List.range ((g - a) + (a - g))).map fun i => if a < g then a + i + 1 else a - i - 1 := by
  induction n generalizing a with
  | zero =>
    have : (g - a) + (a - g) = 0 := by omega
    rw [this]
    rfl
  | succ n ih =>
    unfold gearWalk
    split
    · next up =>
      rw [ih (a + 1) (by omega), show (g - a) + (a - g) = ((g - (a + 1)) + (a + 1 - g)) + 1 by omega,
        List.range_succ_eq_map, List.map_cons, List.map_map]
      refine congrArg (List.cons _) (List.map_congr_left fun i inside => ?_)
      rw [List.mem_range] at inside
      simp only [Function.comp, Nat.succ_eq_add_one]
      rw [if_pos (by omega)]
      omega
    · next high =>
      split
      · next down =>
        rw [ih (a - 1) (by omega), show (g - a) + (a - g) = ((g - (a - 1)) + (a - 1 - g)) + 1 by omega,
          List.range_succ_eq_map, List.map_cons, List.map_map]
        refine congrArg (List.cons _) (List.map_congr_left fun i inside => ?_)
        rw [List.mem_range] at inside
        simp only [Function.comp, Nat.succ_eq_add_one]
        rw [if_neg (by omega)]
        omega
      · rw [show (g - a) + (a - g) = 0 by omega]
        rfl

theorem gearChanges_results (d : Dir) (r : Range) (t : StepNo) (gs : List Nat) :
    (gearChanges d r t gs).map GearStep.result = gs.map fun g => ⟨some d, some (gearRange g), some (gearStepNo g)⟩ := by
  induction gs generalizing r t with
  | nil => rfl
  | cons g gs ih => rw [gearChanges, List.map_cons, List.map_cons, gearChange_result, ih]

theorem gearChanges_steps (d : Dir) (r : Range) (t : StepNo) (gs : List Nat) :
    ∀ st ∈ gearChanges d r t gs, (st.kind = .single ∨ st.kind = .range) ∧ st.phase = none := by
  induction gs generalizing r t with
  | nil => exact fun _ member => absurd member List.not_mem_nil
  | cons g gs ih =>
    intro st member
    rcases List.mem_cons.mp member with rfl | later
    · obtain ⟨kind, phase, -⟩ := gearChange_step d r t g
      exact ⟨kind, phase⟩
    · exact ih _ _ st later

/-- The way to a gear, one gear at a time. -/
theorem gearChanges_walk (d : Dir) (r : Range) (t : StepNo) {g : Nat} (low : 1 ≤ g) (high : g ≤ 12) {n : Nat}
    (reach : (g - gearOf r t) + (gearOf r t - g) ≤ n) :
    let steps := gearChanges d r t (gearWalk n (gearOf r t) g)
    steps.length = (g - gearOf r t) + (gearOf r t - g) ∧
      ∀ i (h : i < steps.length),
        steps[i].result.gear = some (if gearOf r t < g then gearOf r t + i + 1 else gearOf r t - i - 1) := by
  have bounds := gearOf_bounds r t
  intro steps
  have results : steps.map GearStep.result = _ := gearChanges_results d r t (gearWalk n (gearOf r t) g)
  rw [gearWalk_eq _ _ _ reach, List.map_map] at results
  have length : steps.length = (g - gearOf r t) + (gearOf r t - g) := by
    rw [← List.length_map (f := GearStep.result), results, List.length_map, List.length_range]
  refine ⟨length, fun i inside => ?_⟩
  have result : steps[i].result = (steps.map GearStep.result)[i]'(by rw [List.length_map]; exact inside) :=
    (List.getElem_map _).symm
  rw [result]
  simp only [results, List.getElem_map, List.getElem_range, Function.comp, Conf.gear]
  rw [gearOf_gearRange (by split <;> omega) (by split <;> omega)]

/-- Every step of a way goes the way. -/
theorem gearChanges_direction (d : Dir) {g : Nat} (low : 1 ≤ g) (high : g ≤ 12) (n : Nat) (r : Range) (t : StepNo) :
    ∀ st ∈ gearChanges d r t (gearWalk n (gearOf r t) g),
      (st.downward = true ↔ g < gearOf r t) ∧ (st.upward = true ↔ gearOf r t < g) := by
  have next (n a : Nat) (la : 1 ≤ a) (ha : a ≤ 12)
      (ih : ∀ r t, ∀ st ∈ gearChanges d r t (gearWalk n (gearOf r t) g),
        (st.downward = true ↔ g < gearOf r t) ∧ (st.upward = true ↔ gearOf r t < g)) (st : GearStep)
      (later : st ∈ gearChanges d (gearRange a) (gearStepNo a) (gearWalk n a g)) :
      (st.downward = true ↔ g < a) ∧ (st.upward = true ↔ a < g) ∧ a ≠ g := by
    have ih := ih (gearRange a) (gearStepNo a)
    rw [gearOf_gearRange la ha] at ih
    refine ⟨(ih st later).1, (ih st later).2, ?_⟩
    rintro rfl
    cases n <;> simp [gearWalk, gearChanges] at later
  induction n generalizing r t with
  | zero => exact fun _ member => absurd member List.not_mem_nil
  | succ n ih =>
    have bounds := gearOf_bounds r t
    intro st member
    unfold gearWalk at member
    split at member
    · next up =>
      rcases List.mem_cons.mp member with rfl | later
      · obtain ⟨-, -, down, upward⟩ := gearChange_step d r t (gearOf r t + 1)
        exact ⟨by rw [down]; omega, by rw [upward]; omega⟩
      · obtain ⟨down, upward, way⟩ := next n _ (by omega) (by omega) ih st later
        exact ⟨by rw [down]; omega, by rw [upward]; omega⟩
    · split at member
      · next high down =>
        rcases List.mem_cons.mp member with rfl | later
        · obtain ⟨-, -, down, upward⟩ := gearChange_step d r t (gearOf r t - 1)
          exact ⟨by rw [down]; omega, by rw [upward]; omega⟩
        · obtain ⟨down, upward, way⟩ := next n _ (by omega) (by omega) ih st later
          exact ⟨by rw [down]; omega, by rw [upward]; omega⟩
      · exact absurd member List.not_mem_nil

/-- A way ends in its gear. -/
theorem endOf_gearWalk (d : Dir) {g : Nat} (low : 1 ≤ g) (high : g ≤ 12) (n : Nat) (r : Range) (t : StepNo)
    (reach : (g - gearOf r t) + (gearOf r t - g) ≤ n) :
    endOf ⟨some d, some r, some t⟩ (gearChanges d r t (gearWalk n (gearOf r t) g)) =
      ⟨some d, some (gearRange g), some (gearStepNo g)⟩ := by
  have arrived (here : gearOf r t = g) : (⟨some d, some r, some t⟩ : Conf) =
      ⟨some d, some (gearRange g), some (gearStepNo g)⟩ := by
    obtain ⟨range, step⟩ := gearRange_gearOf r t
    rw [← here, range, step]
  induction n generalizing r t with
  | zero => exact arrived (by omega)
  | succ n ih =>
    have bounds := gearOf_bounds r t
    have next (a : Nat) (la : 1 ≤ a) (ha : a ≤ 12) (near : (g - a) + (a - g) ≤ n) :
        endOf (gearChange d r t a).result (gearChanges d (gearRange a) (gearStepNo a) (gearWalk n a g)) =
          ⟨some d, some (gearRange g), some (gearStepNo g)⟩ := by
      have back := gearOf_gearRange la ha
      have ih := ih (gearRange a) (gearStepNo a) (by rw [back]; exact near) fun here => by
        rw [back] at here
        rw [here]
      rw [back] at ih
      rw [gearChange_result]
      exact ih
    unfold gearWalk
    split
    · exact next _ (by omega) (by omega) (by omega)
    · split
      · exact next _ (by omega) (by omega) (by omega)
      · exact arrived (by omega)

end Sys2Proof.Machine
end

section
/-! SUPPORT and O52. The plan to a wish: its shape by the rows of R78, and its end at the wish (R77, R78). -/

namespace Sys2Proof.Machine

/-! The three parts of a plan: the direction, the gear, the engagement. -/

/-- The row of the direction (R78, rows 1 and 2). -/
def Sq.turnSteps (q : Sq) (band : Band) (base : Conf) : List GearStep :=
  match base.dir, q.wish.1 with
  | some d, none => [neutralizeStep base d q.safeNeutral]
  | some d, some w =>
    if d = w then []
    else [.fresh (if band = .pressed then .free else .shuttle) [w.clutch] [d.clutch] { base with dir := some w }]
  | none, _ => []

/-- The configuration once the direction is settled. -/
def Conf.turned (base : Conf) (w : Option Dir) : Conf :=
  match base.dir with
  | some _ => { base with dir := w }
  | none => base

/-- The rows of the gear (R78, rows 3 and 4). -/
def Sq.planGears (q : Sq) (band : Band) (base : Conf) : List GearStep :=
  gearSteps (base.turned q.wish.1) q.wish.1.isSome (band = .pressed) q.auto q.wish.2

/-- The row of the engagement (R78, row 5). -/
def Sq.engageSteps (q : Sq) (base : Conf) : List GearStep :=
  match base.dir, q.wish.1 with
  | none, some w => [.fresh .engage [w.clutch] [] ⟨some w, some (gearRange q.wish.2), some (gearStepNo q.wish.2)⟩]
  | _, _ => []

theorem Sq.plan_eq (q : Sq) (band : Band) (base : Conf) :
    q.plan band base = q.turnSteps band base ++ q.planGears band base ++ q.engageSteps base := by
  unfold Sq.plan Sq.turnSteps Sq.planGears Sq.engageSteps Conf.turned
  generalize q.wish = wish
  obtain ⟨w, g⟩ := wish
  cases base.dir <;> cases w <;> simp

@[simp] theorem Conf.turned_range (base : Conf) (w : Option Dir) : (base.turned w).range = base.range := by
  unfold Conf.turned
  split <;> rfl

@[simp] theorem Conf.turned_step (base : Conf) (w : Option Dir) : (base.turned w).step = base.step := by
  unfold Conf.turned
  split <;> rfl

theorem Conf.turned_some {base : Conf} (moves : base.dir ≠ none) (w : Option Dir) : (base.turned w).dir = w := by
  unfold Conf.turned
  split
  · rfl
  · next still => exact absurd still moves

theorem Conf.turned_none {base : Conf} (still : base.dir = none) (w : Option Dir) : base.turned w = base := by
  unfold Conf.turned
  rw [still]

/-! No step of a plan is started, and a NEUTRALIZE knows whether SAFE_NEUTRAL built it (R90). -/

theorem freeSteps_free (b : Conf) (r : Range) (t : StepNo) : ∀ st ∈ freeSteps b r t, st.kind = .free ∧ st.phase = none := by
  intro st member
  rcases List.mem_append.mp member with range | step
  · split at range
    · exact absurd range List.not_mem_nil
    · rw [List.mem_singleton.mp range]
      exact ⟨rfl, rfl⟩
  · split at step
    · exact absurd step List.not_mem_nil
    · rw [List.mem_singleton.mp step]
      exact ⟨rfl, rfl⟩

theorem gearSteps_fresh (b : Conf) (wishes pressed auto : Bool) (g : Nat) :
    ∀ st ∈ gearSteps b wishes pressed auto g, st.phase = none ∧ st.kind ≠ .neutralize := by
  have free : ∀ st ∈ freeSteps b (gearRange g) (gearStepNo g), st.phase = none ∧ st.kind ≠ .neutralize := by
    intro st member
    obtain ⟨kind, phase⟩ := freeSteps_free b _ _ st member
    exact ⟨phase, by rw [kind]; decide⟩
  have changes (d : Dir) (r : Range) (t : StepNo) (gs : List Nat) :
      ∀ st ∈ gearChanges d r t gs, st.phase = none ∧ st.kind ≠ .neutralize := by
    intro st member
    obtain ⟨kind, phase⟩ := gearChanges_steps d r t gs st member
    exact ⟨phase, by rcases kind with kind | kind <;> rw [kind] <;> decide⟩
  unfold gearSteps
  dsimp only
  split
  · split
    · exact free
    · split
      · exact changes _ _ _ _
      · exact changes _ _ _ _
  · exact free

theorem Sq.plan_fresh (q : Sq) (band : Band) (base : Conf) :
    ∀ st ∈ q.plan band base, st.phase = none ∧ (st.kind = .neutralize → st.zeroRamp = decide (takenSlot q.taken = 0)) := by
  intro st member
  rw [Sq.plan_eq, List.mem_append, List.mem_append] at member
  rcases member with (turn | gear) | engage
  · unfold Sq.turnSteps at turn
    split at turn
    · rw [List.mem_singleton.mp turn]
      exact ⟨rfl, fun _ => rfl⟩
    · split at turn
      · exact absurd turn List.not_mem_nil
      · rw [List.mem_singleton.mp turn]
        refine ⟨rfl, fun neutral => ?_⟩
        unfold GearStep.fresh at neutral
        dsimp only at neutral
        split at neutral <;> cases neutral
    · exact absurd turn List.not_mem_nil
  · obtain ⟨phase, other⟩ := gearSteps_fresh _ _ _ _ _ st gear
    exact ⟨phase, fun neutral => absurd neutral other⟩
  · unfold Sq.engageSteps at engage
    split at engage
    · rw [List.mem_singleton.mp engage]
      exact ⟨rfl, nofun⟩
    · exact absurd engage List.not_mem_nil

/-! A plan ends at the wish. -/

theorem endOf_gearSteps (b : Conf) (wishes pressed auto : Bool) {g : Nat} (low : 1 ≤ g) (high : g ≤ 12) :
    endOf b (gearSteps b wishes pressed auto g) = ⟨b.dir, some (gearRange g), some (gearStepNo g)⟩ := by
  have free := (chained_freeSteps b (gearRange g) (gearStepNo g)).2
  obtain ⟨dir, range, step⟩ := b
  unfold gearSteps
  split
  · next d r t hdir hrange hstep =>
    obtain ⟨rfl, rfl, rfl⟩ : dir = some d ∧ range = some r ∧ step = some t := ⟨hdir, hrange, hstep⟩
    have bounds := gearOf_bounds r t
    split
    · exact free
    · split
      · exact endOf_gearWalk d low high 11 r t (by omega)
      · split
        · next here =>
          obtain ⟨back, back'⟩ := gearRange_gearOf r t
          rw [← here, back, back']
          rfl
        · exact gearChange_result d r t g
  · exact free

theorem Sq.endOf_plan (q : Sq) (band : Band) (base : Conf) (low : 1 ≤ q.wish.2) (high : q.wish.2 ≤ 12) :
    endOf base (q.plan band base) = ⟨q.wish.1, some (gearRange q.wish.2), some (gearStepNo q.wish.2)⟩ := by
  have turn : endOf base (q.turnSteps band base) = base.turned q.wish.1 := by
    obtain ⟨dir, range, step⟩ := base
    unfold Sq.turnSteps Conf.turned
    cases dir with
    | none => rfl
    | some d =>
      cases q.wish.1 with
      | none => rfl
      | some w =>
        dsimp only
        split
        · next same => rw [same]; rfl
        · rfl
  have gear := endOf_gearSteps (base.turned q.wish.1) q.wish.1.isSome (band = .pressed) q.auto low high
  rw [Sq.plan_eq, endOf_append, endOf_append, turn]
  unfold Sq.planGears
  rw [gear]
  unfold Sq.engageSteps
  cases dir : base.dir with
  | none =>
    rw [Conf.turned_none dir, dir]
    cases q.wish.1 <;> rfl
  | some d =>
    rw [Conf.turned_some (by rw [dir]; nofun)]
    rfl

/-- Nothing is planned exactly where the box meets the wish. -/
theorem Sq.plan_nil (q : Sq) (band : Band) (base : Conf) (low : 1 ≤ q.wish.2) (high : q.wish.2 ≤ 12) :
    q.plan band base = [] ↔
      base.dir = q.wish.1 ∧ base.range = some (gearRange q.wish.2) ∧ base.step = some (gearStepNo q.wish.2) := by
  constructor
  · intro empty
    have ends := q.endOf_plan band base low high
    rw [empty] at ends
    have ends : base = _ := ends
    rw [ends]
    exact ⟨rfl, rfl, rfl⟩
  · rintro ⟨dir, range, step⟩
    obtain ⟨d, r, t⟩ := base
    obtain ⟨rfl, rfl, rfl⟩ : d = _ ∧ r = _ ∧ t = _ := ⟨dir, range, step⟩
    have free (dir : Option Dir) : freeSteps ⟨dir, some (gearRange q.wish.2), some (gearStepNo q.wish.2)⟩
        (gearRange q.wish.2) (gearStepNo q.wish.2) = [] := by
      unfold freeSteps
      simp
    have back := gearOf_gearRange low high
    have walk : gearWalk 11 q.wish.2 q.wish.2 = [] := by
      rw [gearWalk_eq _ _ _ (by omega), Nat.sub_self]
      rfl
    rw [Sq.plan_eq]
    unfold Sq.turnSteps Sq.planGears Sq.engageSteps Conf.turned gearSteps
    cases q.wish.1 with
    | none => simp [free]
    | some w => simp [free, back, walk, gearChanges]

/-! The shapes of its steps. -/

/-- What the row of the direction works on. -/
theorem Sq.turnSteps_shapes (q : Sq) (band : Band) (base : Conf) :
    (q.turnSteps band base).map GearStep.shape =
      match base.dir, q.wish.1 with
      | some d, none => [(.neutralize, [], [d.clutch])]
      | some d, some w => if d = w then [] else [(if band = .pressed then .free else .shuttle, [w.clutch], [d.clutch])]
      | none, _ => [] := by
  unfold Sq.turnSteps
  cases base.dir with
  | none => rfl
  | some d =>
    cases q.wish.1 with
    | none => rfl
    | some w =>
      dsimp only
      split <;> rfl

theorem freeSteps_shapes (b : Conf) (r : Range) (t : StepNo) :
    (freeSteps b r t).map GearStep.shape =
      (if b.range = some r then [] else [(.free, [r.clutch], (b.range.map Range.clutch).toList)]) ++
        if b.step = some t then [] else [(.free, [t.clutch], (b.step.map StepNo.clutch).toList)] := by
  unfold freeSteps
  dsimp only
  rw [List.map_append]
  congr 1
  · split <;> rfl
  · split <;> rfl

theorem Sq.engageSteps_shapes (q : Sq) (base : Conf) :
    (q.engageSteps base).map GearStep.shape =
      match base.dir, q.wish.1 with
      | none, some w => [(.engage, [w.clutch], [])]
      | _, _ => [] := by
  unfold Sq.engageSteps
  cases base.dir <;> cases q.wish.1 <;> rfl

/-- The gear is changed by FREE steps where no direction stays engaged or a gear is missing (R78, row 3; log 28). -/
theorem Sq.planGears_free {q : Sq} {band : Band} {base : Conf}
    (free : base.dir = none ∨ q.wish.1 = none ∨ band = .pressed ∨ base.range = none ∨ base.step = none) :
    q.planGears band base = freeSteps (base.turned q.wish.1) (gearRange q.wish.2) (gearStepNo q.wish.2) := by
  unfold Sq.planGears gearSteps
  dsimp only
  split
  · next d r t dir range step =>
    rw [Conf.turned_range] at range
    rw [Conf.turned_step] at step
    have moves : base.dir ≠ none := fun still => by
      rw [Conf.turned_none still, still] at dir
      cases dir
    rcases free with still | rests | pressed | none | none
    · exact absurd still moves
    · rw [rests]
      rfl
    · rw [pressed]
      simp
    · rw [none] at range
      cases range
    · rw [none] at step
      cases step
  · rfl

/-- Under a wish with the box in a gear and the pedal up, the gear is changed by shifts: at once in MANUAL, one gear at a time
in AUTO (R78, row 4). -/
theorem Sq.planGears_shifts {q : Sq} {band : Band} {base : Conf} {r : Range} {t : StepNo} (moves : base.dir ≠ none)
    (wishes : q.wish.1 ≠ none) (up : band ≠ .pressed) (range : base.range = some r) (step : base.step = some t) :
    ∃ d, q.planGears band base =
      gearChanges d r t
        (if q.auto then gearWalk 11 (gearOf r t) q.wish.2 else if gearOf r t = q.wish.2 then [] else [q.wish.2]) := by
  obtain ⟨w, wish⟩ := Option.ne_none_iff_exists'.mp wishes
  have turned : base.turned q.wish.1 = ⟨some w, some r, some t⟩ := by
    have dir := Conf.turned_some moves q.wish.1
    have range' := (Conf.turned_range base q.wish.1).trans range
    have step' := (Conf.turned_step base q.wish.1).trans step
    generalize base.turned q.wish.1 = b at dir range' step'
    obtain ⟨bd, br, bt⟩ := b
    rw [wish] at dir
    exact congr (congr (congrArg Conf.mk dir) range') step'
  refine ⟨w, ?_⟩
  unfold Sq.planGears gearSteps
  rw [turned, wish]
  simp only [Option.isSome_some, Bool.not_true, Bool.false_or, decide_eq_true_eq, up, if_false]
  split <;> rfl

theorem Sq.engageSteps_nil (q : Sq) {base : Conf} (moves : base.dir ≠ none) : q.engageSteps base = [] := by
  unfold Sq.engageSteps
  split
  · next still _ => exact absurd still moves
  · rfl

theorem Sq.plan_shapes_free {q : Sq} {band : Band} {base : Conf}
    (free : base.dir = none ∨ q.wish.1 = none ∨ band = .pressed ∨ base.range = none ∨ base.step = none) :
    (q.plan band base).map GearStep.shape =
      (q.turnSteps band base).map GearStep.shape ++
        ((if base.range = some (gearRange q.wish.2) then []
          else [(.free, [(gearRange q.wish.2).clutch], (base.range.map Range.clutch).toList)]) ++
          if base.step = some (gearStepNo q.wish.2) then []
          else [(.free, [(gearStepNo q.wish.2).clutch], (base.step.map StepNo.clutch).toList)]) ++
        (q.engageSteps base).map GearStep.shape := by
  rw [Sq.plan_eq, Sq.planGears_free free, List.map_append, List.map_append, freeSteps_shapes, Conf.turned_range,
    Conf.turned_step]

end Sys2Proof.Machine
end

section
/-! SUPPORT and O52. The plan to a wish: its last step, and its steps by shifts (R78, row 4). -/

namespace Sys2Proof.Machine

/-- The last step of a plan ends at the wish. -/
theorem Sq.plan_last {q : Sq} {band : Band} {base : Conf} {st : GearStep} (low : 1 ≤ q.wish.2) (high : q.wish.2 ≤ 12)
    (last : (q.plan band base).getLast? = some st) :
    st.result = ⟨q.wish.1, some (gearRange q.wish.2), some (gearStepNo q.wish.2)⟩ :=
  (endOf_getLast last).trans (q.endOf_plan band base low high)

/-- Where the gear is changed by shifts: what they are, behind the row of the direction. -/
theorem Sq.plan_by_shifts {q : Sq} {band : Band} {base : Conf} {r0 : Range} {n0 : StepNo}
    {swap : List (StepKind × List Clutch × List Clutch)} (turn : (q.turnSteps band base).map GearStep.shape = swap)
    (low : 1 ≤ q.wish.2) (high : q.wish.2 ≤ 12) (moves : base.dir ≠ none) (wishes : q.wish.1 ≠ none)
    (up : band ≠ .pressed) (range : base.range = some r0) (step : base.step = some n0) :
    let gear := q.wish.2
    let r := gearRange gear
    let n := gearStepNo gear
    let from0 := gearOf r0 n0
    let steps := (q.plan band base).drop swap.length
    (q.auto = false →
      (q.plan band base).map GearStep.shape = swap ++
        if from0 = gear then []
        else
          [(if r = r0 then .single else .range,
            (if r = r0 then [] else [r.clutch]) ++ (if n = n0 then [] else [n.clutch]),
            (if r = r0 then [] else [r0.clutch]) ++ (if n = n0 then [] else [n0.clutch]))]) ∧
    (q.auto = true →
      ((q.plan band base).map GearStep.shape).take swap.length = swap ∧
      steps.length = (gear - from0) + (from0 - gear) ∧
      ∀ i (h : i < steps.length),
        steps[i].result.gear = some (if from0 < gear then from0 + i + 1 else from0 - i - 1) ∧
        (steps[i].kind = .single ∨ steps[i].kind = .range)) ∧
    ∀ st ∈ steps, (st.downward = true ↔ gear < from0) ∧ (st.upward = true ↔ from0 < gear) := by
  obtain ⟨d, gears⟩ := Sq.planGears_shifts (q := q) (band := band) moves wishes up range step
  have plan : q.plan band base = q.turnSteps band base ++ q.planGears band base := by
    rw [Sq.plan_eq, q.engageSteps_nil moves, List.append_nil]
  have length : swap.length = (q.turnSteps band base).length := by rw [← turn, List.length_map]
  have steps : (q.plan band base).drop swap.length = q.planGears band base := by rw [plan, length, List.drop_left]
  have bounds := gearOf_bounds r0 n0
  intro gear r n from0
  dsimp only
  rw [steps, gears]
  refine ⟨fun manual => ?_, fun auto => ?_, ?_⟩
  · rw [plan, List.map_append, turn, gears, if_neg (by rw [manual]; nofun)]
    refine congrArg (swap ++ ·) ?_
    split
    · rfl
    · next other => exact congrArg (fun x => [x]) (gearChange_shape d r0 n0 gear other low high)
  · rw [if_pos auto]
    obtain ⟨count, way⟩ := gearChanges_walk d r0 n0 low high (n := 11) (by omega)
    refine ⟨?_, count, fun i inside => ⟨way i inside, ?_⟩⟩
    · rw [plan, List.map_append, turn, List.take_left]
    · exact (gearChanges_steps d r0 n0 _ _ (List.getElem_mem inside)).1
  · split
    · exact gearChanges_direction d low high 11 r0 n0
    · split
      · exact fun _ member => absurd member List.not_mem_nil
      · intro st member
        rw [List.mem_singleton.mp member]
        obtain ⟨-, -, down, upward⟩ := gearChange_step d r0 n0 gear
        exact ⟨down, upward⟩

/-! The rebuild (R80). -/

theorem GearStep.stays_iff (st : GearStep) :
    st.stays = true ↔
      st.kind = .neutralize ∨ st.phase = some .rampOn ∨ st.phase = some .sync ∨ st.phase = some .rampOff := by
  unfold GearStep.stays
  simp only [Bool.or_eq_true, decide_eq_true_eq, or_assoc]

theorem GearStep.agrees_iff (a b : GearStep) :
    a.agrees b = true ↔ a.kind = b.kind ∧ a.on = b.on ∧ a.off = b.off ∧ a.result = b.result := by
  unfold GearStep.agrees
  simp only [Bool.and_eq_true, decide_eq_true_eq, and_assoc]

/-- A started step behind which the plan may go on is before its ramps. -/
theorem GearStep.leaves {st : GearStep} (kind : st.kind ≠ .neutralize)
    (phase : st.phase = some .flowWait ∨ st.phase = some .fill ∨ st.phase = some .hold) : st.stays = false := by
  rw [← Bool.not_eq_true, st.stays_iff]
  rintro (neutral | later)
  · exact kind neutral
  · rcases phase with phase | phase | phase <;> rw [phase] at later <;> simp at later

variable {s : State} {st : GearStep}

theorem State.rebuild_unstarted (running : s.running = true) (enable : s.enable = true) (started : s.sq.started = none) :
    s.rebuild = s.setQueue (s.sq.plan s.pub.band s.sq.box) := by
  unfold State.rebuild
  rw [running, enable, started]
  rfl

theorem State.rebuild_behind (running : s.running = true) (enable : s.enable = true) (started : s.sq.started = some st)
    (stays : st.stays = true) : s.rebuild = s.setQueue (st :: s.sq.plan s.pub.band st.result) := by
  unfold State.rebuild
  rw [running, enable, started]
  exact if_pos stays

theorem State.rebuild_leaves (running : s.running = true) (enable : s.enable = true) (started : s.sq.started = some st)
    (leaves : st.stays = false) :
    s.rebuild =
      match s.sq.plan s.pub.band s.sq.box with
      | p :: ps => if p.agrees st then s.setQueue (st :: ps) else s.abandonRebuild
      | [] => s.abandonRebuild := by
  unfold State.rebuild
  rw [running, enable, started]
  show (if st.stays then _ else _) = _
  rw [leaves]
  rfl

theorem State.rebuild_met (running : s.running = true) (enable : s.enable = true) (started : s.sq.started = some st)
    (leaves : st.stays = false) {p : GearStep} {ps : List GearStep} (plan : s.sq.plan s.pub.band s.sq.box = p :: ps)
    (meets : p.agrees st = true) : s.rebuild = s.setQueue (st :: ps) := by
  rw [State.rebuild_leaves running enable started leaves, plan]
  exact if_pos meets

theorem State.rebuild_abandons (running : s.running = true) (enable : s.enable = true) (started : s.sq.started = some st)
    (leaves : st.stays = false)
    (other : ∀ p ps, s.sq.plan s.pub.band s.sq.box = p :: ps → ¬ p.agrees st = true) : s.rebuild = s.abandonRebuild := by
  rw [State.rebuild_leaves running enable started leaves]
  split
  · next p ps plan => exact if_neg (other p ps plan)
  · rfl

end Sys2Proof.Machine
end

section
/-! SUPPORT and O52. What an end of a step clears, and what an abandonment leaves (R81, R91, R92, R101). -/

namespace Sys2Proof.Machine

variable {s : State} {st : GearStep} {rest : List GearStep}

/-! The flags (R101). -/

/-- The cleared flags, and the frozen draft with them, before the coupling takes the change. -/
def State.flagsCleared (s : State) : State :=
  let u : State := { s with sq := { s.sq with flags := .clear } }
  if s.sq.flags.draftFreeze then u.hrUnfreeze else u

theorem State.clearFlags_eq (s : State) :
    s.clearFlags = if s.sq.flags.releaseDeferral then s.flagsCleared.acuFollow else s.flagsCleared := rfl

theorem State.flagsCleared_eq (s : State) :
    s.flagsCleared = { s with sq := { s.sq with flags := .clear }, hr := s.flagsCleared.hr } := by
  unfold State.flagsCleared
  dsimp only
  split <;> rfl

theorem State.clearFlags_flags (s : State) : s.clearFlags.sq.flags = .clear := by
  have cleared : s.flagsCleared.sq.flags = .clear := by rw [State.flagsCleared_eq]
  rw [State.clearFlags_eq]
  split
  · rw [State.flags_acuFollow, cleared]
  · exact cleared

theorem State.clearFlags_still (s : State) : s.clearFlags.hr.still = s.flagsCleared.hr.still := by
  rw [State.clearFlags_eq]
  split
  · exact ((HitchWaits.refl _).acuFollow).still
  · rfl

/-- The frozen draft goes with its flag (R128). -/
theorem State.clearFlags_frozen (s : State) :
    s.clearFlags.hr.frozen = (if s.sq.flags.draftFreeze then none else s.hr.frozen) ∧
      s.clearFlags.hr.frozenLost = (if s.sq.flags.draftFreeze then false else s.hr.frozenLost) := by
  have still := s.clearFlags_still
  have frozen : s.clearFlags.hr.frozen = s.flagsCleared.hr.frozen := by
    show s.clearFlags.hr.still.frozen = _
    rw [still]
    rfl
  have lost : s.clearFlags.hr.frozenLost = s.flagsCleared.hr.frozenLost := by
    show s.clearFlags.hr.still.frozenLost = _
    rw [still]
    rfl
  rw [frozen, lost]
  unfold State.flagsCleared
  dsimp only
  split <;> exact ⟨rfl, rfl⟩

/-- A release that was deferred is begun (R109, R113). -/
theorem State.clearFlags_release (deferred : s.sq.flags.releaseDeferral = true) (running : s.running = true)
    (wants : s.acuWantsReleased = true) (engaged : s.acu.coupling = .engaged) :
    s.clearFlags.acu.coupling = .releaseWait ∨ s.clearFlags.acu.coupling = .releasing := by
  have cleared := s.flagsCleared_eq
  rw [State.clearFlags_eq, if_pos deferred]
  refine (State.coupling_acuFollow_engaged (by rw [cleared]; exact engaged)).2 ?_
  rw [cleared]
  show (s.running && s.acuWantsReleased && !SqFlags.clear.releaseDeferral) = true
  rw [running, wants]
  rfl

theorem State.clearFlags_undeferred (none : s.sq.flags.releaseDeferral = false) :
    s.clearFlags.acu = s.acu ∧ s.clearFlags.flow = s.flow := by
  rw [State.clearFlags_eq, none, State.flagsCleared_eq]
  exact ⟨rfl, rfl⟩

theorem State.clearFlags_idle (idle : s.flow.fill.state = .idle) : s.clearFlags.flow.fill.state = .idle := by
  have cleared : s.flagsCleared.flow.fill.state = .idle := by
    rw [State.flagsCleared_eq]
    exact idle
  rw [State.clearFlags_eq]
  split
  · exact ((GearStays.refl _).acuFollow).idle cleared
  · exact cleared

/-! The pedal on an engaged direction (R91). -/

theorem Sq.engaged_iff (q : Sq) :
    q.engaged = if q.state .cf = .locked then some .forward else if q.state .cr = .locked then some .reverse else none := by
  unfold Sq.engaged Sq.locked
  simp

theorem State.inchEntry_released (up : s.pub.band = .released) : s.inchEntry = s := by
  unfold State.inchEntry
  split
  · exact if_pos up
  · rfl

/-- Under a pedal that is down, the direction that is engaged slips. -/
theorem State.state_inchEntry (s : State) (c : Clutch) :
    s.inchEntry.sq.state c =
      if s.pub.band ≠ .released ∧
          ((c = .cf ∧ s.sq.state .cf = .locked) ∨ (c = .cr ∧ s.sq.state .cr = .locked ∧ ¬ s.sq.state .cf = .locked)) then
        .sync
      else s.sq.state c := by
  have enters (d : Dir) : ({ s.sq.enterAll [d.clutch] .sync with looseSync := none } : Sq).state c =
      if c = d.clutch then .sync else s.sq.state c := by
    refine (Sq.state_enterAll s.sq [d.clutch] .sync c).trans ?_
    simp only [List.mem_singleton]
  have engaged := s.sq.engaged_iff
  by_cases up : s.pub.band = .released
  · rw [State.inchEntry_released up]
    simp [up]
  · unfold State.inchEntry
    by_cases forward : s.sq.state .cf = .locked
    · rw [if_pos forward] at engaged
      rw [engaged]
      dsimp only
      rw [if_neg up]
      exact (enters .forward).trans (if_congr (by simp [up, forward, Dir.clutch]) rfl rfl)
    · by_cases reverse : s.sq.state .cr = .locked
      · rw [if_neg forward, if_pos reverse] at engaged
        rw [engaged]
        dsimp only
        rw [if_neg up]
        exact (enters .reverse).trans (if_congr (by simp [up, forward, reverse, Dir.clutch]) rfl rfl)
      · rw [if_neg forward, if_neg reverse] at engaged
        rw [engaged]
        simp [forward, reverse]

theorem State.inchEntry_eq (s : State) :
    s.inchEntry = { s with sq := { s.sq with clutch := s.inchEntry.sq.clutch, looseSync := s.inchEntry.sq.looseSync } } := by
  unfold State.inchEntry
  split
  · split <;> rfl
  · rfl

/-! Abandonment (R81). -/

/-- The abandoned step gone and its flow given up, before the flags clear. -/
def State.headGone (s : State) (st : GearStep) (rest : List GearStep) : State :=
  let q := if st.phase = some .flowWait then s.sq else s.sq.enterAll st.on .opened
  let u : State := { s with sq := { q with queue := rest } }
  if st.phase = some .flowWait ∨ st.phase = some .fill then u.releaseFill else u

theorem State.abandonHead_eq (queue : s.sq.queue = st :: rest) :
    s.abandonHead = (s.headGone st rest).clearFlags.inchEntry := by
  unfold State.abandonHead
  rw [queue]
  rfl

theorem State.sq_headGone (s : State) (st : GearStep) (rest : List GearStep) :
    (s.headGone st rest).sq =
      { (if st.phase = some .flowWait then s.sq else s.sq.enterAll st.on .opened) with queue := rest } := by
  unfold State.headGone
  dsimp only
  split
  · exact State.sq_releaseFill _
  · rfl

/-- The on-coming clutches open as the step goes, where they were filled. -/
theorem State.state_headGone (s : State) (st : GearStep) (rest : List GearStep) (c : Clutch) :
    (s.headGone st rest).sq.state c = if c ∈ st.on ∧ st.phase ≠ some .flowWait then .opened else s.sq.state c := by
  rw [State.sq_headGone]
  split
  · next waits => exact (if_neg fun h => h.2 waits).symm
  · next filled =>
    refine (Sq.state_enterAll s.sq st.on .opened c).trans (if_congr ?_ rfl rfl)
    exact ⟨fun on => ⟨on, filled⟩, And.left⟩

theorem State.still_releaseFill (s : State) : s.releaseFill.hr.still = s.hr.still := by
  unfold State.releaseFill
  split
  · rfl
  · exact State.still_grantPass _

theorem State.fill_headGone (s : State) (rest : List GearStep)
    (filling : st.phase = some .flowWait ∨ st.phase = some .fill) : (s.headGone st rest).flow.fill.state = .idle := by
  unfold State.headGone
  dsimp only
  rw [if_pos filling]
  exact State.fill_releaseFill _

theorem State.pub_headGone (s : State) (st : GearStep) (rest : List GearStep) : (s.headGone st rest).pub = s.pub := by
  unfold State.headGone
  dsimp only
  split
  · exact congrArg Mu.pub ((JobOnly.refl _).releaseFill).mu
  · rfl

/-- What stands behind the head has not started. -/
theorem State.QueueForm.unwaiting (form : s.QueueForm) (queue : s.sq.queue = st :: rest) {q : Sq} (behind : q.queue = rest) :
    q.Unwaiting := by
  intro x head
  have member : x ∈ s.sq.queue.tail := by
    rw [queue]
    exact List.mem_of_mem_head? (behind ▸ head)
  rw [form.head x member]
  nofun

/-- What an abandonment leaves at the gearbox, but for the clutches that the pedal takes. -/
theorem State.sq_abandonHead (form : s.QueueForm) (queue : s.sq.queue = st :: rest) :
    s.abandonHead.sq =
      { (s.headGone st rest).sq with
        flags := .clear, clutch := s.abandonHead.sq.clutch, looseSync := s.abandonHead.sq.looseSync } := by
  have cleared := State.sq_clearFlags (s := s.headGone st rest)
    (form.unwaiting queue (by rw [State.sq_headGone]))
  rw [State.abandonHead_eq queue]
  generalize (s.headGone st rest).clearFlags = v at cleared
  rw [State.inchEntry_eq, cleared]

theorem State.state_abandonHead (form : s.QueueForm) (queue : s.sq.queue = st :: rest) (c : Clutch) :
    let opens (c : Clutch) : Prop := c ∈ st.on ∧ st.phase ≠ some .flowWait
    s.abandonHead.sq.state c =
      if opens c then .opened
      else if s.pub.band ≠ .released ∧
          ((c = .cf ∧ s.sq.state .cf = .locked) ∨
            (c = .cr ∧ s.sq.state .cr = .locked ∧ ¬ (s.sq.state .cf = .locked ∧ ¬ opens .cf))) then .sync
      else s.sq.state c := by
  intro opens
  have cleared := State.sq_clearFlags (s := s.headGone st rest)
    (form.unwaiting queue (by rw [State.sq_headGone]))
  have gone (c : Clutch) : (s.headGone st rest).clearFlags.sq.state c = if opens c then .opened else s.sq.state c := by
    rw [cleared]
    exact s.state_headGone st rest c
  have pub : (s.headGone st rest).clearFlags.pub = s.pub :=
    (congrArg Mu.pub ((JobOnly.refl _).clearFlags).mu).trans (s.pub_headGone st rest)
  rw [State.abandonHead_eq queue, State.state_inchEntry, pub, gone, gone, gone]
  by_cases here : opens c
  · have forward : c = .cf → opens .cf := fun same => same ▸ here
    have reverse : c = .cr → opens .cr := fun same => same ▸ here
    rw [if_pos here, if_pos here, if_neg]
    rintro ⟨-, ⟨rfl, locked⟩ | ⟨rfl, locked, -⟩⟩
    · rw [if_pos here] at locked
      cases locked
    · rw [if_pos here] at locked
      cases locked
  · rw [if_neg here, if_neg here]
    refine if_congr (and_congr_right fun _ => or_congr ?_ ?_) rfl rfl
    · refine and_congr_right fun same => ?_
      rw [if_neg (same ▸ here)]
    · refine and_congr_right fun same => ?_
      rw [if_neg (same ▸ here)]
      by_cases forward : opens .cf <;> simp [forward]

/-- The frozen draft goes with an abandoned step that froze it. -/
theorem State.frozen_abandonHead (queue : s.sq.queue = st :: rest) (froze : s.sq.flags.draftFreeze = true) :
    s.abandonHead.hr.frozen = none ∧ s.abandonHead.hr.frozenLost = false := by
  have flag : (s.headGone st rest).sq.flags.draftFreeze = true := by
    rw [State.sq_headGone]
    split <;> exact froze
  have frozen := (s.headGone st rest).clearFlags_frozen
  rw [if_pos flag, if_pos flag] at frozen
  rw [State.abandonHead_eq queue, State.inchEntry_eq]
  exact frozen

theorem State.fill_abandonHead (queue : s.sq.queue = st :: rest)
    (filling : st.phase = some .flowWait ∨ st.phase = some .fill) : s.abandonHead.flow.fill.state = .idle := by
  rw [State.abandonHead_eq queue, State.inchEntry_eq]
  exact State.clearFlags_idle (s.fill_headGone rest filling)

end Sys2Proof.Machine
end

section
/-! SUPPORT and O52. What holds a head step back, and how one starts (R82, R83, R90, R101). -/

namespace Sys2Proof.Machine

variable {s : State} {st : GearStep} {rest : List GearStep}

/-! Start conditions (R82). -/

/-- Nothing holds a step back. -/
def State.Frees (s : State) (st : GearStep) : Prop :=
  s.running = true ∧ s.enable = true ∧ (st.kind = .engage → s.sq.interlock = false) ∧
    (∀ c ∈ st.on, (s.sq.clutch.get c).hot = false) ∧
    (st.kind ≠ .neutralize → s.pub.band = .modulating → s.seqState ≠ .inch)

theorem State.seqState_eq (running : s.running = true) (enable : s.enable = true) : s.seqState = s.sq.seq := by
  unfold State.seqState
  rw [running, enable]
  rfl

theorem State.heldBy_no_iff (s : State) (st : GearStep) : s.heldBy st = .no ↔ s.Frees st := by
  have hot : ((st.on.any fun c => (s.sq.clutch.get c).hot) = true) ↔ ¬ ∀ c ∈ st.on, (s.sq.clutch.get c).hot = false := by
    simp
  unfold State.heldBy State.Frees
  by_cases works : s.running = true ∧ s.enable = true
  · obtain ⟨running, enable⟩ := works
    rw [State.seqState_eq running enable, running, enable, if_neg (show ¬ (!(true && true)) = true by decide)]
    split
    · next held => simp [held.1, held.2]
    · next free =>
      have free : st.kind = .engage → s.sq.interlock = false := fun engage => by simpa [engage] using free
      split
      · next held => simp [hot.mp held]
      · next cold =>
        have cold := Decidable.not_not.mp (mt hot.mpr cold)
        split
        · next held => simp [held]
        · next up =>
          refine ⟨fun _ => ⟨rfl, rfl, free, cold, fun kind band inch => up ⟨kind, band, inch⟩⟩, fun _ => rfl⟩
  · rw [if_pos (by revert works; cases s.running <;> cases s.enable <;> simp)]
    exact ⟨nofun, fun h => absurd ⟨h.1, h.2.1⟩ works⟩

theorem Sq.waitingHead_some {q : Sq} (queue : q.queue = st :: rest) (fresh : st.phase = none) :
    q.waitingHead = some st := by
  unfold Sq.waitingHead
  rw [queue]
  dsimp only
  rw [fresh]
  rfl

theorem State.tryStart_held (queue : s.sq.queue = st :: rest) (fresh : st.phase = none) (held : ¬ s.Frees st) :
    s.tryStart = s := by
  unfold State.tryStart
  rw [Sq.waitingHead_some queue fresh]
  exact if_neg (mt (s.heldBy_no_iff st).mp held)

theorem State.tryStart_free (queue : s.sq.queue = st :: rest) (fresh : st.phase = none) (free : s.Frees st) :
    s.tryStart = if st.kind = .neutralize ∧ st.zeroRamp then (s.zeroNeutral st).startPlain else s.beginStep st := by
  unfold State.tryStart
  rw [Sq.waitingHead_some queue fresh]
  exact if_pos ((s.heldBy_no_iff st).mpr free)

/-! A NEUTRALIZE begins (R90). -/

/-- A NEUTRALIZE ends at once: its clutch is OPEN and it is gone before the flags clear. -/
def State.neutralGone (s : State) (st : GearStep) (rest : List GearStep) : State :=
  { s with sq := { s.sq.enterAll st.off .opened with looseSync := none, queue := rest } }

theorem State.zeroNeutral_eq (queue : s.sq.queue = st :: rest) :
    s.zeroNeutral st = (s.neutralGone st rest).clearFlags.inchEntry.rebuild :=
  State.finishStep_false (s := ({ s with sq := s.sq.enterAll st.off .opened } : State).endLoose) queue

/-- The currents do not turn on a started step that has no SYNC and is not FREE. -/
theorem State.clutchCurrent_eq {t : State} (clutch : t.sq.clutch = s.sq.clutch) (mu : t.mu = s.mu) (cs : t.cs = s.cs)
    (lcu : t.lcu = s.lcu) (apart : ∀ x, (s.sq.started = some x ∨ t.sq.started = some x) → x.kind = .neutralize ∧
      x.phase ≠ some .sync) (c : Clutch) : t.clutchCurrent c = s.clutchCurrent c := by
  have unsynced (q : Sq) (apart : ∀ x, q.started = some x → x.kind = .neutralize ∧ x.phase ≠ some .sync) :
      q.stepSync c = none ∧ q.freeStarted = false := by
    unfold Sq.stepSync Sq.freeStarted
    cases started : q.started with
    | none => exact ⟨rfl, rfl⟩
    | some x =>
      obtain ⟨kind, phase⟩ := apart x started
      refine ⟨if_neg fun h => phase h.1, ?_⟩
      simp [kind]
  obtain ⟨sync, free⟩ := unsynced s.sq fun x started => apart x (.inl started)
  obtain ⟨sync', free'⟩ := unsynced t.sq fun x started => apart x (.inr started)
  unfold State.clutchCurrent State.syncCurrent State.pedalCurrent State.items State.now State.pub
  rw [sync, sync', free, free', clutch, mu, cs, lcu]

theorem State.beginStep_neutralize (queue : s.sq.queue = st :: rest) (fresh : st.phase = none) (neutral : st.kind = .neutralize) :
    let length := listMax (st.off.map fun c => (clutchItem s.items c).rampTime)
    let t := s.beginStep st
    t.sq.queue = { st with phase := some .rampOff, phaseStart := s.now, phaseLength := length } :: rest ∧
    t.sq.looseSync = none ∧
    ∀ c, t.sq.clutch.get c =
      if c ∈ st.off then { s.sq.clutch.get c with state := .rampOff, ramp := some ⟨s.clutchCurrent c, 0, s.now, length⟩ }
      else s.sq.clutch.get c := by
  intro length t
  have begins : t = ((s.setHead { st with phase := some .rampOff, phaseStart := s.now, phaseLength := length }).endLoose).rampOff
      st.off length := by
    unfold t State.beginStep
    exact if_pos neutral
  have current (c : Clutch) : ((s.setHead { st with
      phase := some .rampOff, phaseStart := s.now, phaseLength := length }).endLoose).clutchCurrent c = s.clutchCurrent c := by
    refine State.clutchCurrent_eq (s := s) (t := (s.setHead _).endLoose) rfl rfl rfl rfl ?_ c
    rintro x (before | after)
    · unfold Sq.started at before
      rw [queue] at before
      dsimp only at before
      rw [fresh] at before
      cases before
    · obtain rfl : _ = x := Option.some.inj after
      exact ⟨neutral, nofun⟩
  rw [begins]
  refine ⟨?_, ?_, fun c => ?_⟩
  · rw [State.rampOff_eq]
    show _ :: s.sq.queue.tail = _
    rw [queue]
    rfl
  · rw [State.rampOff_eq]
    rfl
  · rw [State.clutch_rampOff, current]
    rfl

/-! Any other step begins (R83, R101). -/

/-- The head as it asks for its fill. -/
def State.asking (s : State) (st : GearStep) : GearStep :=
  { st with phase := some .flowWait, phaseStart := s.now, phaseLength := 0, response := takenField s.sq.taken 7 }

/-- The state in which a step asks for its fill: it stands at the head, its flags are set and the draft is frozen. -/
def State.readied (s : State) (st : GearStep) : State :=
  let freeze : Bool := st.kind = .range ∨ st.kind = .shuttle
  { s with
    sq := { s.sq with
      queue := s.asking st :: s.sq.queue.tail,
      flags := { s.sq.flags with draftFreeze := freeze, assistWindow := st.kind = .shuttle } },
    hr := if freeze then { s.hr with frozen := s.pub.draft, frozenLost := s.pub.draft.isNone } else s.hr }

theorem State.beginStep_other (s : State) (other : st.kind ≠ .neutralize) :
    s.beginStep st =
      match st.on with
      | c :: _ => (s.readied st).askFill (fillUnits s.items st.on) c
      | [] => s.readied st := by
  have readied : (if (decide (st.kind = .range ∨ st.kind = .shuttle)) = true then
        ({ s.setHead (s.asking st) with
          sq := { (s.setHead (s.asking st)).sq with
            flags := { s.sq.flags with
              draftFreeze := decide (st.kind = .range ∨ st.kind = .shuttle), assistWindow := st.kind = .shuttle } } } :
          State).hrFreeze
      else
        ({ s.setHead (s.asking st) with
          sq := { (s.setHead (s.asking st)).sq with
            flags := { s.sq.flags with
              draftFreeze := decide (st.kind = .range ∨ st.kind = .shuttle), assistWindow := st.kind = .shuttle } } } :
          State)) = s.readied st := by
    unfold State.readied
    dsimp only
    split <;> rfl
  have items : (s.readied st).items = s.items := rfl
  rw [← items, ← readied]
  exact if_neg other

theorem Flow.fillSite_pass (f : Flow) (budget : Nat) : (f.pass budget).fillSite = f.fillSite := by
  unfold Flow.pass Flow.serveLift Flow.serveAxle Flow.serveFill
  dsimp only
  repeat' split
  all_goals rfl

/-- A step that waits for flow, as its fill is granted. -/
def State.filling (s : State) (st : GearStep) : GearStep :=
  { st with
    phase := some .fill, phaseStart := s.now, phaseLength := fillLength s.items s.sq st.on, preShift := s.pub.engine,
    observation := 0, observable := st.upshift && s.pub.engine.isSome && s.pub.band = .released }

/-- What becomes of a fill that was asked for, at the entry and at the step that asked: the entry waits or is granted, and in the
second case the step's on-coming clutches fill (R63, R67, R83). -/
structure FillAsked (s : State) (st : GearStep) (rest : List GearStep) (units : Nat) (c : Clutch) (t : State) : Prop where
  asked : t.flow.fill.asked = units
  site : t.flow.fillSite = some c
  still : t.hr.still = s.hr.still
  entry : t.flow.fill.state = .waiting ∧ t.sq = s.sq ∨
    t.flow.fill.state = .granted ∧ t.sq = { s.sq.enterAll st.on .fill with queue := s.filling st :: rest }

theorem State.putFill_asked (queue : s.sq.queue = st :: rest) (waits : st.phase = some .flowWait) (units : Nat)
    (c : Clutch) : FillAsked s st rest units c (s.putFill units c) := by
  have flow := State.flow_putFill s units c
  have acts := State.sq_grantPass { s with flow := { s.flow with fill := s.flow.request s.now units, fillSite := some c } }
  have told := State.sq_sqFillGranted
    (s := { s with flow := { s.flow with fill := s.flow.request s.now units, fillSite := some c } }) queue waits
  have site := Flow.fillSite_pass { s.flow with fill := s.flow.request s.now units, fillSite := some c } (flowBudget s.items)
  have stays : (s.putFill units c).hr.still = s.hr.still := State.still_grantPass _
  have served := Flow.entry_pass { s.flow with fill := s.flow.request s.now units, fillSite := some c }
    (flowBudget s.items) .fill
  rw [told] at acts
  have acts : (s.putFill units c).sq = if _ ≠ ReqState.granted ∧
      (({ s.flow with fill := s.flow.request s.now units, fillSite := some c } : Flow).pass
        (flowBudget s.items)).fill.state = .granted then
      { s.sq.enterAll st.on .fill with queue := s.filling st :: rest } else s.sq := acts
  rw [← flow] at served site acts
  rcases served with same | ⟨-, granted⟩
  · have same : (s.putFill units c).flow.fill = s.flow.request s.now units := same
    refine ⟨by rw [same]; rfl, site, stays, .inl ⟨by rw [same]; rfl, ?_⟩⟩
    rw [acts, same]
    exact if_neg fun h => nomatch h.2
  · have granted : (s.putFill units c).flow.fill = (s.flow.request s.now units).grant := granted
    refine ⟨by rw [granted]; rfl, site, stays, .inr ⟨by rw [granted]; rfl, ?_⟩⟩
    rw [acts, granted]
    exact if_pos ⟨nofun, rfl⟩

theorem State.askFill_asked (queue : s.sq.queue = st :: rest) (waits : st.phase = some .flowWait) (units : Nat)
    (c : Clutch) : FillAsked s st rest units c (s.askFill units c) := by
  by_cases granted : s.flow.fill.state = .granted
  · have asks : s.askFill units c = s.releaseFill.putFill units c := congrArg (State.putFill · units c) (if_pos granted)
    have sq := State.sq_releaseFill s
    have only := (JobOnly.refl s).releaseFill
    obtain ⟨asked, site, still, entry⟩ := State.putFill_asked (s := s.releaseFill) (by rw [sq]; exact queue) waits units c
    have filling : s.releaseFill.filling st = s.filling st := by
      unfold State.filling State.pub State.items State.now
      rw [sq, only.mu, only.cs, only.lcu]
    rw [sq, filling] at entry
    rw [asks]
    exact ⟨asked, site, still.trans s.still_releaseFill, entry⟩
  · have asks : s.askFill units c = s.putFill units c := congrArg (State.putFill · units c) (if_neg granted)
    rw [asks]
    exact State.putFill_asked queue waits units c

end Sys2Proof.Machine
end

section
/-! SUPPORT and O52. What the work at the queue keeps of the wish, and of a clutch that is OPEN or in FILL (R77, R80 to R83,
R90). -/

namespace Sys2Proof.Machine

variable {s t u : State} {st : GearStep} {rest : List GearStep}

/-! The wish, the restart interlock, and a SYNC timer that does not run. -/

structure Sq.Wishes (p q : Sq) : Prop where
  target : q.autoTarget = p.autoTarget
  interlock : q.interlock = p.interlock
  loose : p.looseSync = none → q.looseSync = none

namespace Sq.Wishes

variable {p q r : Sq}

theorem refl (p : Sq) : p.Wishes p := ⟨rfl, rfl, id⟩

theorem trans (h : p.Wishes q) (g : q.Wishes r) : p.Wishes r :=
  ⟨g.target.trans h.target, g.interlock.trans h.interlock, g.loose ∘ h.loose⟩

end Sq.Wishes

/-- A fill asked for moves clutches only to FILL. -/
theorem Sq.Filled.askFill (s : State) (units : Nat) (c : Clutch) : s.sq.Filled (s.askFill units c).sq := by
  have put (v : State) : v.sq.Filled (v.putFill units c).sq :=
    ((GearStays.refl
      { v with flow := { v.flow with fill := v.flow.request v.now units, fillSite := some c } }).grantPass).fills
  have freed : s.sq.Filled s.freeFill.sq := (GearStays.ite (GearStays.refl s).releaseFill (.refl s)).fills
  exact freed.trans (put _)

/-- A clutch that carries nothing and has no ramp: OPEN or in FILL. -/
def Sq.Rests (q : Sq) (c : Clutch) : Prop := q.state c = .opened ∨ q.state c = .fill

/-- The work at the queue: it keeps the wish, and clutches that rest go on resting. -/
structure Eases (s t : State) : Prop where
  wishes : s.sq.Wishes t.sq
  rests : ∀ c, s.sq.Rests c → t.sq.Rests c

namespace Eases

theorem refl (s : State) : Eases s s := ⟨.refl _, fun _ => id⟩

theorem trans (h : Eases s t) (g : Eases t u) : Eases s u :=
  ⟨h.wishes.trans g.wishes, fun c => g.rests c ∘ h.rests c⟩

theorem ite {c : Prop} [Decidable c] {a b : State} (ha : Eases s a) (hb : Eases s b) : Eases s (if c then a else b) := by
  split
  · exact ha
  · exact hb

/-- A change of the sequencer that keeps the wish and moves clutches only to OPEN or FILL. -/
theorem setSq (h : Eases s t) (q : Sq) (wishes : t.sq.Wishes q) (rests : ∀ c, t.sq.Rests c → q.Rests c) :
    Eases s { t with sq := q } := h.trans ⟨wishes, rests⟩

/-- A change of the sequencer that moves no clutch. -/
theorem still (h : Eases s t) (wishes : t.sq.Wishes u.sq) (clutch : u.sq.clutch = t.sq.clutch) : Eases s u := by
  refine h.trans ⟨wishes, fun c rests => ?_⟩
  unfold Sq.Rests Sq.state
  rw [clutch]
  exact rests

theorem of_filled (fills : s.sq.Filled t.sq) : Eases s t := by
  refine ⟨⟨fills.target, fills.interlock, fun none => fills.loose.trans none⟩, fun c rests => ?_⟩
  rcases fills.state c with same | fill
  · unfold Sq.Rests
    rw [same]
    exact rests
  · exact .inr fill

theorem stays (h : Eases s t) (g : GearStays t u) : Eases s u := h.trans (.of_filled g.fills)

/-- The clutches of a list go OPEN. -/
theorem opens (h : Eases s t) (cs : List Clutch) : Eases s { t with sq := t.sq.enterAll cs .opened } := by
  refine h.setSq _ ⟨rfl, rfl, id⟩ fun c rests => ?_
  have enters := Sq.state_enterAll t.sq cs .opened c
  by_cases on : c ∈ cs
  · exact .inl (enters.trans (if_pos on))
  · unfold Sq.Rests
    rw [enters, if_neg on]
    exact rests

theorem clearFlags (h : Eases s t) : Eases s t.clearFlags := by
  have cleared : Eases s t.flagsCleared := by
    rw [State.flagsCleared_eq]
    exact h.still ⟨rfl, rfl, id⟩ rfl
  rw [State.clearFlags_eq]
  exact ite (cleared.stays (GearStays.refl _).acuFollow) cleared

theorem inchEntry (h : Eases s t) : Eases s t.inchEntry := by
  refine h.trans ⟨⟨by rw [State.inchEntry_eq], by rw [State.inchEntry_eq], fun none => ?_⟩, fun c rests => ?_⟩
  · unfold State.inchEntry
    split
    · split
      · exact none
      · rfl
    · exact none
  · have unlocked : t.sq.state c ≠ .locked := by
      rcases rests with state | state <;> rw [state] <;> decide
    unfold Sq.Rests
    rw [State.state_inchEntry, if_neg]
    · exact rests
    · rintro ⟨-, ⟨rfl, locked⟩ | ⟨rfl, locked, -⟩⟩
      · exact unlocked locked
      · exact unlocked locked

theorem setQueue (h : Eases s t) (l : List GearStep) : Eases s (t.setQueue l) := h.still ⟨rfl, rfl, id⟩ rfl

theorem headGone (h : Eases s t) (st : GearStep) (rest : List GearStep) : Eases s (t.headGone st rest) := by
  have gone : (t.headGone st rest).sq = _ := t.sq_headGone st rest
  split at gone
  · refine h.still ?_ (by rw [gone])
    rw [gone]
    exact ⟨rfl, rfl, id⟩
  · refine (h.opens st.on).still ?_ (by rw [gone])
    rw [gone]
    exact ⟨rfl, rfl, id⟩

theorem abandonHead (h : Eases s t) : Eases s t.abandonHead := by
  cases queue : t.sq.queue with
  | nil =>
    have same : t.abandonHead = t := by
      unfold State.abandonHead
      rw [queue]
    rw [same]
    exact h
  | cons st rest =>
    rw [State.abandonHead_eq queue]
    exact (h.headGone st rest).clearFlags.inchEntry

theorem abandonRebuild (h : Eases s t) : Eases s t.abandonRebuild := h.abandonHead.setQueue _

theorem rebuild (h : Eases s t) : Eases s t.rebuild := by
  unfold State.rebuild
  refine ite h ?_
  split
  · exact h.setQueue _
  · refine ite (h.setQueue _) ?_
    split
    · exact ite (h.setQueue _) h.abandonRebuild
    · exact h.abandonRebuild

theorem endLoose (h : Eases s t) : Eases s t.endLoose := h.still ⟨rfl, rfl, fun _ => rfl⟩ rfl

theorem finishStep (h : Eases s t) : Eases s (t.finishStep false) := by
  cases queue : t.sq.queue with
  | nil =>
    have same : t.finishStep false = t := by
      unfold State.finishStep
      rw [queue]
    rw [same]
    exact h
  | cons st rest =>
    rw [State.finishStep_false queue]
    exact (h.still (u := { t with sq := { t.sq with queue := rest } }) ⟨rfl, rfl, id⟩ rfl).clearFlags.inchEntry.rebuild

theorem zeroNeutral (h : Eases s t) (st : GearStep) : Eases s (t.zeroNeutral st) := (h.opens st.off).endLoose.finishStep

/-- Any step but a NEUTRALIZE begins without a ramp. -/
theorem beginStep (h : Eases s t) (other : st.kind ≠ .neutralize) : Eases s (t.beginStep st) := by
  have readied : Eases s (t.readied st) := h.still ⟨rfl, rfl, id⟩ rfl
  rw [t.beginStep_other other]
  split
  · exact readied.trans (.of_filled (.askFill _ _ _))
  · exact readied

end Eases

/-- A NEUTRALIZE keeps the wish. -/
theorem State.wishes_beginStep (s : State) (st : GearStep) : s.sq.Wishes (s.beginStep st).sq := by
  by_cases neutral : st.kind = .neutralize
  · have begins : s.beginStep st = _ := if_pos neutral
    rw [begins, State.rampOff_eq]
    exact ⟨rfl, rfl, fun _ => rfl⟩
  · exact ((Eases.refl s).beginStep neutral).wishes

theorem State.wishes_startPlain (s : State) : s.sq.Wishes s.startPlain.sq := by
  unfold State.startPlain
  split
  · split
    · exact s.wishes_beginStep _
    · exact .refl _
  · exact .refl _

theorem State.wishes_tryStart (s : State) : s.sq.Wishes s.tryStart.sq := by
  unfold State.tryStart
  split
  · next st _ =>
    split
    · split
      · exact (((Eases.refl s).zeroNeutral st).wishes).trans (State.wishes_startPlain _)
      · exact s.wishes_beginStep st
    · exact .refl _
  · exact .refl _

theorem State.wishes_replan (s : State) : s.sq.Wishes s.replan.sq :=
  ((Eases.refl s).rebuild.wishes).trans (State.wishes_tryStart _)

theorem Eases.cutNeutral (h : Eases s t) : Eases s t.cutNeutral := by
  unfold State.cutNeutral
  split
  · next st _ => exact ite (h.zeroNeutral st) h
  · exact h

/-! A hand-over (R77, R97). -/

/-- A hand-over writes the order, the auto target and the interlock, and the plan it brings keeps them. -/
theorem State.sqTake_wishes (s : State) :
    let q := s.sq.take (s.takenNow .gear)
    let t := s.sqTake
    t.sq.autoTarget = q.autoTarget ∧ t.sq.interlock = q.interlock ∧ t.sq.taken = s.takenNow .gear ∧ t.sq.up = none ∧
      t.sq.down = none := by
  intro q t
  have wishes : q.Wishes t.sq :=
    ((Eases.refl { s with sq := q }).cutNeutral.wishes).trans (State.wishes_replan _)
  have kept : t.sq.kept = (s.takenNow .gear, none, none, s.sq.slip) := congrArg Prod.fst s.kept_sqTake
  obtain ⟨taken, rest⟩ := Prod.mk.inj kept
  obtain ⟨up, rest⟩ := Prod.mk.inj rest
  obtain ⟨down, -⟩ := Prod.mk.inj rest
  exact ⟨wishes.target, wishes.interlock, taken, up, down⟩

end Sys2Proof.Machine
end

section
/-! SUPPORT and O52. The wish after a hand-over, and the head of a plan (R77, R78, R90, R97). -/

namespace Sys2Proof.Machine

variable {s t : State} {st : GearStep} {rest : List GearStep}

/-! The wish, by the mode of the order as taken (R77). -/

theorem Sq.auto_iff (q : Sq) : q.auto = true ↔ takenField q.taken 0 = 2 := by
  unfold Sq.auto
  cases q.taken with
  | none => simp [takenField]
  | some x => exact decide_eq_true_iff

theorem Sq.wish_eq (q : Sq) :
    q.wish =
      (let f (i : Nat) : Nat := takenField q.taken i
       let d : Dir := if f 1 = 1 then .reverse else .forward
       if f 0 = 1 then (some d, f 2) else if f 0 = 2 then (some d, q.autoTarget) else (none, f 2)) := by
  unfold Sq.wish
  dsimp only
  generalize (if takenField q.taken 1 = 1 then Dir.reverse else Dir.forward) = d
  split
  · next manual => rw [if_pos manual]
  · next auto => rw [if_neg (by rw [auto]; decide), if_pos auto]
  · next notManual notAuto => rw [if_neg notManual, if_neg notAuto]

/-- The auto target that an order gives (R77). -/
theorem Sq.retake_cases (q : Sq) (same : Bool) :
    (takenField q.taken 0 ≠ 2 → q.retake same = 0) ∧
    (takenField q.taken 0 = 2 → same = true → q.retake same = q.intoBand q.autoTarget) ∧
    (takenField q.taken 0 = 2 → same = false → ∀ r n, q.range = some r → q.step = some n →
      (q.state .cf ≠ .opened ∨ q.state .cr ≠ .opened) → q.retake same = q.intoBand (gearOf r n)) ∧
    (takenField q.taken 0 = 2 → same = false →
      (q.range = none ∨ q.step = none ∨ q.state .cf = .opened ∧ q.state .cr = .opened) →
      q.retake same = q.intoBand (takenField q.taken 2)) := by
  have opened : q.dirsOpen = true ↔ q.state .cf = .opened ∧ q.state .cr = .opened := by
    unfold Sq.dirsOpen
    simp
  unfold Sq.retake
  refine ⟨fun other => ?_, fun auto keeps => ?_, fun auto other r n range step moves => ?_, fun auto other none => ?_⟩
  · rw [if_pos (by simpa using mt q.auto_iff.mp other)]
  · rw [q.auto_iff.mpr auto, keeps]
    rfl
  · have apart : q.dirsOpen = false := by
      rw [← Bool.not_eq_true, opened]
      exact fun both => moves.elim (· both.1) (· both.2)
    rw [q.auto_iff.mpr auto, other, apart, range, step]
    rfl
  · rw [q.auto_iff.mpr auto, other]
    show (match q.dirsOpen, q.range, q.step with
      | false, some r, some t => q.intoBand (gearOf r t)
      | _, _, _ => q.intoBand (takenField q.taken 2)) = _
    split
    · next apart range step =>
      rcases none with empty | empty | both
      · rw [empty] at range
        cases range
      · rw [empty] at step
        cases step
      · rw [opened.mpr both] at apart
        cases apart
    · rfl

/-! The head of a plan (R78, R90). -/

/-- A planned NEUTRALIZE opens the clutch of the direction that the base has. -/
theorem Sq.plan_neutralize {q : Sq} {band : Band} {base : Conf} {x : GearStep} (member : x ∈ q.plan band base)
    (neutral : x.kind = .neutralize) : q.wish.1 = none ∧ ∃ d, base.dir = some d ∧ x.off = [d.clutch] := by
  rw [Sq.plan_eq, List.mem_append, List.mem_append] at member
  rcases member with (turn | gear) | engage
  · unfold Sq.turnSteps at turn
    split at turn
    · next d dir wish =>
      rw [List.mem_singleton.mp turn]
      exact ⟨wish, d, dir, rfl⟩
    · split at turn
      · exact absurd turn List.not_mem_nil
      · rw [List.mem_singleton.mp turn] at neutral
        unfold GearStep.fresh at neutral
        dsimp only at neutral
        split at neutral <;> cases neutral
    · exact absurd turn List.not_mem_nil
  · exact absurd neutral (gearSteps_fresh _ _ _ _ _ x gear).2
  · unfold Sq.engageSteps at engage
    split at engage
    · rw [List.mem_singleton.mp engage] at neutral
      cases neutral
    · exact absurd engage List.not_mem_nil

/-- The direction of the box slips or is locked: its clutch does not rest. -/
theorem Sq.takeUp_works {q : Sq} {d : Dir} (dir : q.takeUp = some d) : ¬ q.Rests d.clutch := by
  unfold Sq.takeUp at dir
  unfold Sq.Rests
  split at dir
  · next forward =>
    cases dir
    rcases forward with state | state <;> simp [Dir.clutch, state]
  · split at dir
    · next reverse =>
      cases dir
      rcases reverse with state | state <;> simp [Dir.clutch, state]
    · cases dir

/-- A NEUTRALIZE that is about to start opens clutches that do not rest. -/
def Sq.Heads (q : Sq) : Prop := ∀ x, q.waitingHead = some x → x.kind = .neutralize → ∀ c ∈ x.off, ¬ q.Rests c

theorem Sq.waitingHead_mem {q : Sq} {x : GearStep} (head : q.waitingHead = some x) :
    q.queue.head? = some x ∧ x.phase = none := by
  unfold Sq.waitingHead at head
  split at head
  · next st rest queue =>
    split at head
    · next fresh =>
      cases head
      rw [queue]
      exact ⟨rfl, Option.isNone_iff_eq_none.mp fresh⟩
    · cases head
  · cases head

theorem Sq.started_eq_some {q : Sq} (started : q.started = some st) : ∃ rest, q.queue = st :: rest ∧ st.phase ≠ none := by
  unfold Sq.started at started
  split at started
  · next x rest queue =>
    split at started
    · next begun =>
      cases started
      exact ⟨rest, queue, Option.isSome_iff_ne_none.mp begun⟩
    · cases started
  · cases started

/-- A queue as planned from the box as it stands. -/
theorem State.heads_planned (s : State) : (s.setQueue (s.sq.plan s.pub.band s.sq.box)).sq.Heads := by
  intro x head neutral c off
  have first : ((s.sq.plan s.pub.band s.sq.box).take 4).head? = some x := (Sq.waitingHead_mem head).1
  obtain ⟨-, d, dir, only⟩ := Sq.plan_neutralize (List.mem_of_mem_take (List.mem_of_mem_head? first)) neutral
  rw [only, List.mem_singleton] at off
  rw [off]
  exact Sq.takeUp_works (q := s.sq) dir

/-- A queue with a started head. -/
theorem State.heads_behind (started : s.sq.started = some st) (l : List GearStep) : (s.setQueue (st :: l)).sq.Heads := by
  obtain ⟨-, -, begun⟩ := Sq.started_eq_some started
  intro x head
  obtain ⟨first, fresh⟩ := Sq.waitingHead_mem head
  have first : some st = some x := first
  cases first
  exact absurd fresh begun

theorem State.heads_rebuild (running : s.running = true) (enable : s.enable = true) : s.rebuild.sq.Heads := by
  cases started : s.sq.started with
  | none =>
    rw [State.rebuild_unstarted running enable started]
    exact s.heads_planned
  | some st =>
    cases stays : st.stays with
    | true =>
      rw [State.rebuild_behind running enable started stays]
      exact State.heads_behind started _
    | false =>
      rw [State.rebuild_leaves running enable started stays]
      split
      · split
        · exact State.heads_behind started _
        · exact State.heads_planned _
      · exact State.heads_planned _

/-- A head that is let go on does not move clutches that rest. -/
theorem Eases.startPlain (h : Eases s t) (heads : t.sq.Heads) : Eases s t.startPlain := by
  unfold State.startPlain
  split
  · next st head =>
    obtain ⟨first, fresh⟩ := Sq.waitingHead_mem head
    obtain ⟨rest, queue⟩ := List.head?_eq_some_iff.mp first
    refine ite ?_ h
    by_cases neutral : st.kind = .neutralize
    · obtain ⟨-, -, clutch⟩ := State.beginStep_neutralize queue fresh neutral
      refine h.trans ⟨t.wishes_beginStep st, fun c rests => ?_⟩
      have same := clutch c
      rw [if_neg fun off => heads st head neutral c off rests] at same
      unfold Sq.Rests Sq.state
      rw [same]
      exact rests
    · exact h.beginStep neutral
  · exact h

/-- A NEUTRALIZE that ends at once leaves a plan from the box as it stands, or a started head. -/
theorem State.heads_zeroNeutral (queue : s.sq.queue = st :: rest) (running : s.running = true) (enable : s.enable = true) :
    (s.zeroNeutral st).sq.Heads := by
  have only := ((JobOnly.refl s).setSq (s.neutralGone st rest).sq).clearFlags.inchEntry
  rw [State.zeroNeutral_eq queue]
  exact State.heads_rebuild (only.running.trans running) ((congrArg Inputs.enable only.inputs).trans enable)

/-- The clutches that a NEUTRALIZE opened at once rest, whatever starts behind it. -/
theorem State.rests_zeroNeutral (s : State) (st : GearStep) :
    (∀ c ∈ st.off, (s.zeroNeutral st).sq.Rests c) ∧ (s.zeroNeutral st).sq.looseSync = none := by
  have opened : Eases { s with sq := { s.sq.enterAll st.off .opened with looseSync := none } } (s.zeroNeutral st) :=
    (Eases.refl _).finishStep
  refine ⟨fun c off => opened.rests c (.inl ?_), opened.wishes.loose rfl⟩
  exact (Sq.state_enterAll s.sq st.off .opened c).trans (if_pos off)

theorem Eases.tryStart (h : Eases s t) (heads : t.sq.Heads) (running : t.running = true) (enable : t.enable = true)  :
    Eases s t.tryStart := by
  cases head : t.sq.waitingHead with
  | none =>
    have same : t.tryStart = t := by
      unfold State.tryStart
      rw [head]
    rw [same]
    exact h
  | some st =>
    obtain ⟨first, fresh⟩ := Sq.waitingHead_mem head
    obtain ⟨rest, queue⟩ := List.head?_eq_some_iff.mp first
    have plain : t.tryStart = t.startPlain ∨ t.tryStart = (t.zeroNeutral st).startPlain := by
      unfold State.tryStart State.startPlain
      rw [head]
      dsimp only
      split
      · split
        · exact .inr rfl
        · exact .inl rfl
      · exact .inl rfl
    rcases plain with same | zero
    · rw [same]
      exact h.startPlain heads
    · rw [zero]
      exact (h.zeroNeutral st).startPlain (State.heads_zeroNeutral queue running enable)

end Sys2Proof.Machine
end

section
/-! SUPPORT and O52. Starved fills, hand-overs and starts, and the obligation (R68, R77, R81, R82, R90, R99). -/

namespace Sys2Proof.Machine

variable {s t : State} {st : GearStep} {rest : List GearStep}

/-! SAFE_NEUTRAL over a NEUTRALIZE under way (R90). -/

theorem State.cutNeutral_rests (running : s.running = true) (enable : s.enable = true) (started : s.sq.started = some st)
    (neutral : st.kind = .neutralize) (safe : s.sq.safeNeutral = true) :
    (∀ c ∈ st.off, s.cutNeutral.replan.sq.Rests c) ∧ s.cutNeutral.replan.sq.looseSync = none := by
  obtain ⟨rest, queue, -⟩ := Sq.started_eq_some started
  have cut : s.cutNeutral = s.zeroNeutral st := by
    unfold State.cutNeutral
    rw [started]
    exact if_pos ⟨neutral, safe⟩
  have only := (JobOnly.refl s).zeroNeutral st
  have running' := only.running.trans running
  have enable' : (s.zeroNeutral st).enable = true := (congrArg Inputs.enable only.inputs).trans enable
  obtain ⟨rests, loose⟩ := s.rests_zeroNeutral st
  rw [cut]
  generalize s.zeroNeutral st = u at running' enable' rests loose
  have again := (JobOnly.refl u).rebuild
  have eases : Eases u u.replan := (Eases.refl u).rebuild.tryStart (State.heads_rebuild running' enable')
    (again.running.trans running') ((congrArg Inputs.enable again.inputs).trans enable')
  exact ⟨fun c off => eases.rests c (rests c off), eases.wishes.loose loose⟩

/-! A NEUTRALIZE that ends at once (R90). -/

/-- What it leaves where nothing else is started and the box meets the wish then. -/
theorem State.zeroNeutral_last (queue : s.sq.queue = st :: rest) (fresh : ∀ x ∈ rest, x.phase = none)
    (running : s.running = true) (enable : s.enable = true) (none : (s.sq.enterAll st.off .opened).engaged = none)
    (done : (s.sq.enterAll st.off .opened).plan s.pub.band (s.sq.enterAll st.off .opened).box = []) :
    (s.zeroNeutral st).sq = { (s.neutralGone st rest).sq with flags := .clear, queue := [] } := by
  have unwaiting : (s.neutralGone st rest).sq.Unwaiting := by
    intro x head
    rw [fresh x (List.mem_of_mem_head? head)]
    nofun
  have cleared := State.sq_clearFlags unwaiting
  have only := ((JobOnly.refl s).setSq (s.neutralGone st rest).sq).clearFlags
  rw [State.zeroNeutral_eq queue]
  have works : (s.neutralGone st rest).clearFlags.running = true ∧ (s.neutralGone st rest).clearFlags.enable = true ∧
      (s.neutralGone st rest).clearFlags.pub = s.pub :=
    ⟨only.running.trans running, (congrArg Inputs.enable only.inputs).trans enable, congrArg Mu.pub only.mu⟩
  obtain ⟨running', enable', pub⟩ := works
  generalize (s.neutralGone st rest).clearFlags = v at cleared running' enable' pub
  have same : (s.sq.enterAll st.off .opened).SameBox v.sq := by
    rw [cleared]
    exact ⟨rfl, rfl, rfl⟩
  have behind : v.sq.queue = rest := by
    rw [cleared]
    rfl
  have started : v.sq.started = .none := by
    cases begun : v.sq.started with
    | none => rfl
    | some x =>
      obtain ⟨l, queue, phase⟩ := Sq.started_eq_some begun
      exact absurd (fresh x (by rw [← behind, queue]; exact List.mem_cons_self)) phase
  rw [State.inchEntry_none (same.engaged.trans none), State.rebuild_unstarted running' enable' started, pub, same.plan,
    same.box, done]
  show ({ v.sq with queue := [] } : Sq) = _
  rw [cleared]

theorem State.startPlain_empty (empty : s.sq.queue = []) : s.startPlain = s := by
  unfold State.startPlain Sq.waitingHead
  rw [empty]

/-! A starved fill (R68, R81, R99). -/

/-- The pedal moves no clutch that the box turns on out of LOCKED or SYNC. -/
theorem State.box_inchEntry (s : State) : s.inchEntry.sq.box = s.sq.box := by
  have other (c : Clutch) (forward : c ≠ .cf) (reverse : c ≠ .cr) : s.inchEntry.sq.locked c = s.sq.locked c := by
    unfold Sq.locked
    rw [State.state_inchEntry, if_neg]
    rintro ⟨-, ⟨same, -⟩ | ⟨same, -⟩⟩
    · exact forward same
    · exact reverse same
  have dir : s.inchEntry.sq.takeUp = s.sq.takeUp := by
    unfold Sq.takeUp
    rw [State.state_inchEntry, State.state_inchEntry]
    by_cases down : s.pub.band ≠ .released
    · by_cases forward : s.sq.state .cf = .locked
      · simp [down, forward]
      · by_cases reverse : s.sq.state .cr = .locked <;> simp [down, forward, reverse]
    · simp [down]
  unfold Sq.box Sq.range Sq.step
  rw [dir]
  rw [other .ca nofun nofun, other .cb nofun nofun, other .cc nofun nofun, other .c1 nofun nofun, other .c2 nofun nofun,
    other .c3 nofun nofun, other .c4 nofun nofun]

theorem Sq.plan_congr {p q : Sq} (taken : q.taken = p.taken) (target : q.autoTarget = p.autoTarget) (band : Band)
    (base : Conf) : q.plan band base = p.plan band base := by
  unfold Sq.plan Sq.wish Sq.safeNeutral Sq.auto
  rw [taken, target]

/-- A planned step, whatever else it carries. -/
def GearStep.planned (x : GearStep) : StepKind × List Clutch × List Clutch × Conf := (x.kind, x.on, x.off, x.result)

/-- A step begins as the one it was, at once. -/
theorem State.beginStep_queue (queue : s.sq.queue = st :: rest) (other : st.kind ≠ .neutralize) :
    ∃ st', (s.beginStep st).sq.queue = st' :: rest ∧ st'.planned = st.planned ∧ st'.phaseStart = s.now := by
  have readied : (s.readied st).sq.queue = s.asking st :: rest := by
    show s.asking st :: s.sq.queue.tail = _
    rw [queue]
    rfl
  rw [s.beginStep_other other]
  split
  · next c cs on =>
    rcases (State.askFill_asked readied rfl (fillUnits s.items st.on) c).entry with ⟨-, waits⟩ | ⟨-, fills⟩
    · rw [waits]
      exact ⟨_, readied, rfl, rfl⟩
    · rw [fills]
      exact ⟨_, rfl, rfl, rfl⟩
  · exact ⟨_, readied, rfl, rfl⟩

/-- The start of a planned head: the queue stays as planned, and a step that starts starts now. -/
theorem State.tryStart_queue (fresh : ∀ x ∈ s.sq.queue, x.phase = none ∧ x.kind ≠ .neutralize) :
    s.tryStart.sq.queue.map GearStep.planned = s.sq.queue.map GearStep.planned ∧
      ∀ x ∈ s.tryStart.sq.queue, x.phase ≠ none → x.phaseStart = s.now := by
  cases queue : s.sq.queue with
  | nil =>
    rw [State.tryStart_empty queue, queue]
    exact ⟨rfl, fun _ member => absurd member List.not_mem_nil⟩
  | cons st rest =>
    rw [queue] at fresh
    obtain ⟨unstarted, other⟩ := fresh st List.mem_cons_self
    by_cases free : s.Frees st
    · rw [State.tryStart_free queue unstarted free, if_neg fun h => other h.1]
      obtain ⟨st', begun, same, start⟩ := State.beginStep_queue queue other
      rw [begun, List.map_cons, List.map_cons, same]
      refine ⟨rfl, fun x member phase => ?_⟩
      rcases List.mem_cons.mp member with rfl | behind
      · exact start
      · exact absurd (fresh x (List.mem_cons_of_mem _ behind)).1 phase
    · rw [State.tryStart_held queue unstarted free, queue]
      exact ⟨rfl, fun x member phase => absurd (fresh x member).1 phase⟩

/-- The detection of a starved fill and the pass that follows tell the gearbox nothing. -/
theorem State.starved_detected (s : State) (site : Word) :
    let p := ((s.unasked .fill).detect .flowStarved site).grantPass
    p.sq = s.sq ∧ p.pub = s.pub ∧ p.now = s.now ∧ p.running = s.running ∧ p.enable = s.enable := by
  have only := (s.unasked .fill).markOnly .flowStarved site
  rw [State.detect_eq]
  have idle : ((s.unasked .fill).marked .flowStarved site).flow.fill.state = .idle := by
    rw [only.flow]
    rfl
  have sq : ((s.unasked .fill).marked .flowStarved site).sq = s.sq := only.sq
  have pub : ((s.unasked .fill).marked .flowStarved site).pub = s.pub := only.pub
  have now : ((s.unasked .fill).marked .flowStarved site).now = s.now := only.now
  have running : ((s.unasked .fill).marked .flowStarved site).running = s.running := only.running
  have enable : ((s.unasked .fill).marked .flowStarved site).enable = s.enable := only.enable
  generalize (s.unasked .fill).marked .flowStarved site = m at idle sq pub now running enable
  have follows := (GearStays.refl m).unitsFollow
  have passes := (GearStays.refl m.unitsFollow.fuConditions).grantPass
  have work := (JobOnly.refl m).unitsFollow
  have pass := (JobOnly.refl m.unitsFollow.fuConditions).grantPass
  refine ⟨?_, ?_, ?_, ?_, ?_⟩
  · exact (passes.still (.inl (follows.idle idle))).trans ((follows.still (.inl idle)).trans sq)
  · exact (congrArg Mu.pub pass.mu).trans ((congrArg Mu.pub work.mu).trans pub)
  · exact (congrArg Lcu.now pass.lcu).trans ((congrArg Lcu.now work.lcu).trans now)
  · exact pass.running.trans (work.running.trans running)
  · exact (congrArg Inputs.enable pass.inputs).trans ((congrArg Inputs.enable work.inputs).trans enable)

/-- A step whose fill starves is abandoned, and the plan is rebuilt from the box as it stands. -/
theorem State.sqStarved_queue (form : s.QueueForm) (running : s.running = true) (enable : s.enable = true)
    (queue : s.sq.queue = st :: rest) (waits : st.phase = some .flowWait) (wishes : s.sq.wish.1 ≠ none) :
    s.sqStarved.sq.queue.map GearStep.planned = ((s.sq.plan s.pub.band s.sq.box).take 4).map GearStep.planned ∧
      ∀ x ∈ s.sqStarved.sq.queue, x.phase ≠ none → x.phaseStart = s.now := by
  have begun : s.sq.started = some st := by
    unfold Sq.started
    rw [queue]
    dsimp only
    rw [waits]
    rfl
  have starved : s.sqStarved = s.abandonHead.replan := by
    unfold State.sqStarved
    rw [begun]
    exact if_pos waits
  have only := (JobOnly.refl s).abandonHead
  have sq := State.sq_abandonHead form queue
  have gone : (s.headGone st rest).sq = { s.sq with queue := rest } := by
    rw [State.sq_headGone, if_pos waits]
  have taken : s.abandonHead.sq.taken = s.sq.taken := by rw [sq, gone]
  have target : s.abandonHead.sq.autoTarget = s.sq.autoTarget := by rw [sq, gone]
  have behind : s.abandonHead.sq.queue = rest := by rw [sq, gone]
  have box : s.abandonHead.sq.box = s.sq.box := by
    have cleared := State.sq_clearFlags (s := s.headGone st rest) (form.unwaiting queue (by rw [State.sq_headGone]))
    rw [State.abandonHead_eq queue, State.box_inchEntry, cleared, gone]
    rfl
  have pub : s.abandonHead.pub = s.pub := congrArg Mu.pub only.mu
  have now : s.abandonHead.now = s.now := congrArg Lcu.now only.lcu
  have running' := only.running.trans running
  have enable' : s.abandonHead.enable = true := (congrArg Inputs.enable only.inputs).trans enable
  have started : s.abandonHead.sq.started = none := by
    cases begun : s.abandonHead.sq.started with
    | none => rfl
    | some x =>
      obtain ⟨l, queue', phase⟩ := Sq.started_eq_some begun
      refine absurd (form.head x ?_) phase
      rw [queue, List.tail_cons, ← behind, queue']
      exact List.mem_cons_self
  have replanned : s.sqStarved = (s.abandonHead.setQueue (s.sq.plan s.pub.band s.sq.box)).tryStart := by
    rw [starved]
    unfold State.replan
    rw [State.rebuild_unstarted running' enable' started, pub, box, Sq.plan_congr taken target]
  have fresh : ∀ x ∈ (s.sq.plan s.pub.band s.sq.box).take 4, x.phase = none ∧ x.kind ≠ .neutralize := by
    intro x member
    have planned := List.mem_of_mem_take member
    exact ⟨(Sq.plan_fresh s.sq _ _ x planned).1, fun neutral => wishes (Sq.plan_neutralize planned neutral).1⟩
  have starts := State.tryStart_queue (s := s.abandonHead.setQueue (s.sq.plan s.pub.band s.sq.box)) fresh
  rw [← replanned] at starts
  obtain ⟨shapes, start⟩ := starts
  exact ⟨shapes, fun x member phase => (start x member phase).trans now⟩

theorem flowWaitExpiry_replans (form : s.QueueForm) (running : s.running = true) (enable : s.enable = true)
    (queue : s.sq.queue = st :: rest) (waits : st.phase = some .flowWait) (due : s.starves .fill = true)
    (wishes : s.sq.wish.1 ≠ none) :
    CompletesWith (.flowWaitExpiry .fill) s fun t =>
      t.sq.queue.map GearStep.planned = ((s.sq.plan s.pub.band s.sq.box).take 4).map GearStep.planned ∧
      ∀ x ∈ t.sq.queue, x.phase ≠ none → x.phaseStart = s.now := by
  refine ⟨_, congrArg Host.Outcome.next (State.expire_due due _), ?_⟩
  have ends := (SettleOnly.refl (s.starve .fill)).settle s.sq
  generalize (s.starve .fill).settle s.sq = t at ends
  dsimp only
  rw [ends.queue, State.starve_fill]
  obtain ⟨sq, pub, now, running', enable'⟩ := s.starved_detected (s.starvedSite .fill)
  generalize ((s.unasked .fill).detect .flowStarved (s.starvedSite .fill)).grantPass = p at sq pub now running' enable'
  have form' : p.QueueForm := ⟨by rw [sq]; exact form.short, by rw [sq]; exact form.head⟩
  have after := State.sqStarved_queue (st := st) (rest := rest) form'
    (running'.trans running) (enable'.trans enable) (by rw [sq]; exact queue) waits (by rw [sq]; exact wishes)
  rw [sq, pub, now] at after
  exact after

end Sys2Proof.Machine
end

section
/-! SUPPORT and O52. A start with a fill, and the obligation (R77, R78, R80 to R83, R90, R99, R101). -/

namespace Sys2Proof.Machine

variable {s t : State} {st : GearStep} {rest : List GearStep}

/-! A step that is not a NEUTRALIZE starts (R83, R101). -/

theorem State.beginStep_asked (queue : s.sq.queue = st :: rest) (other : st.kind ≠ .neutralize) {c : Clutch}
    {on : List Clutch} (clutches : st.on = c :: on) :
    FillAsked (s.readied st) (s.asking st) rest (fillUnits s.items st.on) c (s.beginStep st) := by
  have readied : (s.readied st).sq.queue = s.asking st :: rest := by
    show s.asking st :: s.sq.queue.tail = _
    rw [queue]
    rfl
  have begins : s.beginStep st = (s.readied st).askFill (fillUnits s.items st.on) c := by
    rw [s.beginStep_other other, clutches]
  rw [begins]
  exact State.askFill_asked readied rfl _ c

/-- The draft that a RANGE or SHUTTLE step freezes, and no other (R101, R128). -/
theorem State.frozen_readied (s : State) (st : GearStep) :
    (st.kind = .range ∨ st.kind = .shuttle →
      (s.readied st).hr.frozen = s.pub.draft ∧ (s.readied st).hr.frozenLost = s.pub.draft.isNone) ∧
    (st.kind ≠ .range → st.kind ≠ .shuttle →
      (s.readied st).hr.frozen = s.hr.frozen ∧ (s.readied st).hr.frozenLost = s.hr.frozenLost) := by
  have hr : (s.readied st).hr = if decide (st.kind = .range ∨ st.kind = .shuttle) = true then
      { s.hr with frozen := s.pub.draft, frozenLost := s.pub.draft.isNone } else s.hr := rfl
  constructor
  · intro freezes
    rw [hr, if_pos (decide_eq_true freezes)]
    exact ⟨rfl, rfl⟩
  · intro range shuttle
    rw [hr, if_neg (by simp [range, shuttle])]
    exact ⟨rfl, rfl⟩

namespace FillAsked

variable {c : Clutch} {n : Nat}

/-- The step that asked, at the head: in its flow wait, or in FILL. -/
theorem head (h : FillAsked (s.readied st) (s.asking st) rest n c t) (queue : s.sq.queue = st :: rest) :
    ∃ st', t.sq.queue = st' :: rest ∧ st'.kind = st.kind ∧ st'.on = st.on ∧ st'.off = st.off ∧ st'.result = st.result ∧
      st'.response = takenField s.sq.taken 7 ∧ st'.phaseStart = s.now ∧
      (t.flow.fill.state = .waiting → st'.phase = some .flowWait) ∧
      (t.flow.fill.state = .granted → st'.phase = some .fill) := by
  rcases h.entry with ⟨waiting, sq⟩ | ⟨granted, sq⟩
  · refine ⟨s.asking st, ?_, rfl, rfl, rfl, rfl, rfl, rfl, fun _ => rfl, fun granted => ?_⟩
    · rw [sq]
      show s.asking st :: s.sq.queue.tail = _
      rw [queue]
      rfl
    · rw [waiting] at granted
      cases granted
  · refine ⟨(s.readied st).filling (s.asking st), by rw [sq], rfl, rfl, rfl, rfl, rfl, rfl, fun waiting => ?_, fun _ => rfl⟩
    rw [granted] at waiting
    cases waiting

theorem flags (h : FillAsked (s.readied st) (s.asking st) rest n c t) :
    t.sq.flags =
      { s.sq.flags with
        draftFreeze := st.kind = .range || st.kind = .shuttle, assistWindow := st.kind = .shuttle } := by
  have readied : t.sq.flags = (s.readied st).sq.flags := by
    rcases h.entry with ⟨-, sq⟩ | ⟨-, sq⟩ <;> rw [sq]
    rfl
  have freezes : (s.readied st).sq.flags.draftFreeze = (st.kind = .range || st.kind = .shuttle) := Bool.decide_or _ _
  rw [readied, ← freezes]
  rfl

theorem frozen (h : FillAsked (s.readied st) (s.asking st) rest n c t) :
    t.hr.frozen = (s.readied st).hr.frozen ∧ t.hr.frozenLost = (s.readied st).hr.frozenLost := by
  constructor
  · show t.hr.still.frozen = _
    rw [h.still]
    rfl
  · show t.hr.still.frozenLost = _
    rw [h.still]
    rfl

theorem state (h : FillAsked (s.readied st) (s.asking st) rest n c t) (x : Clutch) :
    t.sq.state x = if x ∈ st.on ∧ t.flow.fill.state = .granted then .fill else s.sq.state x := by
  rcases h.entry with ⟨waiting, sq⟩ | ⟨granted, sq⟩
  · rw [sq, waiting, if_neg fun h => nomatch h.2]
    rfl
  · rw [sq, granted]
    refine (Sq.state_enterAll (s.readied st).sq st.on .fill x).trans (if_congr ?_ rfl rfl)
    exact ⟨fun on => ⟨on, rfl⟩, And.left⟩

end FillAsked

/-! A hand-over (R77, R97). -/

/-- The auto target, the wish and the interlock that an order as taken gives. -/
theorem Sq.take_leads {q t : Sq} (target : t.autoTarget = (q.take t.taken).autoTarget)
    (interlock : t.interlock = (q.take t.taken).interlock) :
    let f (i : Nat) : Nat := takenField t.taken i
    let slot := takenSlot t.taken
    let banded (gear : Nat) : Nat := min (max gear (f 3)) (f 4)
    let kept : Prop := takenField q.taken 0 = 2 ∧ q.taken.map Taken.handle = t.taken.map Taken.handle
    (f 0 ≠ 2 → t.autoTarget = 0) ∧
    (f 0 = 2 → kept → t.autoTarget = banded q.autoTarget) ∧
    (f 0 = 2 → ¬ kept → ∀ r n, q.range = some r → q.step = some n →
      (q.state .cf ≠ .opened ∨ q.state .cr ≠ .opened) → t.autoTarget = banded (gearOf r n)) ∧
    (f 0 = 2 → ¬ kept → (q.range = none ∨ q.step = none ∨ q.state .cf = .opened ∧ q.state .cr = .opened) →
      t.autoTarget = banded (f 2)) ∧
    t.wish =
      (let d : Dir := if f 1 = 1 then .reverse else .forward
       if f 0 = 1 then (some d, f 2) else if f 0 = 2 then (some d, t.autoTarget) else (none, f 2)) ∧
    t.interlock = (if slot = 0 then true else if 8 ≤ slot ∧ slot < 48 ∧ f 0 = 0 then false else q.interlock) := by
  intro f slot banded kept
  obtain ⟨other, same, gear, setpoint⟩ := Sq.retake_cases { q with taken := t.taken, up := none, down := none }
    (q.auto && q.taken.map (·.handle) = t.taken.map (·.handle))
  have keeps : (q.auto && decide (q.taken.map (·.handle) = t.taken.map (·.handle))) = true ↔ kept := by
    rw [Bool.and_eq_true, q.auto_iff, decide_eq_true_iff]
  refine ⟨fun manual => target.trans (other manual), fun auto keep => target.trans (same auto (keeps.mpr keep)),
    fun auto new r n range step works =>
      target.trans (gear auto (Bool.eq_false_iff.mpr (mt keeps.mp new)) r n range step works),
    fun auto new none => target.trans (setpoint auto (Bool.eq_false_iff.mpr (mt keeps.mp new)) none), t.wish_eq,
    interlock.trans (if_congr decide_eq_true_iff rfl rfl)⟩

/-- Settles O52. -/
theorem planLeadsToTheWish : Obligations.PlanLeadsToTheWish := by
  refine ⟨fun q band base => ?plan, fun s running enable => ?rebuild, fun s st rest form queue phase => ?abandon,
    fun s => ?flags, fun s st rest form running enable queue phase due wishes =>
      flowWaitExpiry_replans form running enable queue phase due wishes,
    fun s st running enable started neutral slot =>
      State.cutNeutral_rests (s := { s with sq := s.sq.take (s.takenNow .gear) }) running enable started neutral
        (decide_eq_true slot),
    fun s => ?handOver, fun s st rest queue fresh => ?start⟩
  case plan =>
    refine ⟨q.plan_fresh band base, fun low high => ⟨q.plan_nil band base low high, fun st => Sq.plan_last low high,
      fun free => ?_, fun r0 n0 moves wishes up range step => ?_, fun free => ?_⟩⟩
    · have shapes := Sq.plan_shapes_free (q := q) (band := band) (base := base)
        (free.imp_right (Or.imp_right Or.inl))
      rw [q.turnSteps_shapes, q.engageSteps_shapes] at shapes
      exact shapes
    · obtain ⟨manual, auto, way⟩ := Sq.plan_by_shifts (q.turnSteps_shapes band base) low high moves wishes up range step
      exact ⟨manual, auto, way⟩
    · have shapes := Sq.plan_shapes_free (q := q) (band := band) (base := base) (.inr (.inr (.inr free)))
      rw [q.turnSteps_shapes, q.engageSteps_shapes] at shapes
      exact shapes
  case rebuild =>
    refine ⟨fun started => ?_, fun st started stays => ?_, fun st p ps started kind phase plan kinds on off result => ?_,
      fun st started kind phase other => ?_⟩
    · rw [State.rebuild_unstarted running enable started]
      rfl
    · rw [State.rebuild_behind running enable started (st.stays_iff.mpr stays)]
      rfl
    · rw [State.rebuild_met running enable started (GearStep.leaves kind phase) plan
        ((p.agrees_iff st).mpr ⟨kinds, on, off, result⟩)]
      rfl
    · exact State.rebuild_abandons running enable started (GearStep.leaves kind phase) fun p ps plan meets =>
        other p ps plan ((p.agrees_iff st).mp meets)
  case abandon =>
    refine ⟨?_, ?_, fun held => ?_, State.frozen_abandonHead queue, State.state_abandonHead form queue⟩
    · rw [State.sq_abandonHead form queue, State.sq_headGone]
    · rw [State.sq_abandonHead form queue]
    · exact State.fill_abandonHead queue (phase.imp_right fun later => later.resolve_right held)
  case flags =>
    obtain ⟨frozen, lost⟩ := s.clearFlags_frozen
    refine ⟨s.clearFlags_flags, fun froze => ?_, fun thawed => ?_, State.clearFlags_release, State.clearFlags_undeferred⟩
    · rw [frozen, lost, froze]
      exact ⟨rfl, rfl⟩
    · rw [frozen, lost, thawed]
      exact ⟨rfl, rfl⟩
  case handOver =>
    obtain ⟨target, interlock, taken, up, down⟩ := s.sqTake_wishes
    rw [← taken] at target interlock
    exact ⟨taken, up, down, Sq.take_leads target interlock⟩
  case start =>
    refine ⟨fun held => State.tryStart_held queue fresh held, fun free neutral ramps => ?_,
      fun free neutral zero => ?_, fun free c on other clutches => ?_⟩
    · rw [State.tryStart_free queue fresh free, if_neg fun h => by rw [ramps] at h; exact nomatch h.2]
      obtain ⟨begun, -, clutch⟩ := State.beginStep_neutralize queue fresh neutral
      refine ⟨begun, fun c => ?_, fun c => ?_⟩
      · unfold Sq.state
        rw [clutch]
        split <;> rfl
      · rw [clutch]
        split <;> rfl
    · obtain ⟨running, enable, -⟩ := id free
      rw [State.tryStart_free queue fresh free, if_pos ⟨neutral, zero⟩]
      have eases := (Eases.refl (s.zeroNeutral st)).startPlain (State.heads_zeroNeutral queue running enable)
      refine ⟨fun c off => eases.rests c ((s.rests_zeroNeutral st).1 c off), fun behind none done => ?_⟩
      have last := State.zeroNeutral_last queue behind running enable none done
      rw [State.startPlain_empty (by rw [last]), last]
      exact ⟨rfl, rfl, rfl, fun c => Sq.state_enterAll s.sq st.off .opened c⟩
    · rw [State.tryStart_free queue fresh free, if_neg fun h => other h.1]
      have asked := State.beginStep_asked queue other clutches
      obtain ⟨frozen, lost⟩ := asked.frozen
      obtain ⟨freezes, keeps⟩ := s.frozen_readied st
      refine ⟨asked.head queue, asked.entry.imp And.left And.left, asked.asked, asked.site, asked.flags, fun kind => ?_,
        fun range shuttle => ?_, asked.state⟩
      · rw [frozen, lost]
        exact freezes kind
      · rw [frozen, lost]
        exact keeps range shuttle

end Sys2Proof.Machine
end

section
/-! O9: the form of the gearbox does not survive a write of the default trailer law. -/

namespace Sys2Proof.Machine

/-- A GEAR order stands in the slot of DEFAULT_TBRAKE: no command places one there, but `GearboxForm` says nothing of the slots
that the GEAR list names, and CONFIG_WRITE writes the default trailer law (item 23) into the order in slot 7 (R14). -/
def misplacedGearOrder : State :=
  { State.reset with
    pending := [.configWrite .cab 1 23 0 1 ⟨100, 0, 0, 0, 0, 0, 0, 0⟩],
    otu := { State.reset.otu with
      slots := State.reset.otu.slots.set 7 ⟨0, some (internalOrder 4 true .outranked)⟩,
      lists := ⟨[0, 4, 7], [1, 5], [2, 6], [3]⟩ } }

theorem misplacedGearOrder_form : misplacedGearOrder.GearboxForm :=
  { reset_gearboxForm with
    size := rfl
    orders := by
      intro k listed
      fin_cases listed
      · exact ⟨_, rfl, rfl, by decide⟩
      · exact ⟨_, rfl, rfl, by decide⟩
      · exact ⟨_, rfl, rfl, by decide⟩ }

/-- The write leaves the order on the GEAR list with the fields of a trailer law. -/
theorem misplacedGearOrder_written :
    ∃ t, step misplacedGearOrder = .next t ∧ 7 ∈ t.list .gear ∧
      (t.order 7).all (fun o => !setpointOk .gear o.setpoint) = true :=
  ⟨_, rfl, by decide +kernel, by decide +kernel⟩

/-- Refutes O9: the second part fails, since the GEAR list of a state in `GearboxForm` may name slot 7, whose setpoint fields
follow the default trailer law in CONFIG. -/
theorem not_queueFormKept : ¬ Obligations.QueueFormKept := by
  unfold Obligations.QueueFormKept
  rintro ⟨-, kept, -⟩
  obtain ⟨t, run, listed, spoilt⟩ := misplacedGearOrder_written
  obtain ⟨o, live, -, inRange⟩ := (kept _ t misplacedGearOrder_form run).orders 7 listed
  rw [live] at spoilt
  simp [inRange] at spoilt

end Sys2Proof.Machine
end

section
/-! SUPPORT. What the commanded currents depend on, and what leaves them alone (R74, R105, R120, R136, R149). -/

namespace Sys2Proof.Machine

variable {s t u : State}

/-- The current of a clutch looks at its record, the queue, the store, the timebase and the last publication. -/
theorem State.clutchCurrent_congr (clutch : ∀ c, t.sq.state c = s.sq.state c ∧
      (t.sq.clutch.get c).ramp = (s.sq.clutch.get c).ramp) (queue : t.sq.queue = s.sq.queue) (cs : t.cs = s.cs)
    (now : t.now = s.now) (pub : t.pub = s.pub) (c : Clutch) : t.clutchCurrent c = s.clutchCurrent c := by
  obtain ⟨state, ramp⟩ := clutch c
  have started : t.sq.started = s.sq.started := by
    unfold Sq.started
    rw [queue]
  unfold Sq.state at state
  unfold State.clutchCurrent State.syncCurrent State.pedalCurrent Sq.stepSync Sq.freeStarted State.items
  dsimp only
  rw [state, ramp, started, cs, now, pub]

theorem State.commanded_clutch {ch : OutCh} {c : Clutch} (on : clutchOf ch = some c) :
    s.commanded ch = (s.sq.clutch.get c).current := by
  unfold State.commanded
  rw [on]

theorem SettleOnly.clutchCurrent (h : SettleOnly s t) (c : Clutch) : t.clutchCurrent c = s.clutchCurrent c :=
  State.clutchCurrent_congr (fun c => ⟨h.clutchState c, by rw [h.clutch c]⟩) h.queue h.cs h.now h.pub c

/-- The end of an event leaves what the axle, the hitch and the trailer command. -/
theorem SettleOnly.unitCurrent (h : SettleOnly s t) {ch : OutCh} (unit : clutchOf ch = none) :
    t.commanded ch = s.commanded ch := by
  have axle : t.acuCurrent = s.acuCurrent := by
    unfold State.acuCurrent
    rw [h.acu, h.items]
  have raise : t.hrRaise = s.hrRaise := by
    unfold State.hrRaise State.raiseCurrent
    rw [h.hr, h.items]
  have lower : t.hrLower = s.hrLower := by
    unfold State.hrLower State.lowerCurrent
    rw [h.hr, h.items]
  have trailer : t.tbuCurrent = s.tbuCurrent := by
    unfold State.tbuCurrent
    rw [h.running, h.tbuState, h.tbuDemand, h.items]
  unfold State.commanded
  rw [unit]
  dsimp only
  rw [axle, raise, lower, trailer]

/-- Nothing differs that a commanded current, or its hand-over to a channel, depends on. -/
structure SameCurrents (s t : State) : Prop where
  running : t.running = s.running
  current : ∀ c, (t.sq.clutch.get c).current = (s.sq.clutch.get c).current
  clutch : ∀ c, t.clutchCurrent c = s.clutchCurrent c
  unit : ∀ ch, clutchOf ch = none → t.commanded ch = s.commanded ch
  pending : ∀ ch, (t.os.get ch).pending = (s.os.get ch).pending

namespace SameCurrents

theorem refl (s : State) : SameCurrents s s := ⟨rfl, fun _ => rfl, fun _ => rfl, fun _ _ => rfl, fun _ => rfl⟩

theorem trans (h : SameCurrents s t) (g : SameCurrents t u) : SameCurrents s u where
  running := g.running.trans h.running
  current c := (g.current c).trans (h.current c)
  clutch c := (g.clutch c).trans (h.clutch c)
  unit ch on := (g.unit ch on).trans (h.unit ch on)
  pending ch := (g.pending ch).trans (h.pending ch)

theorem setPort (s : State) (p : Port) (r : PortRec) : SameCurrents s (s.setPort p r) :=
  { refl s with unit := fun ch _ => by cases ch <;> rfl }

theorem attend (s : State) (p : Port) : SameCurrents s (s.attend p) := setPort s p _

theorem commanded (h : SameCurrents s t) (ch : OutCh) : t.commanded ch = s.commanded ch := by
  cases on : clutchOf ch with
  | none => exact h.unit ch on
  | some c => rw [State.commanded_clutch on, State.commanded_clutch on, h.current c]

theorem handed (h : SameCurrents s t) (handed : s.SetpointsHanded) : t.SetpointsHanded where
  clutches c := by rw [h.current, h.clutch, handed.clutches c]
  pending running ch := by rw [h.pending, h.commanded, handed.pending (h.running ▸ running) ch]

end SameCurrents

/-! The end of an event (R74, R149, R150, log 25). -/

theorem State.clutchCurrents_current (s : State) (c : Clutch) :
    (s.clutchCurrents.sq.clutch.get c).current = s.clutchCurrent c := by
  unfold State.clutchCurrents
  rw [ByClutch.get_tabulate]

/-- The setpoints are handed over once the currents are those of the clutch states. -/
theorem State.handSetpoints_handed (s : State) : s.clutchCurrents.handSetpoints.SetpointsHanded := by
  have currents := (SettleOnly.refl s).clutchCurrents
  have hands := (SettleOnly.refl s.clutchCurrents).handSetpoints
  have sq : s.clutchCurrents.handSetpoints.sq = s.clutchCurrents.sq := by
    unfold State.handSetpoints
    split <;> rfl
  refine ⟨fun c => ?_, fun running ch => ?_⟩
  · rw [sq, s.clutchCurrents_current, hands.clutchCurrent, currents.clutchCurrent]
  · have commanded : s.clutchCurrents.handSetpoints.commanded ch = s.clutchCurrents.commanded ch := by
      cases on : clutchOf ch with
      | none => exact hands.unitCurrent on
      | some c => rw [State.commanded_clutch on, State.commanded_clutch on, sq]
    rw [commanded]
    unfold State.handSetpoints
    rw [if_pos (hands.running ▸ running), ByOut.get_tabulate]

theorem State.os_writeKeeping (s : State) (ch : Channel) (v : Keeping) : (s.writeKeeping ch v).os = s.os := by
  unfold State.writeKeeping
  split
  · rfl
  · split
    · rfl
    · split
      · rfl
      · next k _ _ o _ _ => exact ((CausesOnly.refl (s.setOrder k { o with keeping := v })).noteChange k o).os

theorem State.os_keepAll (s : State) : s.keepAll.os = s.os := by
  unfold State.keepAll
  split
  · simp only [State.os_writeKeeping]
  · rfl

theorem SameCurrents.keepAll (s : State) : SameCurrents s s.keepAll := by
  have ends := (SettleOnly.refl s).keepAll
  obtain ⟨-, sq, -, -⟩ := s.sameUnits_keepAll
  exact ⟨ends.running, fun c => by rw [sq], ends.clutchCurrent, fun ch on => ends.unitCurrent on,
    fun ch => by rw [State.os_keepAll]⟩

/-- After every event the records hold the currents of their states and the setpoints are handed over. -/
theorem State.settle_handed (s : State) (old : Sq) : (s.settle old).SetpointsHanded :=
  (SameCurrents.keepAll _).handed (State.handSetpoints_handed _)

end Sys2Proof.Machine
end

section
/-! SUPPORT and O13. Every command leaves the currents alone, or is an event whose end brings them up to date (log 25). -/

namespace Sys2Proof.Machine

variable {s t u : State}

/-- What a command does to the commanded currents: nothing, or it ends as an event, after which only ports change. -/
inductive Hands (s t : State) : Prop where
  | quiet (same : SameCurrents s t)
  | settled (u : State) (old : Sq) (after : SameCurrents (u.settle old) t)

namespace Hands

theorem refl (s : State) : Hands s s := .quiet (.refl s)

theorem settle (s u : State) (old : Sq) : Hands s (u.settle old) := .settled u old (.refl _)

theorem prepend (h : SameCurrents s t) (g : Hands t u) : Hands s u := by
  cases g with
  | quiet g => exact .quiet (h.trans g)
  | settled v old after => exact .settled v old after

theorem append (h : Hands s t) (g : SameCurrents t u) : Hands s u := by
  cases h with
  | quiet h => exact .quiet (h.trans g)
  | settled v old after => exact .settled v old (after.trans g)

theorem handed (h : Hands s t) (handed : s.SetpointsHanded) : t.SetpointsHanded := by
  cases h with
  | quiet same => exact same.handed handed
  | settled u old after => exact after.handed (u.settle_handed old)

/-! Events. -/

theorem event (s : State) (c : Bool) (f : State → State) : Hands s (s.event c f) := by
  unfold State.event
  split
  · exact settle _ _ _
  · exact refl s

theorem reach (s : State) (due : State → Bool) : Hands s (s.reach due) := by
  rcases s.reach_cases due with stays | ⟨-, -, -, turns⟩
  · rw [stays]
    exact refl s
  · rw [turns]
    exact settle _ _ _

theorem expire (s : State) (due : State → Bool) (f : State → State) : Hands s (s.expire due f) := by
  unfold State.expire State.event
  dsimp only
  split
  · exact settle _ _ _
  · exact reach s due

/-! Requests. -/

theorem request {p : Port} {code tag : Byte} {run : State → State × Option Answer} (acts : ∀ u, Hands u (run u).1) :
    Hands s (s.request p code tag run) := by
  unfold State.request
  dsimp only
  split
  · exact .quiet (.setPort s _ _)
  · exact .quiet (.setPort s _ _)
  · have run := (acts (s.setPort p { (s.port p).begin with txn := none })).prepend (.setPort s _ _)
    split
    · exact run.append (.setPort _ _ _)
    · exact run

theorem query {p : Port} {code tag : Byte} {answer : State → Answer} : Hands s (s.query p code tag answer) :=
  request fun u => refl u

theorem cabRequest {p : Port} {code tag : Byte} {run : State → State × Answer} (acts : ∀ u, Hands u (run u).1) :
    Hands s (s.cabRequest p code tag run) := by
  refine request fun u => ?_
  cases p with
  | cab => exact acts u
  | implement => exact refl u

theorem resetPort (s : State) (p : Port) : Hands s (s.resetPort p) := (settle s _ _).append (.attend _ _)

theorem runPlace (u : State) (p : Port) (tag channel cls terms : Byte) (lease : Word) (v : Values) :
    Hands u (u.runPlace p tag channel cls terms lease v).1 := by
  unfold State.runPlace
  split
  · exact refl u
  · split
    · exact refl u
    · split
      · exact refl u
      · exact settle u _ u.sq

theorem runAmend (u : State) (p : Port) (tag slot inc first : Byte) (front : Bool) (count : BitVec 7) (gen : Word)
    (v : Values) : Hands u (u.runAmend p tag slot inc first front count gen v).1 := by
  unfold State.runAmend
  dsimp only
  split
  · exact refl u
  · split
    · exact refl u
    · exact settle u _ u.sq

theorem runRetire (u : State) (p : Port) (tag slot inc : Byte) (gen : Word) : Hands u (u.runRetire p tag slot inc gen).1 := by
  unfold State.runRetire
  dsimp only
  split
  · exact refl u
  · split
    · exact refl u
    · split
      · exact refl u
      · exact settle u _ u.sq

theorem restartLease (s : State) (k : Nat) (w : Word) : SameCurrents s (s.restartLease k w) :=
  { SameCurrents.refl s with unit := fun ch _ => by cases ch <;> rfl }

theorem runRenew (u : State) (p : Port) (tag slot inc : Byte) : Hands u (u.runRenew p tag slot inc).1 := by
  unfold State.runRenew
  dsimp only
  split
  · exact refl u
  · next o found =>
    split
    · exact refl u
    · split
      · exact refl u
      · dsimp only
        split
        · exact refl u
        · exact .quiet (restartLease u _ o.lease)

theorem runMask (u : State) (p : Port) (code tag mask : Byte) (f : {n : Nat} → BitVec n → BitVec n → BitVec n)
    (value : Word) : Hands u (u.runMask p code tag mask f value).1 := by
  unfold State.runMask
  split
  · exact .quiet ((SameCurrents.setPort u p _).trans (.attend _ p))
  · exact .quiet { SameCurrents.refl u with unit := fun ch _ => by cases ch <;> rfl }
  · exact refl u

theorem runClear (u : State) (tag kind : Byte) : Hands u (u.runClear tag kind).1 := by
  unfold State.runClear
  split
  · exact refl u
  · split
    · exact refl u
    · split
      · exact refl u
      · dsimp only
        exact settle u _ u.sq

theorem runConfigWrite (u : State) (tag item first count : Byte) (v : Values) :
    Hands u (u.runConfigWrite tag item first count v).1 := by
  unfold State.runConfigWrite
  dsimp only
  split
  · exact refl u
  · exact settle _ _ _

theorem runAdaptRead (u : State) (tag first count : Byte) : Hands u (u.runAdaptRead tag first count).1 := by
  unfold State.runAdaptRead
  split <;> exact refl u

theorem runStart (u : State) (tag : Byte) : Hands u (u.runStart tag).1 := by
  unfold State.runStart
  split
  · exact refl u
  · split
    · exact refl u
    · dsimp only
      unfold State.starting
      exact settle u _ u.sq

theorem runStop (u : State) (tag : Byte) : Hands u (u.runStop tag).1 := by
  unfold State.runStop
  split
  · dsimp only
    unfold State.stopping
    exact settle u _ u.sq
  · exact refl u

/-- Written offsets leave the states, the ramps and the currents of the clutches. -/
theorem writeOffsets_still (t : ByClutch ClutchRec) (l : List (Clutch × Word)) (c : Clutch) :
    ((writeOffsets t l).get c).current = (t.get c).current ∧ ((writeOffsets t l).get c).state = (t.get c).state ∧
      ((writeOffsets t l).get c).ramp = (t.get c).ramp := by
  induction l generalizing t with
  | nil => exact ⟨rfl, rfl, rfl⟩
  | cons x l ih =>
    obtain ⟨d, w⟩ := x
    obtain ⟨current, state, ramp⟩ := ih (t.set d { t.get d with fillOffset := w.toInt, trend := 0 })
    have same : ∀ {α : Type} (f : ClutchRec → α), f { t.get d with fillOffset := w.toInt, trend := 0 } = f (t.get d) →
        f ((t.set d { t.get d with fillOffset := w.toInt, trend := 0 }).get c) = f (t.get c) := by
      intro α f e
      rw [ByClutch.get_set]
      split
      · next here => rw [e, here]
      · rfl
    exact ⟨current.trans (same _ rfl), state.trans (same _ rfl), ramp.trans (same _ rfl)⟩

theorem runAdaptWrite (u : State) (tag first count : Byte) (v : Values) : Hands u (u.runAdaptWrite tag first count v).1 := by
  unfold State.runAdaptWrite
  dsimp only
  split
  · exact refl u
  · split
    · exact refl u
    · split
      · exact refl u
      · have still := writeOffsets_still u.sq.clutch ((clutchRun first.toNat count.toNat).zip (v.toList.take count.toNat))
        exact .quiet
          { SameCurrents.refl u with
            current := fun c => (still c).1
            clutch := State.clutchCurrent_congr (fun c => (still c).2) rfl rfl rfl rfl
            unit := fun ch on => by cases ch <;> cases on <;> rfl }

/-- A command with one next state. -/
theorem of_next (h : Hands s u) (done : (Host.Outcome.next u : Host.Outcome State Fault Refusal) = .next t) :
    Hands s t := by
  cases done
  exact h

theorem stepExpire {step : State → Option GearStep} {f : State → GearStep → State}
    (done : s.stepExpire step f = .next t) : Hands s t := of_next (expire _ _ _) done

theorem looseExpire {due : State → Dir → Bool} {f : State → Dir → State} (done : s.looseExpire due f = .next t) :
    Hands s t := of_next (expire _ _ _) done

theorem onPort (s : State) (p : Port) (f : PortRec → PortRec) : Hands s (s.onPort p f) := .quiet (.setPort s p _)

end Hands

theorem State.poweredOn_handed (s : State) : s.poweredOn.SetpointsHanded :=
  ⟨fun c => by cases c <;> rfl, fun running => by cases running⟩

open Hands in
/-- What every command does to the commanded currents: nothing, an event, or power-on reset. -/
theorem exec_hands {c : Instr} (h : exec c s = .next t) : Hands s t ∨ ∃ u : State, t = u.poweredOn := by
  cases c with
  | powerOnReset =>
    cases h
    exact .inr ⟨s, rfl⟩
  | nop | read | find | list | status | faultRead | configRead | badRequest => exact .inl (of_next query h)
  | place => exact .inl (of_next (request fun u => runPlace u ..) h)
  | amend => exact .inl (of_next (request fun u => runAmend u ..) h)
  | renew => exact .inl (of_next (request fun u => runRenew u ..) h)
  | retire => exact .inl (of_next (request fun u => runRetire u ..) h)
  | collect => exact .inl (of_next (request fun u => .quiet (.setPort u _ _)) h)
  | causes => exact .inl (of_next (request fun u => .quiet ((SameCurrents.setPort u _ _).trans (.attend _ _))) h)
  | maskSet | maskClear => exact .inl (of_next (request fun u => runMask u ..) h)
  | portReset => exact .inl (of_next (request fun u => resetPort u _) h)
  | badFrame => exact .inl (of_next (request fun u => .quiet (.setPort u _ _)) h)
  | clearFault => exact .inl (of_next (cabRequest fun u => runClear u ..) h)
  | configWrite => exact .inl (of_next (cabRequest fun u => runConfigWrite u ..) h)
  | adaptRead => exact .inl (of_next (cabRequest fun u => runAdaptRead u ..) h)
  | adaptWrite => exact .inl (of_next (cabRequest fun u => runAdaptWrite u ..) h)
  | start => exact .inl (of_next (cabRequest fun u => runStart u _) h)
  | stop => exact .inl (of_next (cabRequest fun u => runStop u _) h)
  | busy | transactionBegin | answerWritten | heldResetDiscard => exact .inl (of_next (onPort s _ _) h)
  | portResetInput p level =>
    change execPortResetInput p level s = .next t at h
    unfold execPortResetInput at h
    split at h
    · exact .inl (of_next (onPort s _ _) h)
    · split at h
      · exact .inl (of_next (refl s) h)
      · exact .inl (of_next ((resetPort _ p).prepend (.setPort s p _)) h)
  | throttleTimerExpiry p =>
    cases h
    refine .inl ?_
    split
    · exact (reach s _).append ((SameCurrents.setPort _ p _).trans (.attend _ p))
    · exact reach s _
  | conditionReport slot =>
    change execConditionReport slot s = .next t at h
    unfold execConditionReport at h
    split at h
    · exact .inl (of_next (event s _ _) h)
    · exact .inl (of_next (refl s) h)
  | faultConditionReport which =>
    change execFaultConditionReport which s = .next t at h
    unfold execFaultConditionReport at h
    split at h
    · exact .inl (of_next (event s _ _) h)
    · exact .inl (of_next (refl s) h)
  | enableFall | enableRise | periodBoundary | trailerPresentChange | breakawayInputChange | selectedEdge | muPublication
  | coolingStep | shortCircuitTrip => exact .inl (of_next (event s _ _) h)
  | fillEnd | holdEnd | rampOnEnd | rampOffEnd | decelerationLimitExpiry => exact .inl (stepExpire h)
  | lockRampEnd owner | syncLimitExpiry owner =>
    cases owner with
    | step => exact .inl (stepExpire h)
    | direction => exact .inl (looseExpire h)
  | debounceTimerExpiry | breakawayTimerExpiry | speedChannelStall | recordedEdgeExpiry | lostTimerExpiry
  | windowTimerExpiry | mismatchTimerExpiry | supplyTimerExpiry | leaseExpiry | dwellEnd | brakeAxleReleaseTimerExpiry
  | flowWaitExpiry | upTimerExpiry | downTimerExpiry | gearSlipTimerExpiry | setTimerExpiry | clearTimerExpiry
  | axleFillEnd | settleEnd | axleMismatchTimerExpiry | excessTimerExpiry | stepTimerExpiry | deviationTimerExpiry
  | stallTimerExpiry | trackingTimerExpiry | openLoadTimerExpiry => exact .inl (of_next (expire s _ _) h)

/-- Settles O13: what a command leaves alone stays as it is, and every event ends with the hand-over of the setpoints. -/
theorem setpointsHandedKept : Obligations.SetpointsHandedKept := by
  intro s t handed done
  unfold step at done
  split at done
  · next c rest _ =>
    have front : SameCurrents s { s with pending := rest } :=
      { SameCurrents.refl s with unit := fun ch _ => by cases ch <;> rfl }
    rcases exec_hands done with hands | ⟨u, rfl⟩
    · exact hands.handed (front.handed handed)
    · exact u.poweredOn_handed
  · cases done
    exact handed

end Sys2Proof.Machine
end

section
/-! SUPPORT and O36. The fill offsets of a run of clutches, read and written (R95, R173). -/

namespace Sys2Proof.Machine

variable {s : State} {p : Port}

/-! Runs of clutches. -/

theorem Clutch.code_of_all : ∀ (f : Nat) (inside : f < Clutch.all.length), Clutch.all[f].code = f := by
  decide

theorem Clutch.code_injective {c d : Clutch} (same : c.code = d.code) : c = d := by
  have named : ∀ c : Clutch, Clutch.all[c.code]? = some c := by
    intro c
    cases c <;> rfl
  exact Option.some.inj ((named c).symm.trans ((congrArg (Clutch.all[·]?) same).trans (named d)))

theorem clutchRun_succ {f : Nat} (inside : f < Clutch.all.length) (n : Nat) :
    clutchRun f (n + 1) = Clutch.all[f] :: clutchRun (f + 1) n := by
  unfold clutchRun
  rw [List.drop_eq_getElem_cons inside, List.take_succ_cons]

/-- The record of a clutch whose fill offset is written. -/
def ClutchRec.written (r : ClutchRec) (w : Word) : ClutchRec := { r with fillOffset := w.toInt, trend := 0 }

/-- Offsets written to a run: the clutches of the run take theirs, and no other is written. -/
theorem writeOffsets_run (vals : List Word) (f : Nat) (t : ByClutch ClutchRec) (fits : f + vals.length ≤ 9) (c : Clutch) :
    (writeOffsets t ((clutchRun f vals.length).zip vals)).get c =
      if f ≤ c.code ∧ c.code < f + vals.length then (t.get c).written (vals.getD (c.code - f) 0) else t.get c := by
  induction vals generalizing f t with
  | nil =>
    rw [List.zip_nil_right, if_neg (by simp)]
    rfl
  | cons w vals ih =>
    rw [List.length_cons] at fits ⊢
    have inside : f < Clutch.all.length := show f < 9 by omega
    rw [clutchRun_succ inside, List.zip_cons_cons, writeOffsets, ih (f + 1) _ (by omega), ByClutch.get_set]
    have here : c = Clutch.all[f] ↔ c.code = f :=
      ⟨fun same => same ▸ Clutch.code_of_all f inside,
        fun same => Clutch.code_injective (same.trans (Clutch.code_of_all f inside).symm)⟩
    by_cases first : c.code = f
    · rw [if_neg (by omega), if_pos (here.mpr first), if_pos (by omega), first, Nat.sub_self, List.getD_cons_zero,
        ← here.mpr first]
      rfl
    · rw [if_neg (mt here.mp first)]
      by_cases run : f + 1 ≤ c.code ∧ c.code < f + 1 + vals.length
      · rw [if_pos run, if_pos (by omega), show c.code - f = c.code - (f + 1) + 1 by omega, List.getD_cons_succ]
      · rw [if_neg run, if_neg (by omega)]

theorem ByClutch.ext_get {α : Type} {t u : ByClutch α} (same : ∀ c, t.get c = u.get c) : t = u := by
  cases t
  cases u
  congr 1
  · exact same .cf
  · exact same .cr
  · exact same .ca
  · exact same .cb
  · exact same .cc
  · exact same .c1
  · exact same .c2
  · exact same .c3
  · exact same .c4

/-- The offsets of a request written to its run. -/
theorem writeOffsets_eq (t : ByClutch ClutchRec) {f n : Nat} (few : n ≤ 8) (fits : f + n ≤ 9) (v : Values) :
    writeOffsets t ((clutchRun f n).zip (v.toList.take n)) =
      .tabulate fun c => if f ≤ c.code ∧ c.code < f + n then (t.get c).written (v.nth (c.code - f)) else t.get c := by
  have length : (v.toList.take n).length = n := List.length_take_of_le few
  have run := writeOffsets_run (v.toList.take n) f t (by omega)
  rw [length] at run
  refine ByClutch.ext_get fun c => ?_
  rw [run, ByClutch.get_tabulate]
  refine if_ctx_congr Iff.rfl (fun inside => ?_) fun _ => rfl
  have value : (v.toList.take n).getD (c.code - f) 0 = v.nth (c.code - f) := by
    unfold Values.nth
    rw [List.getD_eq_getElem?_getD, List.getElem?_take_of_lt (by omega), ← List.getD_eq_getElem?_getD]
  rw [value]

/-! Checks. -/

theorem adaptRunOk_iff (f n : Nat) : adaptRunOk f n = true ↔ 1 ≤ n ∧ n ≤ 8 ∧ f + n ≤ 9 := by
  unfold adaptRunOk
  rw [Bool.and_eq_true, within_iff, decide_eq_true_eq, and_assoc]

theorem offsetOk_iff (w : Word) : offsetOk w = true ↔ -64 ≤ w.toInt ∧ w.toInt ≤ 64 ∧ w.toInt % 4 = 0 := by
  unfold offsetOk
  simp only [Bool.and_eq_true, decide_eq_true_eq, and_assoc]

theorem Values.all_take {n : Nat} (few : n ≤ 8) (v : Values) (ok : Word → Bool) :
    (v.toList.take n).all ok = true ↔ ∀ m < n, ok (v.nth m) = true := by
  have length : (v.toList.take n).length = n := List.length_take_of_le few
  have value : ∀ (m : Nat) (lt : m < (v.toList.take n).length), (v.toList.take n)[m] = v.nth m := by
    intro m lt
    unfold Values.nth
    rw [List.getElem_take, List.getD_eq_getElem]
  rw [List.all_eq_true, List.forall_mem_iff_forall_getElem]
  exact ⟨fun ok m lt => value m (length.symm ▸ lt) ▸ ok m _, fun ok m lt => (value m lt).symm ▸ ok m (length ▸ lt)⟩

/-! The requests. -/

theorem exec_adaptRead (takes : (s.port .cab).takes) (tag first count : Byte) :
    exec (.adaptRead .cab tag first count) s =
      .next ((s.risen .cab).answering .cab
        (if adaptRunOk first.toNat count.toNat then
          .plain 17 tag .ok (.ofList (s.offsets first.toNat count.toNat))
        else .plain 17 tag .badField .zero)) := by
  refine (congrArg _ (State.cabRequest_takes takes 17 tag _)).trans ?_
  unfold State.runAdaptRead
  split <;> rfl

theorem exec_adaptWrite (takes : (s.port .cab).takes) (tag first count : Byte) (v : Values) :
    exec (.adaptWrite .cab tag first count v) s =
      .next (((s.risen .cab).runAdaptWrite tag first count v).1.answering .cab
        ((s.risen .cab).runAdaptWrite tag first count v).2) :=
  congrArg _ (State.cabRequest_takes takes 18 tag _)

/-- The checks of ADAPT_WRITE in their order, and the write (R95). -/
theorem State.runAdaptWrite_eq (s : State) (tag first count : Byte) (v : Values) :
    s.runAdaptWrite tag first count v =
      let vals := v.toList.take count.toNat
      if s.running = true then (s, .plain 18 tag .badState .zero)
      else if ¬ adaptRunOk first.toNat count.toNat = true then (s, .plain 18 tag .badField .zero)
      else if ¬ vals.all offsetOk = true then (s, .plain 18 tag .range .zero)
      else
        ({ s with sq := { s.sq with
            clutch := writeOffsets s.sq.clutch ((clutchRun first.toNat count.toNat).zip vals) } },
          .plain 18 tag .ok .zero) := by
  unfold State.runAdaptWrite
  simp only [Bool.not_eq_true', Bool.not_eq_true]

/-- Settles O36. -/
theorem adaptMovesFillOffsets : Obligations.AdaptMovesFillOffsets := by
  refine ⟨rfl, fun tag first count v s => ?_⟩
  intro f n run good answer
  refine ⟨fun takes => ⟨congrArg _ (State.cabRequest_denied takes 17 tag _), congrArg _ (State.cabRequest_denied takes 18 tag _)⟩,
    fun takes => ?_⟩
  have runs : adaptRunOk f n = true ↔ run := adaptRunOk_iff f n
  have values (inside : run) : (v.toList.take n).all offsetOk = true ↔ good := by
    rw [Values.all_take inside.2.1]
    exact forall_congr' fun m => imp_congr_right fun _ => offsetOk_iff _
  have read := exec_adaptRead takes tag first count
  have write := exec_adaptWrite takes tag first count v
  rw [State.runAdaptWrite_eq] at write
  dsimp only at write
  refine ⟨fun outside => ?_, fun inside => ?_, fun running => ?_, fun stopped outside => ?_, fun stopped inside bad => ?_,
    fun stopped inside ok => ?_⟩
  · rw [if_neg (mt runs.mp outside)] at read
    exact read
  · rw [if_pos (runs.mpr inside)] at read
    exact read
  · rw [if_pos (show (s.risen .cab).running = true from running)] at write
    exact write
  all_goals rw [if_neg (show ¬ (s.risen .cab).running = true from Bool.eq_false_iff.mp stopped)] at write
  · rw [if_pos (mt runs.mp outside)] at write
    exact write
  all_goals rw [if_neg (not_not.mpr (runs.mpr inside))] at write
  · rw [if_pos (mt (values inside).mp bad)] at write
    exact write
  · rw [if_neg (not_not.mpr ((values inside).mpr ok)), writeOffsets_eq _ inside.2.1 inside.2.2] at write
    exact write

end Sys2Proof.Machine
end

section
/-! SUPPORT and O60. The currents that the units command, the channels, and a period boundary (R74, R88, R91, R105, R125, R136,
R139, R140, R150 to R154). -/

namespace Sys2Proof.Machine

variable {s t : State}

/-! A period boundary (R150 to R154). -/

theorem State.os_gearReport (s : State) (old : Sq) : (s.gearReport old).os = s.os := by
  have noted := ClaimOnly.ite (c := s.sq.record = old.record) (.refl s)
    (.ofCauses ((CausesOnly.refl _).setCauseBoth .gear))
  unfold State.gearReport
  dsimp only
  exact (ClaimOnly.ite noted (noted.sweep _)).os

/-- The end of an event guards the channels that do not drive, and hands the setpoints over in RUN. -/
theorem State.os_settle (s : State) (old : Sq) (ch : OutCh) :
    (s.settle old).os.get ch =
      { s.osGuard.os.get ch with
        pending := if s.running then min 2000 ((s.settle old).commanded ch) else (s.os.get ch).pending } := by
  have kept : (s.osGuard.os.get ch).pending = (s.os.get ch).pending := by
    unfold State.osGuard
    rw [ByOut.get_tabulate]
    dsimp only
    split <;> rfl
  have handed := (s.settle_handed old).pending
  rw [((SettleOnly.refl s).settle old).running] at handed
  have reported := s.osGuard.sqGuard.os_gearReport old
  have before := ((SettleOnly.refl s).osGuard.sqGuard.gearReport old).followLost.followMismatch.unitGuards.clutchCurrents
  unfold State.settle at handed ⊢
  generalize s.osGuard.sqGuard.gearReport old = g at reported before handed ⊢
  have os : g.followLost.followMismatch.unitGuards.clutchCurrents.os = s.osGuard.os := reported
  generalize g.followLost.followMismatch.unitGuards.clutchCurrents = v at os before handed ⊢
  by_cases running : s.running = true
  · rw [if_pos running, ← handed running ch, State.os_keepAll]
    unfold State.handSetpoints
    rw [if_pos (before.running.trans running), ByOut.get_tabulate, os]
  · rw [if_neg running, State.os_keepAll, ← kept]
    unfold State.handSetpoints
    rw [before.running, if_neg running, os]

/-- The state of a channel looks at its latch, the setpoint in force and the device. -/
theorem State.outState_congr {ch : OutCh} (tripped : (t.os.get ch).tripped = (s.os.get ch).tripped)
    (inForce : (t.os.get ch).inForce = (s.os.get ch).inForce) (enable : t.enable = s.enable)
    (running : t.running = s.running) : t.outState ch = s.outState ch := by
  unfold State.outState
  dsimp only
  rw [tripped, inForce, enable, running]

/-- The end of a period and the beginning of the next. -/
def State.bound (s : State) (mean : ByOut Word) : State := ((s.endPeriod mean).loadSetpoints.osGuard).turnDither

theorem State.bound_eq (s : State) (mean : ByOut Word) : s.bound mean = { s with os := (s.bound mean).os } := by
  have turned (u : State) : u.turnDither = { u with os := u.turnDither.os } := rfl
  have guarded (u : State) : u.osGuard = { u with os := u.osGuard.os } := rfl
  have loaded (u : State) : u.loadSetpoints = { u with os := u.loadSetpoints.os } := rfl
  have ended (u : State) : u.endPeriod mean = { u with os := (u.endPeriod mean).os } := rfl
  unfold State.bound
  rw [turned, guarded, loaded, ended]

/-- One channel as the period ends: its mean current measured, its open-load timer by the open condition, its pending setpoint
loaded. -/
def State.loaded (s : State) (mean : ByOut Word) (ch : OutCh) : OutRec :=
  let r := s.os.get ch
  { r with
    inForce := r.pending, measured := (mean.get ch).toNat,
    openTimer := r.openTimer.follow (s.outState ch = .driving && 100 ≤ r.inForce && (mean.get ch).toNat < 20) s.now }

theorem State.os_loadSetpoints (s : State) (mean : ByOut Word) (ch : OutCh) :
    (s.endPeriod mean).loadSetpoints.os.get ch = s.loaded mean ch := by
  have measured : ∀ ch : OutCh, (ByOut.tabulate fun ch => { s.os.get ch with measured := (mean.get ch).toNat }).get ch =
      { s.os.get ch with measured := (mean.get ch).toNat } := fun ch => ByOut.get_tabulate _ ch
  unfold State.loadSetpoints State.endPeriod State.openCondition State.loaded State.outState
  dsimp only
  simp only [ByOut.get_tabulate]
  rfl

theorem State.os_bound (s : State) (mean : ByOut Word) (ch : OutCh) :
    (s.bound mean).os.get ch =
      if (s.bound mean).outState ch = .driving then
        { s.loaded mean ch with
          ditherPositive := !((s.os.get ch).regulating && (s.os.get ch).ditherPositive), regulating := true }
      else { s.loaded mean ch with openTimer := none, regulating := false } := by
  have guarded : (s.endPeriod mean).loadSetpoints.osGuard.os.get ch =
      if (s.endPeriod mean).loadSetpoints.outState ch = .driving then s.loaded mean ch
      else { s.loaded mean ch with openTimer := none, regulating := false } := by
    unfold State.osGuard
    rw [ByOut.get_tabulate, s.os_loadSetpoints]
  have turned : (s.bound mean).os.get ch =
      if (s.endPeriod mean).loadSetpoints.osGuard.outState ch = .driving then
        { (s.endPeriod mean).loadSetpoints.osGuard.os.get ch with
          ditherPositive := !(((s.endPeriod mean).loadSetpoints.osGuard.os.get ch).regulating &&
            ((s.endPeriod mean).loadSetpoints.osGuard.os.get ch).ditherPositive),
          regulating := true }
      else (s.endPeriod mean).loadSetpoints.osGuard.os.get ch := by
    unfold State.bound State.turnDither
    rw [ByOut.get_tabulate]
  have same : (s.endPeriod mean).loadSetpoints.osGuard.outState ch = (s.endPeriod mean).loadSetpoints.outState ch := by
    refine State.outState_congr ?_ ?_ rfl rfl <;>
      · rw [guarded, s.os_loadSetpoints]
        split <;> rfl
  have last : (s.bound mean).outState ch = (s.endPeriod mean).loadSetpoints.osGuard.outState ch := by
    refine State.outState_congr ?_ ?_ rfl rfl <;>
      · rw [turned]
        split <;> rfl
  rw [last, turned, same, guarded]
  split <;> rfl

/-- What follows a change of the channels, as seen from the state before them. -/
theorem SettleOnly.withOs {u : State} (h : SettleOnly u t) (frame : u = { s with os := u.os }) :
    SettleOnly { s with os := t.os } t := by
  have states := (SameStates.ofOtu (s := { s with os := t.os }) (t := u) (by rw [frame])).trans h.states
  rw [frame] at h
  exact { h with os := fun _ => rfl, states := states }

theorem State.outState_settle (s : State) (old : Sq) (ch : OutCh) : (s.settle old).outState ch = s.outState ch := by
  have ends := (SettleOnly.refl s).settle old
  exact State.outState_congr (by rw [ends.os]) (by rw [ends.os]) ends.enable ends.running

theorem Timer.follow_getD (r : Timer) (cond : Bool) (now : Time) :
    r.follow cond now = if cond then some (r.getD ⟨now, false⟩) else none := by
  unfold Timer.follow
  cases r <;> rfl

theorem periodBoundary_bounds (s : State) (mean : ByOut Word) :
    CompletesWith (.periodBoundary mean) s fun t =>
      (∀ ch,
        let r := s.os.get ch
        let r' := t.os.get ch
        let opens : Prop := s.outState ch = .driving ∧ 100 ≤ r.inForce ∧ (mean.get ch).toNat < 20
        r'.inForce = r.pending ∧ r'.measured = (mean.get ch).toNat ∧ r'.tripped = r.tripped ∧
        r'.pending = (if s.running then min 2000 (t.commanded ch) else r.pending) ∧
        r'.openTimer =
          (if t.outState ch = .driving ∧ opens then some (r.openTimer.getD ⟨s.now, false⟩) else none) ∧
        r'.regulating = decide (t.outState ch = .driving) ∧
        r'.ditherPositive =
          (if t.outState ch = .driving then !(r.regulating && r.ditherPositive) else r.ditherPositive)) ∧
      SettleOnly { s with os := t.os } t := by
  refine ⟨(s.bound mean).settle s.sq, rfl, fun ch => ?_, ((SettleOnly.refl (s.bound mean)).settle s.sq).withOs (s.bound_eq mean)⟩
  have settled := (s.bound mean).os_settle s.sq ch
  have guarded : (s.bound mean).osGuard.os.get ch = (s.bound mean).os.get ch := by
    unfold State.osGuard
    rw [ByOut.get_tabulate]
    split
    · rfl
    · next stands => rw [s.os_bound, if_neg stands]
  have bound := s.os_bound mean ch
  have running : (s.bound mean).running = s.running := by
    rw [s.bound_eq]
    rfl
  rw [guarded, running] at settled
  rw [State.outState_settle]
  dsimp only
  rw [settled]
  generalize (s.bound mean).settle s.sq = t
  have timer : (s.loaded mean ch).openTimer =
      if s.outState ch = .driving ∧ 100 ≤ (s.os.get ch).inForce ∧ (mean.get ch).toNat < 20 then
        some ((s.os.get ch).openTimer.getD ⟨s.now, false⟩)
      else none := by
    unfold State.loaded
    dsimp only
    rw [Timer.follow_getD]
    exact if_congr (by simp [and_assoc]) rfl rfl
  by_cases drives : (s.bound mean).outState ch = .driving
  · rw [if_pos drives] at bound
    rw [bound, if_pos drives, decide_eq_true drives]
    simp only [drives, true_and]
    exact ⟨rfl, rfl, rfl, rfl, timer, trivial⟩
  · rw [if_neg drives] at bound
    rw [bound, if_neg drives, decide_eq_false drives]
    simp only [drives, false_and, if_false]
    exact ⟨rfl, rfl, rfl, rfl, trivial, trivial, rfl⟩

/-! Clutches (R74, R88, R91). -/

/-- The current of a ramp: its last current once its length has passed, else on the straight line, rounded to a neighbour (R74,
log 11). -/
theorem Ramp.at_line (x : Ramp) (now : Time) :
    let ms := elapsed now x.start
    (x.length ≤ ms → x.at now = x.last) ∧
    (ms < x.length →
      (x.first ≤ x.last →
        let rise := (x.last - x.first) * ms
        x.first + rise / x.length ≤ x.at now ∧ x.at now ≤ x.first + rise / x.length + 1 ∧
          (rise % x.length = 0 → x.at now = x.first + rise / x.length)) ∧
      (x.last < x.first →
        let fall := (x.first - x.last) * ms
        x.first - (fall / x.length + 1) ≤ x.at now ∧ x.at now ≤ x.first - fall / x.length ∧
          (fall % x.length = 0 → x.at now = x.first - fall / x.length))) := by
  intro ms
  unfold Ramp.at
  refine ⟨fun done => if_pos done, fun under => ⟨fun rises => ?_, fun falls => ?_⟩⟩
  · dsimp only
    rw [if_neg (show ¬ x.length ≤ elapsed now x.start from Nat.not_le.mpr under), if_pos rises]
    generalize (x.last - x.first) * elapsed now x.start = rise
    obtain ⟨whole, near⟩ := freeRound_near rise x.length
    exact ⟨by omega, by omega, fun exact => by rw [whole exact]⟩
  · dsimp only
    rw [if_neg (show ¬ x.length ≤ elapsed now x.start from Nat.not_le.mpr under), if_neg (Nat.not_le.mpr falls)]
    generalize (x.first - x.last) * elapsed now x.start = fall
    obtain ⟨whole, near⟩ := freeRound_near fall x.length
    exact ⟨by omega, by omega, fun exact => by rw [whole exact]⟩

theorem State.clutchCurrent_steady (s : State) (c : Clutch) :
    let r := s.sq.clutch.get c
    let it := clutchItem s.items c
    (r.state = .opened → s.clutchCurrent c = 0) ∧ (r.state = .fill → s.clutchCurrent c = it.fillCurrent) ∧
    (r.state = .hold → s.clutchCurrent c = it.holdCurrent) ∧ (r.state = .locked → s.clutchCurrent c = it.lockCurrent) := by
  unfold State.clutchCurrent
  dsimp only
  exact ⟨fun state => by rw [state], fun state => by rw [state], fun state => by rw [state], fun state => by rw [state]⟩

theorem State.clutchCurrent_ramp {c : Clutch} {x : Ramp} (ramp : (s.sq.clutch.get c).ramp = some x)
    (ramps : (s.sq.clutch.get c).state = .rampOn ∨ (s.sq.clutch.get c).state = .rampOff ∨
      (s.sq.clutch.get c).state = .sync) : s.clutchCurrent c = x.at s.now := by
  unfold State.clutchCurrent
  dsimp only
  rcases ramps with state | state | state <;> rw [state, ramp]

theorem State.clutchCurrent_sync {c : Clutch} (state : (s.sq.clutch.get c).state = .sync)
    (ramp : (s.sq.clutch.get c).ramp = none) : s.clutchCurrent c = s.syncCurrent c := by
  unfold State.clutchCurrent
  dsimp only
  rw [state, ramp]

/-- The pedal's current, for a band other than RELEASED (R91). -/
theorem State.pedalCurrent_near (s : State) (it : ClutchItem) :
    (s.pub.band = .pressed → s.pedalCurrent it = 0) ∧
    (s.pub.band = .modulating →
      let x := it.lockCurrent * (900 - s.pub.pedal.getD 0)
      (x % 850 = 0 → s.pedalCurrent it = x / 850) ∧
        (s.pedalCurrent it = x / 850 ∨ s.pedalCurrent it = x / 850 + 1)) := by
  unfold State.pedalCurrent
  refine ⟨fun pressed => by rw [pressed], fun modulating => ?_⟩
  rw [modulating]
  exact freeRound_near _ 850

/-- What a clutch in the SYNC of its step takes, the pedal apart (R85, R88). -/
def GearStep.syncBase (st : GearStep) (it : ClutchItem) : Nat :=
  if st.decel then shuttleCurrent it st.response else it.syncCurrent

theorem State.syncCurrent_step {c : Clutch} {st : GearStep} (step : s.sq.stepSync c = some st) :
    s.syncCurrent c =
      if (c = .cf ∨ c = .cr) ∧ s.pub.band ≠ .released then
        min (st.syncBase (clutchItem s.items c)) (s.pedalCurrent (clutchItem s.items c))
      else st.syncBase (clutchItem s.items c) := by
  unfold State.syncCurrent
  dsimp only
  rw [step]
  rfl

theorem State.syncCurrent_loose {c : Clutch} (loose : s.sq.stepSync c = none) :
    s.syncCurrent c =
      if s.sq.freeStarted = true then 0
      else if s.pub.band ≠ .released then s.pedalCurrent (clutchItem s.items c)
      else (clutchItem s.items c).syncCurrent := by
  unfold State.syncCurrent
  dsimp only
  rw [loose]

/-! Channels (R151, R152). -/

theorem State.outState_eq (s : State) (ch : OutCh) :
    s.outState ch =
      if (s.os.get ch).tripped = true then .tripped
      else if s.enable = false then .gated
      else if s.running = false ∨ (s.os.get ch).inForce = 0 then .off
      else .driving := by
  unfold State.outState
  simp only [Bool.or_eq_true, Bool.not_eq_true', decide_eq_true_eq]

theorem State.target_eq (s : State) (ch : OutCh) :
    let r := s.os.get ch
    let amplitude : Int := itemNat s.items 28 ch.code
    (s.target ch : Int) = max 0 (min 2000 (if r.ditherPositive then r.inForce + amplitude else r.inForce - amplitude)) := by
  unfold State.target ditherOf
  dsimp only
  split <;> omega

/-! The trailer (R136, R139, R140, R146). -/

theorem State.tbuState_eq (s : State) :
    s.tbuState =
      if s.governing .tbrake = some 3 then .emergency
      else if s.tbu.presence = false then .detached
      else if s.running = false then .released
      else if s.sq.flags.assistWindow = true ∧ takenField s.tbu.taken 1 = 1 then .assist
      else if 0 < s.tbuLaw then .braking else .released := by
  unfold State.tbuState
  simp only [Bool.not_eq_true', Bool.and_eq_true, decide_eq_true_eq]

theorem State.tbuDemand_running (running : s.running = true) :
    s.tbuDemand =
      match s.tbuState with
      | .emergency => max (fullPressure s.items) s.tbuLaw
      | .detached => 0
      | .assist => max s.tbuLaw (takenField s.tbu.taken 2)
      | .braking => s.tbuLaw
      | .released => 0 := by
  unfold State.tbuDemand
  rw [running]
  rfl

theorem State.tbuCurrent_running (running : s.running = true) :
    s.commanded .oc12 =
      match s.tbuState with
      | .emergency => 0
      | .detached => releaseCurrent s.items
      | .released | .braking | .assist => trailerCurrent s.items s.tbuDemand := by
  show s.tbuCurrent = _
  unfold State.tbuCurrent
  rw [running]
  cases s.tbuState <;> rfl

/-- Settles O60. -/
theorem commandedCurrents : Obligations.CommandedCurrents := by
  refine ⟨fun mean s => periodBoundary_bounds s mean, fun s => ?units, fun s => ?trailer⟩
  case units =>
    refine ⟨fun ch c on => ⟨?_, State.commanded_clutch on⟩, fun c => ?clutch, fun releasing => ?_, fun released => ?_,
      fun releasing released => ?_, ?_, ?_, fun ch => ⟨s.outState_eq ch, s.target_eq ch, ?_⟩⟩
    case clutch =>
      obtain ⟨opened, fill, hold, locked⟩ := s.clutchCurrent_steady c
      refine ⟨opened, fill, hold, locked, fun x ramp ramps => ?_, fun sync ramp => ?_⟩
      · rw [State.clutchCurrent_ramp ramp ramps]
        exact x.at_line s.now
      · rw [State.clutchCurrent_sync sync ramp]
        obtain ⟨pressed, modulating⟩ := s.pedalCurrent_near (clutchItem s.items c)
        refine ⟨fun st step none up => ?_, fun st step decel up => ?_, fun st step dir down => ?_, fun loose free => ?_,
          fun loose free up => ?_, fun loose free down => ?_⟩
        · rw [State.syncCurrent_step step, if_neg fun both => up.elim (· both.1) both.2]
          exact if_neg (Bool.eq_false_iff.mp none)
        · rw [State.syncCurrent_step step, if_neg fun both => up.elim (· both.1) both.2]
          unfold GearStep.syncBase
          rw [if_pos decel]
          exact shuttleCurrent_near _ _
        · refine ⟨_, _, ⟨pressed, modulating⟩, ?_, (State.syncCurrent_step step).trans (if_pos ⟨dir, down⟩)⟩
          unfold GearStep.syncBase
          split
          · exact shuttleCurrent_near _ _
          · rfl
        · rw [State.syncCurrent_loose loose, if_pos free]
        · rw [State.syncCurrent_loose loose, if_neg (Bool.eq_false_iff.mp free), if_neg (not_not.mpr up)]
        · rw [State.syncCurrent_loose loose, if_neg (Bool.eq_false_iff.mp free), if_pos down]
          exact ⟨pressed, modulating⟩
    · cases ch <;> cases on <;> rfl
    · show s.acuCurrent = _
      unfold State.acuCurrent
      rw [releasing]
      rfl
    · show s.acuCurrent = _
      unfold State.acuCurrent
      rw [released]
      rfl
    · show s.acuCurrent = _
      unfold State.acuCurrent
      split
      · next is => exact absurd is releasing
      · next is => exact absurd is released
      all_goals rfl
    · show s.hrRaise = _
      unfold State.hrRaise State.raiseCurrent
      by_cases raises : s.hr.motion = .raise <;> by_cases granted : s.hr.granted = 0 <;> simp [raises, granted]; rfl
    · rfl
    · unfold State.outputCurrent
      simp only [Bool.and_eq_true, decide_eq_true_eq]
  case trailer =>
    refine ⟨rfl, fun stopped => ⟨?_, ?_, ?_⟩, fun running => ?_⟩
    · show s.tbuCurrent = 0
      unfold State.tbuCurrent
      simp [stopped]
    · unfold State.tbuDemand
      simp [stopped]
    · rw [s.tbuState_eq, if_pos stopped]
    · have state := s.tbuState_eq
      rw [if_neg (show ¬ s.running = false by simp [running])] at state
      have demand := State.tbuDemand_running running
      have current := State.tbuCurrent_running running
      refine ⟨state, ?_, ?_⟩
      · rw [state] at demand
        exact demand
      · rw [state] at current
        exact current

end Sys2Proof.Machine
end

section
/-! O56: a fill granted inside the publication, ahead of the pedal. -/

namespace Sys2Proof.Machine

/-- A FREE step that waits for flow, on a clutch that is LOCKED. -/
def lockedFree : GearStep :=
  { GearStep.fresh .free [.c1] [] ⟨some .forward, some .a, some .s1⟩ with phase := some .flowWait }

/-- F1 under a PRESSED pedal, with that step started. C4 is about to be HOT, and the supply hold stands without its latch, so
that the detection of CLUTCH_HOT lifts it and its grant pass grants the fill. `QueueForm` admits such a state; no command leads
to a step on a LOCKED clutch. -/
def heldFill : State :=
  let s : State := { State.powerOn ⟨true, false, false⟩ ⟨none, none⟩ ⟨false, false⟩ with cs := ⟨.run, defaultItems⟩ }
  let locked : ClutchRec := { ClutchRec.reset with state := .locked }
  { s with
    mu := { s.mu with pub := { Pub.none with band := .pressed } }
    flow := { Flow.reset with fill := ⟨.waiting, 1, 0, none⟩, fillSite := some .c1, hold := true }
    sq := { s.sq with
      taken := some ⟨⟨8, 0⟩, ⟨1, 0, 1, 1, 12, 2100, 1400, 3⟩⟩
      queue := [lockedFree]
      clutch := (((s.sq.clutch.set .cf { ClutchRec.reset with state := .sync }).set .ca locked).set .c1 locked).set .c4
        { ClutchRec.reset with heat := 65535 } } }

/-- The samples of a publication with the pedal up. -/
def pedalUp : ByConv (BitVec 12) := ⟨2000, 2048, 2148, 200, 200, 110, 200, 2000⟩

/-- The fill is granted before the pedal is taken, so the abandonment opens C1, and the plan fills it again. -/
theorem heldFill_replans :
    ∃ t, exec (.muPublication pedalUp) heldFill = .next t ∧ t.pub.band = .released ∧ t.sq.queue.length = 1 :=
  ⟨_, rfl, by decide +kernel, by decide +kernel⟩

theorem heldFill_meets_wish : heldFill.sq.plan .released heldFill.sq.box = [] := by decide +kernel

/-- Refutes O56: a FREE step in its flow wait that a rise out of PRESSED abandons may have been granted its fill by the detection
of CLUTCH_HOT in the same publication; its clutch, were it LOCKED before, is then OPEN, and the plan is not the one from the
box as it stood. -/
theorem not_syncLocksAndHeats : ¬ Obligations.SyncLocksAndHeats := by
  unfold Obligations.SyncLocksAndHeats
  rintro ⟨-, -, -, pedal, -⟩
  obtain ⟨t, run, -, -, -, -, rebuilds⟩ := pedal pedalUp heldFill rfl rfl
  obtain ⟨u, run', band, queue⟩ := heldFill_replans
  obtain rfl : t = u := Host.Outcome.next.inj (run.symm.trans run')
  rw [band] at rebuilds
  have form : heldFill.QueueForm := ⟨by decide, by decide⟩
  obtain ⟨-, started⟩ := rebuilds (.inl ⟨rfl, nofun⟩) (by decide +kernel) (by decide +kernel) form
  obtain ⟨abandons, -⟩ := started lockedFree rfl rfl
  have planned := abandons rfl (.inl rfl)
  dsimp only at planned
  rw [if_pos (show lockedFree.phase = some .flowWait from rfl), heldFill_meets_wish] at planned
  have length := congrArg List.length planned
  rw [List.length_map, queue] at length
  cases length

end Sys2Proof.Machine
end

section
/-! SUPPORT and O54. RAMP_ON and deceleration end, and what the last step leaves as it ends (R84 to R90, R101). -/

namespace Sys2Proof.Machine

variable {s t u : State} {st : GearStep} {rest : List GearStep}

/-! The last step ends, the pedal up, in a box that meets the wish. -/

/-- The box is that of the clutch states. -/
theorem Sq.box_congr {p q : Sq} (states : ∀ c, q.state c = p.state c) : q.box = p.box := by
  unfold Sq.box Sq.takeUp Sq.range Sq.step Sq.locked
  simp only [states]

theorem State.rebuild_empty (empty : s.sq.queue = []) (done : s.sq.plan s.pub.band s.sq.box = []) : s.rebuild = s := by
  have started : s.sq.started = none := by
    unfold Sq.started
    rw [empty]
  unfold State.rebuild
  rw [started, done]
  split
  · rfl
  · show ({ s with sq := { s.sq with queue := [].take 4 } } : State) = s
    rw [List.take_nil, ← empty]

/-- An observation that is applied moves no clutch. -/
theorem Sq.state_observe (q : Sq) (st : GearStep) (clean : Bool) (c : Clutch) : (q.observe st clean).state c = q.state c := by
  unfold Sq.observe
  split
  · next d _ _ =>
    split
    · unfold Sq.state
      dsimp only
      rw [ByClutch.get_set]
      split
      · next same =>
        rw [same]
        unfold ClutchRec.observe
        split <;> rfl
      · rfl
    · rfl
  · rfl

theorem Sq.observe_eq (q : Sq) (st : GearStep) (clean : Bool) :
    q.observe st clean = { q with clutch := (q.observe st clean).clutch } := by
  unfold Sq.observe
  split
  · split <;> rfl
  · rfl

/-- The last step gone, its observation applied, before the flags clear. -/
def State.lastGone (s : State) (st : GearStep) (clean : Bool) : State :=
  { s with sq := { s.sq.observe st clean with queue := [] } }

/-- The last step ends in nothing but the clearing of its flags. -/
theorem State.endStep_last (queue : s.sq.queue = [st]) (up : s.pub.band = .released)
    (done : s.sq.plan .released s.sq.box = []) (clean : Bool) : s.endStep clean = (s.lastGone st clean).clearFlags := by
  have cleared := State.sq_clearFlags (s := s.lastGone st clean) (Sq.unwaiting_of_empty rfl)
  have mu := ((JobOnly.refl (s.lastGone st clean)).clearFlags).mu
  have ends : s.endStep clean = (s.lastGone st clean).clearFlags.inchEntry.rebuild.tryStart := by
    unfold State.endStep State.finishStep
    rw [queue]
    rfl
  rw [ends]
  generalize (s.lastGone st clean).clearFlags = v at cleared mu
  have pub : v.pub = s.pub := congrArg Mu.pub mu
  have empty : v.sq.queue = [] := by rw [cleared]; rfl
  have box : v.sq.box = s.sq.box := by
    refine Sq.box_congr fun c => ?_
    rw [cleared]
    exact s.sq.state_observe st clean c
  have observed := s.sq.observe_eq st clean
  have plan : v.sq.plan v.pub.band v.sq.box = [] := by
    rw [pub, up, box, ← done]
    refine Sq.plan_congr ?_ ?_ _ _ <;>
      · rw [cleared]
        unfold State.lastGone
        rw [observed]
  rw [State.inchEntry_released (by rw [pub, up]), State.rebuild_empty empty plan, State.tryStart_empty empty]

/-- What the last step leaves: no step, its clutches where they are, and no flags. -/
structure Ended (s t : State) : Prop where
  queue : t.sq.queue = []
  state : ∀ c, t.sq.state c = s.sq.state c
  flags : t.sq.flags = .clear
  thaws : s.sq.flags.draftFreeze = true → t.hr.frozen = none ∧ t.hr.frozenLost = false

theorem State.endStep_ended (queue : s.sq.queue = [st]) (up : s.pub.band = .released)
    (done : s.sq.plan .released s.sq.box = []) (clean : Bool) : Ended s (s.endStep clean) := by
  have cleared := State.sq_clearFlags (s := s.lastGone st clean) (Sq.unwaiting_of_empty rfl)
  have frozen := (s.lastGone st clean).clearFlags_frozen
  have flags : (s.lastGone st clean).sq.flags = s.sq.flags := by
    unfold State.lastGone
    rw [s.sq.observe_eq st clean]
  rw [State.endStep_last queue up done]
  refine ⟨by rw [cleared]; rfl, fun c => ?_, by rw [cleared], fun froze => ?_⟩
  · rw [cleared]
    exact s.sq.state_observe st clean c
  · rw [flags, froze] at frozen
    exact frozen

theorem Ended.settle (h : Ended s u) (ends : SettleOnly u t) : Ended s t where
  queue := ends.queue.trans h.queue
  state c := (ends.clutchState c).trans (h.state c)
  flags := ends.flags.trans h.flags
  thaws froze := by
    rw [ends.hr]
    exact h.thaws froze

/-! RAMP_ON ends (R84, R87 to R89). -/

theorem rampOnEnd_syncs (queue : s.sq.queue = st :: rest) (phase : st.phase = some .rampOn)
    (due : st.phaseLength ≤ elapsed s.now st.phaseStart) (crosses : st.kind ≠ .free) :
    CompletesWith .rampOnEnd s fun t =>
      (∃ st', t.sq.queue = st' :: rest ∧
        st' =
          { st with
            phase := some .sync, phaseStart := s.now, phaseLength := 0, decel := st.kind = .shuttle,
            syncStart := st'.syncStart } ∧
        (st.kind = .shuttle → st'.syncStart = none) ∧
        (st.kind ≠ .shuttle → s.pub.band = .released → st'.syncStart = some s.now)) ∧
      (∀ c, t.sq.state c = if c ∈ st.on then .sync else if c ∈ st.off then .opened else s.sq.state c) ∧
      (∀ c ∈ st.on, (t.sq.clutch.get c).ramp = none) ∧
      t.sq.flags = s.sq.flags ∧ t.flow = s.flow ∧ t.hr = s.hr ∧ t.fu = s.fu ∧ t.cs = s.cs ∧ t.inputs = s.inputs ∧
      t.now = s.now := by
  refine ⟨_, State.stepExpire_phase queue phase due, ?_⟩
  have ends := (SettleOnly.refl (s.rampDone st)).settle s.sq
  obtain ⟨fu, cs, inputs, -, -, now⟩ := ((JobOnly.refl s).rampDone st).settled ends
  generalize (s.rampDone st).settle s.sq = t at ends fu cs inputs now
  have run : s.rampDone st = _ := if_neg crosses
  rw [run] at ends
  refine ⟨⟨_, ends.queue.trans (congrArg (_ :: List.tail ·) queue), rfl, fun shuttle => ?_, fun other up => ?_⟩, fun c => ?_,
    fun c on => ?_, ends.flags, ends.flow, ends.hr, fu, cs, inputs, now⟩
  · exact if_pos (decide_eq_true shuttle)
  · refine (if_neg (by simpa using other)).trans ?_
    unfold State.syncBegin
    simp [up]
  · rw [ends.clutchState]
    refine (Sq.state_enterAll _ st.on .sync c).trans ?_
    rw [Sq.state_enterAll]
    rfl
  · rw [ends.ramp]
    refine (congrArg ClutchRec.ramp (Sq.clutch_enterAll _ st.on .sync c)).trans ?_
    rw [if_pos on]
    rfl

theorem rampOnEnd_locks (queue : s.sq.queue = [st]) (phase : st.phase = some .rampOn)
    (due : st.phaseLength ≤ elapsed s.now st.phaseStart) (free : st.kind = .free) (up : s.pub.band = .released)
    (done : (s.sq.enterAll st.on .locked).plan .released (s.sq.enterAll st.on .locked).box = []) :
    CompletesWith .rampOnEnd s fun t =>
      t.sq.queue = [] ∧ (∀ c, t.sq.state c = if c ∈ st.on then .locked else s.sq.state c) ∧
      t.sq.flags = .clear ∧ t.fu = s.fu ∧ t.cs = s.cs ∧ t.now = s.now := by
  refine ⟨_, State.stepExpire_phase queue phase due, ?_⟩
  have ends := (SettleOnly.refl (s.rampDone st)).settle s.sq
  obtain ⟨fu, cs, -, -, -, now⟩ := ((JobOnly.refl s).rampDone st).settled ends
  generalize (s.rampDone st).settle s.sq = t at ends fu cs now
  have run : s.rampDone st = ({ s with sq := s.sq.enterAll st.on .locked } : State).endStep false := if_pos free
  rw [run] at ends
  have ended := (State.endStep_ended (s := { s with sq := s.sq.enterAll st.on .locked }) queue up done false).settle ends
  exact ⟨ended.queue, fun c => (ended.state c).trans (Sq.state_enterAll _ _ _ c), ended.flags, fu, cs, now⟩

/-! Deceleration ends at its limit (R88, R101). -/

theorem Sq.syncStep_eq {q : Sq} (queue : q.queue = st :: rest) (phase : st.phase = some .sync) : q.syncStep = some st := by
  unfold Sq.syncStep Sq.started
  rw [queue]
  simp [phase]

/-- The event that a time of the step in SYNC brings. -/
theorem State.stepExpire_sync {test : State → GearStep → Bool} {f : State → GearStep → State}
    (queue : s.sq.queue = st :: rest) (phase : st.phase = some .sync) (due : test s st = true) :
    s.stepExpire (fun s => s.sq.syncStep.filter (test s)) f = .next ((f s st).settle s.sq) := by
  have comes : s.sq.syncStep.filter (test s) = some st := by
    rw [Sq.syncStep_eq queue phase, Option.filter_some, if_pos due]
  unfold State.stepExpire
  rw [State.expire_due (due := fun s => (s.sq.syncStep.filter (test s)).isSome) (congrArg Option.isSome comes)]
  simp only [comes]

theorem decelerationLimitExpiry_ends (queue : s.sq.queue = st :: rest) (phase : st.phase = some .sync)
    (decel : st.decel = true) (none : s.pub.wheel = none)
    (due : overOn s.items st.on ClutchItem.syncLimit ≤ elapsed s.now st.phaseStart) :
    CompletesWith .decelerationLimitExpiry s fun t =>
      (∃ st', t.sq.queue = st' :: rest ∧ st' = { st with decel := false, syncStart := st'.syncStart } ∧
        (s.pub.band = .released → st'.syncStart = some s.now)) ∧
      t.sq.flags = { s.sq.flags with assistWindow := false } ∧ (∀ c, t.sq.state c = s.sq.state c) ∧ t.fu = s.fu ∧
      t.flow = s.flow ∧ t.hr = s.hr ∧ t.cs = s.cs ∧ t.inputs = s.inputs ∧ t.now = s.now := by
  have comes : (st.decel && s.pub.wheel.isNone && decide (overOn s.items st.on ClutchItem.syncLimit ≤
      elapsed s.now st.phaseStart)) = true := by
    rw [decel, none, decide_eq_true due]
    rfl
  refine ⟨_, State.stepExpire_sync (test := fun s st => st.decel && s.pub.wheel.isNone &&
    decide (overOn s.items st.on ClutchItem.syncLimit ≤ elapsed s.now st.phaseStart)) queue phase comes, ?_⟩
  have ends := (SettleOnly.refl (s.endDecel st)).settle s.sq
  obtain ⟨fu, cs, inputs, -, -, now⟩ := ((JobOnly.refl s).endDecel st).settled ends
  generalize (s.endDecel st).settle s.sq = t at ends fu cs inputs now
  refine ⟨⟨_, ends.queue.trans (congrArg (_ :: List.tail ·) queue), rfl, fun up => ?_⟩, ends.flags, ends.clutchState, fu,
    ends.flow, ends.hr, cs, inputs, now⟩
  show s.syncBegin st.on = _
  unfold State.syncBegin
  simp [up]

/-- Settles O54. -/
theorem rampOnAndDecelerationEnd : Obligations.RampOnAndDecelerationEnd := by
  refine ⟨fun st rest s queue phase due _ => ⟨rampOnEnd_syncs queue phase due, fun free last up done => ?_⟩,
    fun st rest s queue phase decel none due => decelerationLimitExpiry_ends queue phase decel none due⟩
  subst last
  exact rampOnEnd_locks queue phase due free up done

end Sys2Proof.Machine
end

section
/-! SUPPORT and O55. Detections that leave the gearbox and the frozen draft alone, and clutches that lock (R85, R86, R90, R91,
R101). -/

namespace Sys2Proof.Machine

variable {s t u : State} {st : GearStep}

/-! The frozen draft (R128). -/

/-- The frozen draft of the regulator, and whether it is missing. -/
def Hr.frost (h : Hr) : Option Int × Bool := (h.frozen, h.frozenLost)

theorem State.frost_of_still (same : t.hr.still = s.hr.still) : t.hr.frost = s.hr.frost :=
  show t.hr.still.frost = s.hr.still.frost by rw [same]

theorem State.frost_hrMove (s : State) (m : Motion) : (s.hrMove m).hr.frost = s.hr.frost := by
  have still := (s.hrMove_does m).1
  refine (show (s.hrMove m).hr.still.frost = _ by rw [still]).trans ?_
  unfold Hr.move
  repeat' split
  all_goals rfl

theorem State.frost_hrRefresh (s : State) : s.hrRefresh.hr.frost = s.hr.frost := by
  have works (v : State) : v.hrWork.hr.frost = v.hr.frost := by
    unfold State.hrWork
    split
    · exact State.frost_hrMove _ _
    · exact State.frost_hrMove _ _
  unfold State.hrRefresh
  split
  · split
    · rfl
    · exact State.frost_hrMove _ _
  · split
    · exact works _
    · split
      · exact State.frost_hrMove _ _
      · rfl

/-! A detection (R159). -/

theorem State.frost_detect (s : State) (k : FaultKind) (site : Word) : (s.detect k site).hr.frost = s.hr.frost := by
  have marked : (s.marked k site).hr.frost = s.hr.frost := by
    rw [(s.markOnly k site).hitch]
    rfl
  rw [State.detect_eq, ← marked]
  generalize s.marked k site = m
  have before := State.frost_of_still (HitchWaits.beforeRefresh m).still
  show m.unitsFollow.hr.frost = _
  unfold State.unitsFollow
  dsimp only
  split
  · exact (State.frost_hrRefresh _).trans before
  · exact before

/-- A detection that lets nothing be told to the gearbox leaves it as it is. -/
theorem State.sq_detect (untold : s.Untold) (k : FaultKind) (site : Word) : (s.detect k site).sq = s.sq := by
  have only := s.markOnly k site
  have follows := (GearStays.refl (s.marked k site)).unitsFollow
  have still : (s.marked k site).Untold := by
    unfold State.Untold
    rw [only.flow, only.sq]
    exact untold
  rw [State.detect_eq]
  exact (follows.still still).trans only.sq

/-- What a detection and the end of its event leave alone. -/
theorem State.detect_settled {k : FaultKind} {site : Word} (ends : SettleOnly (s.detect k site) t) :
    t.cs = s.cs ∧ t.inputs = s.inputs ∧ t.mu.conv = s.mu.conv ∧ t.mu.pub = s.mu.pub ∧ t.now = s.now := by
  have detects := (DetectOnly.refl s).detect k site
  have only := s.markOnly k site
  have work : (s.detect k site).mu = (s.marked k site).mu := ((JobOnly.refl _).unitsFollow).mu
  refine ⟨ends.cs.trans detects.cs, ends.inputs.trans detects.inputs, ?_, ?_,
    ends.now.trans (congrArg Lcu.now detects.lcu)⟩
  · rw [ends.mu, ← only.conv, ← work]
  · have pub : (s.marked k site).mu.pub = s.mu.pub := only.pub
    rw [ends.mu, ← pub, ← work]

/-! A step that ends on its clutches. -/

/-- What the end of the last step leaves: its clutches in their last state, no step, no flags, no frozen draft of its own. -/
def State.EndedIn (s : State) (on : List Clutch) (x : ClutchState) (t : State) : Prop :=
  t.sq.queue = [] ∧ (∀ c, t.sq.state c = if c ∈ on then x else s.sq.state c) ∧ t.sq.flags = .clear ∧
  (s.sq.flags.draftFreeze = true → t.hr.frozen = none ∧ t.hr.frozenLost = false) ∧
  t.cs = s.cs ∧ t.inputs = s.inputs ∧ t.mu.conv = s.mu.conv ∧ t.mu.pub = s.mu.pub ∧ t.now = s.now

/-- The last step ends as its clutches enter their last state, and the end of the event follows. -/
theorem State.endedIn_settle {q : Sq} {on : List Clutch} {x : ClutchState} {clean : Bool} (queue : s.sq.queue = [st])
    (up : s.pub.band = .released) (enters : q.SameBox (s.sq.enterAll on x)) (steps : q.queue = s.sq.queue)
    (flags : q.flags = s.sq.flags)
    (done : (s.sq.enterAll on x).plan .released (s.sq.enterAll on x).box = [])
    (ends : SettleOnly (({ s with sq := q } : State).endStep clean) t) : s.EndedIn on x t ∧ t.fu = s.fu := by
  have plan : q.plan .released q.box = [] := by rw [← enters.plan, ← enters.box]; exact done
  have ended := (State.endStep_ended (s := { s with sq := q }) (steps.trans queue) up plan clean).settle ends
  have clutch (c : Clutch) : q.state c = (s.sq.enterAll on x).state c := by
    unfold Sq.state
    rw [enters.clutch]
  obtain ⟨fu, cs, inputs, conv, pub, now⟩ := (((JobOnly.refl s).setSq q).endStep clean).settled ends
  refine ⟨⟨ended.queue, fun c => ?_, ended.flags, fun froze => ended.thaws ?_, cs, inputs, conv, pub, now⟩, fu⟩
  · exact (ended.state c).trans ((clutch c).trans (Sq.state_enterAll _ _ _ c))
  · exact (congrArg SqFlags.draftFreeze flags).trans froze

theorem lockRampEnd_locks (queue : s.sq.queue = [st]) (phase : st.phase = some .sync) (up : s.pub.band = .released)
    (done : (s.sq.enterAll st.on .locked).plan .released (s.sq.enterAll st.on .locked).box = [])
    (due : s.rampsDone st.on = true) :
    CompletesWith (.lockRampEnd .step) s fun t => s.EndedIn st.on .locked t ∧ t.fu = s.fu :=
  ⟨_, State.stepExpire_sync (test := fun s st => s.rampsDone st.on) queue phase due,
    State.endedIn_settle queue up ⟨rfl, rfl, rfl⟩ rfl rfl done ((SettleOnly.refl (s.lockStep st true)).settle s.sq)⟩

/-- A forced lock ends its step like a lock ramp, and its detection leaves that as it is. -/
theorem syncLimitExpiry_locks (queue : s.sq.queue = [st]) (phase : st.phase = some .sync) (up : s.pub.band = .released)
    (done : (s.sq.enterAll st.on .locked).plan .released (s.sq.enterAll st.on .locked).box = [])
    (due : s.syncDue st.on st.syncStart = true) :
    CompletesWith (.syncLimitExpiry .step) s (s.EndedIn st.on .locked) := by
  refine ⟨_, State.stepExpire_sync (test := fun s st => s.syncDue st.on st.syncStart) queue phase due, ?_⟩
  have ends := (SettleOnly.refl ((s.lockStep st false).detect .syncTimeout (siteOf st.on))).settle s.sq
  obtain ⟨⟨empty, state, flags, thaws, kept⟩, -⟩ := State.endedIn_settle (clean := false) queue up ⟨rfl, rfl, rfl⟩ rfl rfl
    done (SettleOnly.refl (s.lockStep st false))
  have rest := State.detect_settled ends
  have sq := State.sq_detect (s := s.lockStep st false) (.inr (Sq.unwaiting_of_empty empty)) .syncTimeout (siteOf st.on)
  have frost := (s.lockStep st false).frost_detect .syncTimeout (siteOf st.on)
  obtain ⟨cs, inputs, conv, pub, now⟩ := kept
  obtain ⟨cs', inputs', conv', pub', now'⟩ := rest
  refine ⟨?_, fun c => ?_, ?_, fun froze => ?_, cs'.trans cs, inputs'.trans inputs, conv'.trans conv, pub'.trans pub,
    now'.trans now⟩
  · rw [ends.queue, sq]
    exact empty
  · rw [ends.clutchState, sq]
    exact state c
  · rw [ends.flags, sq]
    exact flags
  · obtain ⟨frozen, lost⟩ := thaws froze
    obtain ⟨same, same'⟩ := Prod.mk.inj frost
    rw [ends.hr]
    exact ⟨same.trans frozen, same'.trans lost⟩

/-- A NEUTRALIZE runs its ramp to the end. -/
theorem rampOffEnd_opens (queue : s.sq.queue = [st]) (phase : st.phase = some .rampOff) (up : s.pub.band = .released)
    (due : st.phaseLength ≤ elapsed s.now st.phaseStart)
    (done : (s.sq.enterAll st.off .opened).plan .released (s.sq.enterAll st.off .opened).box = []) :
    CompletesWith .rampOffEnd s fun t => s.EndedIn st.off .opened t ∧ t.fu = s.fu :=
  ⟨_, State.stepExpire_phase queue phase due,
    State.endedIn_settle (q := { s.sq.enterAll st.off .opened with looseSync := none }) queue up ⟨rfl, rfl, rfl⟩ rfl rfl done
      ((SettleOnly.refl ((s.zeroNeutral st).tryStart)).settle s.sq)⟩

/-! A direction clutch outside a step (R91). -/

/-- The event that a time of the direction clutch outside a step brings. -/
theorem State.looseExpire_due {d : Dir} {due : State → Dir → Bool} {f : State → Dir → State} (loose : s.sq.loose = some d)
    (comes : due s d = true) : s.looseExpire due f = .next ((f s d).settle s.sq) := by
  unfold State.looseExpire
  rw [State.expire_due (due := fun s => s.sq.loose.any (due s)) (by rw [loose]; exact comes)]
  simp only [loose]

/-- A direction clutch that locks outside a step, none being queued. -/
theorem State.lockLoose_eq (empty : s.sq.queue = []) (d : Dir) :
    s.lockLoose d = { s with sq := { s.sq.enterAll [d.clutch] .locked with looseSync := none } } :=
  State.tryStart_empty (s := { s with sq := { s.sq.enterAll [d.clutch] .locked with looseSync := none } }) empty

/-- What a direction clutch leaves that locks outside a step. -/
def State.LockedLoose (s : State) (d : Dir) (t : State) : Prop :=
  (∀ c, t.sq.state c = if c = d.clutch then .locked else s.sq.state c) ∧ t.sq.looseSync = none ∧ t.sq.queue = [] ∧
  t.cs = s.cs ∧ t.inputs = s.inputs ∧ t.mu.conv = s.mu.conv ∧ t.mu.pub = s.mu.pub ∧ t.now = s.now

/-- The end of an event that leaves the gearbox as a direction clutch does that locks outside a step. -/
theorem State.lockedLoose_settle {d : Dir} (empty : s.sq.queue = []) (sq : u.sq = (s.lockLoose d).sq)
    (ends : SettleOnly u t)
    (kept : t.cs = s.cs ∧ t.inputs = s.inputs ∧ t.mu.conv = s.mu.conv ∧ t.mu.pub = s.mu.pub ∧ t.now = s.now) :
    s.LockedLoose d t := by
  rw [State.lockLoose_eq empty] at sq
  refine ⟨fun c => ?_, ?_, ?_, kept⟩
  · rw [ends.clutchState, sq]
    refine (Sq.state_enterAll s.sq [d.clutch] .locked c).trans ?_
    simp only [List.mem_singleton]
  · rw [ends.sq, sq]
  · rw [ends.queue, sq]
    exact empty

theorem lockRampEnd_loose {d : Dir} (loose : s.sq.loose = some d) (empty : s.sq.queue = [])
    (due : s.rampsDone [d.clutch] = true) :
    CompletesWith (.lockRampEnd .direction) s fun t => s.LockedLoose d t ∧ t.fu = s.fu := by
  refine ⟨_, State.looseExpire_due (due := fun s d => s.rampsDone [d.clutch]) loose due, ?_⟩
  have ends := (SettleOnly.refl (s.lockLoose d)).settle s.sq
  obtain ⟨fu, kept⟩ := ((JobOnly.refl s).lockLoose d).settled ends
  exact ⟨State.lockedLoose_settle empty rfl ends kept, fu⟩

theorem syncLimitExpiry_loose {d : Dir} (loose : s.sq.loose = some d) (empty : s.sq.queue = [])
    (due : s.syncDue [d.clutch] s.sq.looseSync = true) :
    CompletesWith (.syncLimitExpiry .direction) s (s.LockedLoose d) := by
  refine ⟨_, State.looseExpire_due (due := fun s d => s.syncDue [d.clutch] s.sq.looseSync) loose due, ?_⟩
  have ends := (SettleOnly.refl ((s.lockLoose d).detect .syncTimeout (siteOf [d.clutch]))).settle s.sq
  obtain ⟨-, cs, inputs, conv, pub, now⟩ := ((JobOnly.refl s).lockLoose d).settled (SettleOnly.refl _)
  obtain ⟨cs', inputs', conv', pub', now'⟩ := State.detect_settled ends
  have still : (s.lockLoose d).sq.queue = [] := by
    rw [State.lockLoose_eq empty]
    exact empty
  exact State.lockedLoose_settle empty
    (State.sq_detect (.inr (Sq.unwaiting_of_empty still)) .syncTimeout (siteOf [d.clutch])) ends
    ⟨cs'.trans cs, inputs'.trans inputs, conv'.trans conv, pub'.trans pub, now'.trans now⟩

/-- Settles O55. -/
theorem clutchesLock : Obligations.ClutchesLock := by
  refine ⟨fun st s queue up => ⟨fun phase done => ⟨lockRampEnd_locks queue phase up done,
    syncLimitExpiry_locks queue phase up done⟩, fun phase due _ done => rampOffEnd_opens queue phase up due done⟩,
    fun d s loose empty => ⟨lockRampEnd_loose loose empty, syncLimitExpiry_loose loose empty⟩⟩

end Sys2Proof.Machine
end

section
/-! SUPPORT. Heat and HOT: nothing but a SYNC, a cooling step and the HOT test moves them (R96). -/

namespace Sys2Proof.Machine

variable {s t u : State}

/-- No clutch is heated or cooled, and none becomes HOT or ceases to be. -/
def SameHeat (s t : State) : Prop := ∀ c, t.heatOf c = s.heatOf c

namespace SameHeat

theorem refl (s : State) : SameHeat s s := fun _ => rfl

theorem trans (h : SameHeat s t) (g : SameHeat t u) : SameHeat s u := fun c => (g c).trans (h c)

theorem ite {c : Prop} [Decidable c] {a b : State} (ha : SameHeat s a) (hb : SameHeat s b) :
    SameHeat s (if c then a else b) := by
  split
  · exact ha
  · exact hb

/-- A change beside the clutch records. -/
theorem frame (h : SameHeat s t) (clutch : u.sq.clutch = t.sq.clutch := by rfl) : SameHeat s u :=
  h.trans fun c => by
    unfold State.heatOf
    rw [clutch]

/-! Flow, axle and hitch. -/

theorem grantPass (h : SameHeat s t) : SameHeat s t.grantPass := h.trans t.heatOf_grantPass

theorem releaseFill (h : SameHeat s t) : SameHeat s t.releaseFill :=
  ite h (h.frame (u := { t with flow := { t.flow with fill := .idle, fillSite := none } })).grantPass

theorem releaseAxle (h : SameHeat s t) : SameHeat s t.releaseAxle :=
  ite h (h.frame (u := { t with flow := { t.flow with axle := .idle } })).grantPass

theorem askFill (h : SameHeat s t) (n : Nat) (c : Clutch) : SameHeat s (t.askFill n c) := by
  have freed : SameHeat s t.freeFill := ite h.releaseFill h
  exact (freed.frame (u := { t.freeFill with
    flow := { t.freeFill.flow with fill := t.freeFill.flow.request t.freeFill.now n, fillSite := some c } })).grantPass

theorem askAxle (h : SameHeat s t) (n : Nat) : SameHeat s (t.askAxle n) := by
  have freed : SameHeat s t.freeAxle := ite h.releaseAxle h
  exact (freed.frame (u := { t.freeAxle with
    flow := { t.freeAxle.flow with axle := t.freeAxle.flow.request t.freeAxle.now n } })).grantPass

theorem askLift (h : SameHeat s t) (n : Nat) : SameHeat s (t.askLift n) :=
  ite h (h.frame (u := { t with
    flow := { t.flow with liftAsked := n, liftGranted := min t.flow.liftGranted n } })).grantPass

theorem followHold (h : SameHeat s t) : SameHeat s t.followHold := h.trans t.heatOf_followHold

theorem acuEngage (h : SameHeat s t) : SameHeat s t.acuEngage := by
  unfold State.acuEngage
  split
  · exact (h.frame (u := t.acuCoupling .engaged)).releaseAxle
  · exact (h.frame (u := { t with
      acu := { t.acu with coupling := .engaging, fill := none, settle := Timer.begun t.now } })).releaseAxle
  · exact h.frame
  · exact h
  · exact h

theorem acuRelease (h : SameHeat s t) : SameHeat s t.acuRelease := by
  unfold State.acuRelease
  split
  · exact ite ((h.frame (u := t.acuCoupling .releaseWait)).askAxle _) h
  · exact ite (h.frame (u := t.acuCoupling .engaged)).releaseAxle h
  · exact h
  · exact h
  · exact h

theorem acuFollow (h : SameHeat s t) : SameHeat s t.acuFollow := ite h (ite h.acuRelease h.acuEngage)

theorem hrMove (h : SameHeat s t) (m : Motion) : SameHeat s (t.hrMove m) :=
  ((h.frame (u := { t with
    hr := { t.hr.move t.items t.now (t.pub.position.getD 0) m with
      asked := if m = .raise then liftFor t.items t.hr.error else 0 } })).askLift _).frame

theorem hrRefresh (h : SameHeat s t) : SameHeat s t.hrRefresh := by
  have moves (r : Hr) (m : Motion) : SameHeat s (({ t with hr := r } : State).hrMove m) := (h.frame).hrMove m
  unfold State.hrRefresh State.hrEnterHold State.hrWork State.hrRegulate
  exact ite (ite h (moves _ _)) (ite (ite (moves _ _) (moves _ _)) (ite (moves _ _) h))

theorem unitsFollow (h : SameHeat s t) : SameHeat s t.unitsFollow :=
  ite h.followHold.acuFollow.hrRefresh h.followHold.acuFollow

/-- A detection heats and cools no clutch. -/
theorem detect (h : SameHeat s t) (k : FaultKind) (site : Word) : SameHeat s (t.detect k site) := by
  have marked : SameHeat s (t.marked k site) := h.frame (by rw [(t.markOnly k site).sq])
  rw [State.detect_eq]
  exact marked.unitsFollow.frame

/-! The gearbox. -/

/-- Clutches that enter a state. -/
theorem enters (h : SameHeat s t) (cs : List Clutch) (x : ClutchState)
    (clutch : u.sq.clutch = (t.sq.enterAll cs x).clutch := by rfl) : SameHeat s u := by
  refine h.trans fun c => ?_
  unfold State.heatOf
  rw [clutch, Sq.clutch_enterAll]
  split <;> rfl

theorem rampOff (h : SameHeat s t) (cs : List Clutch) (length : Nat) : SameHeat s (t.rampOff cs length) := by
  refine h.trans fun c => ?_
  unfold State.heatOf
  rw [State.clutch_rampOff]
  split <;> rfl

theorem clearFlags (h : SameHeat s t) : SameHeat s t.clearFlags := by
  have cleared : SameHeat s t.flagsCleared := h.frame (by rw [State.flagsCleared_eq])
  rw [State.clearFlags_eq]
  exact ite cleared.acuFollow cleared

theorem inchEntry (h : SameHeat s t) : SameHeat s t.inchEntry := by
  unfold State.inchEntry
  split
  · next d _ => exact ite h (h.enters [d.clutch] .sync)
  · exact h

theorem setQueue (h : SameHeat s t) (l : List GearStep) : SameHeat s (t.setQueue l) := h.frame

theorem abandonHead (h : SameHeat s t) : SameHeat s t.abandonHead := by
  cases queue : t.sq.queue with
  | nil =>
    have same : t.abandonHead = t := by
      unfold State.abandonHead
      rw [queue]
    rw [same]
    exact h
  | cons st rest =>
    have gone : SameHeat s (t.headGone st rest) := by
      have sq := t.sq_headGone st rest
      split at sq
      · exact h.frame (by rw [sq])
      · exact h.enters st.on .opened (by rw [sq])
    rw [State.abandonHead_eq queue]
    exact gone.clearFlags.inchEntry

theorem abandonRebuild (h : SameHeat s t) : SameHeat s t.abandonRebuild := h.abandonHead.setQueue _

theorem rebuild (h : SameHeat s t) : SameHeat s t.rebuild := by
  unfold State.rebuild
  refine ite h ?_
  split
  · exact h.setQueue _
  · refine ite (h.setQueue _) ?_
    split
    · exact ite (h.setQueue _) h.abandonRebuild
    · exact h.abandonRebuild

theorem finishStep (h : SameHeat s t) : SameHeat s (t.finishStep false) := by
  cases queue : t.sq.queue with
  | nil =>
    have same : t.finishStep false = t := by
      unfold State.finishStep
      rw [queue]
    rw [same]
    exact h
  | cons st rest =>
    rw [State.finishStep_false queue]
    exact (h.frame (u := { t with sq := { t.sq with queue := rest } })).clearFlags.inchEntry.rebuild

theorem zeroNeutral (h : SameHeat s t) (st : GearStep) : SameHeat s (t.zeroNeutral st) :=
  (h.enters (u := ({ t with sq := t.sq.enterAll st.off .opened } : State).endLoose) st.off .opened).finishStep

theorem beginStep (h : SameHeat s t) (st : GearStep) : SameHeat s (t.beginStep st) := by
  by_cases neutral : st.kind = .neutralize
  · have begins : t.beginStep st = _ := if_pos neutral
    rw [begins]
    exact (h.frame).rampOff _ _
  · have readied : SameHeat s (t.readied st) := h.frame
    rw [t.beginStep_other neutral]
    split
    · exact readied.askFill _ _
    · exact readied

theorem startPlain (h : SameHeat s t) : SameHeat s t.startPlain := by
  unfold State.startPlain
  split
  · exact ite (h.beginStep _) h
  · exact h

theorem tryStart (h : SameHeat s t) : SameHeat s t.tryStart := by
  unfold State.tryStart
  split
  · exact ite (ite (h.zeroNeutral _).startPlain (h.beginStep _)) h
  · exact h

theorem settle (h : SameHeat s t) (ends : SettleOnly t u) : SameHeat s u :=
  h.trans fun c => by
    unfold State.heatOf
    rw [ends.clutch c]

end SameHeat

/-! The HOT tests. -/

theorem State.heatOf_tested (s : State) (d c : Clutch) :
    (s.hotTest d).heatOf c = if c = d then hotTested s.items (s.heatOf c) else s.heatOf c := by
  have written (b : Bool) :
      ({ s with sq := { s.sq with clutch := s.sq.clutch.set d { s.sq.clutch.get d with hot := b } } } : State).heatOf c =
        if c = d then ((s.heatOf c).1, b) else s.heatOf c := by
    unfold State.heatOf
    dsimp only
    rw [ByClutch.get_set]
    split
    · next same => rw [same]
    · rfl
  have tested : (s.hotTest d).heatOf c = if c = d then ((s.heatOf c).1, (hotTested s.items (s.heatOf d)).2) else s.heatOf c := by
    unfold State.hotTest
    dsimp only
    split
    · next comes =>
      simp only [Bool.and_eq_true, Bool.not_eq_true', decide_eq_true_eq] at comes
      rw [((SameHeat.refl _).detect _ _ c), written, show (hotTested s.items (s.heatOf d)).2 = true from if_pos comes]
    · next cold =>
      simp only [Bool.and_eq_true, Bool.not_eq_true', decide_eq_true_eq] at cold
      split
      · next goes =>
        simp only [Bool.and_eq_true, decide_eq_true_eq] at goes
        rw [written, show (hotTested s.items (s.heatOf d)).2 = false from (if_neg cold).trans (if_pos goes)]
      · next stays =>
        simp only [Bool.and_eq_true, decide_eq_true_eq] at stays
        rw [show (hotTested s.items (s.heatOf d)).2 = (s.heatOf d).2 from (if_neg cold).trans (if_neg stays)]
        split
        · next same => rw [same]
        · rfl
  rw [tested]
  split
  · next same => rw [same]; rfl
  · rfl

/-- The HOT tests take each clutch once, in RUN as in CONFIG. -/
theorem State.heatOf_allTested (s : State) (c : Clutch) : s.hotTests.heatOf c = hotTested s.items (s.heatOf c) := by
  have walk : ∀ (l : List Clutch), l.Nodup → ∀ u : State, u.items = s.items →
      (l.foldl State.hotTest u).heatOf c = if c ∈ l then hotTested s.items (u.heatOf c) else u.heatOf c := by
    intro l
    induction l with
    | nil => exact fun _ _ _ => rfl
    | cons d l ih =>
      intro nodup u items
      obtain ⟨new, nodup⟩ := List.nodup_cons.mp nodup
      rw [List.foldl_cons, ih nodup _ ((congrArg Cs.items ((DetectOnly.refl u).hotTest d).cs).trans items),
        State.heatOf_tested, items]
      by_cases same : c = d
      · subst same
        simp [new]
      · simp [same]
  have every : c ∈ Clutch.all := by cases c <;> decide
  exact (walk Clutch.all (by decide) s rfl).trans (if_pos every)

end Sys2Proof.Machine
end

section
/-! SUPPORT and O57. The timers of AUTO run out, and a cooling step (R93, R96). -/

namespace Sys2Proof.Machine

variable {s t u : State}

/-- What the end of an event leaves of the refusals: each stands while its test holds in DRIVE (R93). -/
theorem State.settle_refusals (s : State) (old : Sq) :
    let t := s.settle old
    let drive : Bool := s.seqState = .drive
    t.sq.refusalUp = (s.sq.refusalUp && drive && (s.pub.engine.isNone || s.wantsUp)) ∧
    t.sq.refusalDown = (s.sq.refusalDown && drive && (s.pub.engine.isNone || s.wantsDown)) := by
  have before := State.sameUnits_gearReport s.osGuard.sqGuard old
  have after := State.sameUnits_keepAll
    (((((((s.osGuard.sqGuard).gearReport old).followLost).followMismatch).unitGuards).clutchCurrents).handSetpoints)
  have handed (u : State) : u.handSetpoints.sq = u.sq := by
    unfold State.handSetpoints
    split <;> rfl
  obtain ⟨-, reported, -, -⟩ := before
  obtain ⟨-, kept, -, -⟩ := after
  rw [handed] at kept
  intro t drive
  have sq : t.sq = _ := kept
  rw [sq]
  constructor
  · show ((s.osGuard.sqGuard).gearReport old).sq.refusalUp = _
    rw [reported]
    rfl
  · show ((s.osGuard.sqGuard).gearReport old).sq.refusalDown = _
    rw [reported]
    rfl

theorem Timer.due_iff {r : Run} {now : Time} {ms : Nat} (runs : r.out = false) (long : ms ≤ elapsed now r.start) :
    Timer.due now ms (some r) = true := by
  unfold Timer.due
  simp [runs, long]

/-- A changed target, and the plan rebuilt for it. -/
theorem State.retarget_sq (s : State) (gear : Nat) :
    (s.retarget gear).sq.autoTarget = gear ∧ (s.retarget gear).sq.taken = s.sq.taken :=
  ⟨(State.wishes_replan { s with sq := { s.sq with autoTarget := gear } }).target,
    congrArg (fun k => k.1.1) (State.kept_replan { s with sq := { s.sq with autoTarget := gear } })⟩

theorem upTimerExpiry_moves {r : Run} (runs : r.out = false) (timer : s.sq.up = some r)
    (due : 1000 ≤ elapsed s.now r.start) :
    CompletesWith .upTimerExpiry s fun t =>
      t.sq.autoTarget = (if s.sq.autoTarget < takenField s.sq.taken 4 then s.sq.autoTarget + 1 else s.sq.autoTarget) ∧
      (takenField s.sq.taken 4 ≤ s.sq.autoTarget → s.seqState = .drive → s.wantsUp = true → t.sq.refusalUp = true) ∧
      t.sq.taken = s.sq.taken ∧ t.fu = s.fu ∧ t.cs = s.cs ∧ t.now = s.now := by
  have comes : s.sq.up.due s.now 1000 = true := by
    rw [timer]
    exact Timer.due_iff runs due
  refine ⟨_, congrArg Host.Outcome.next (State.expire_due (due := fun s => s.sq.up.due s.now 1000) comes _), ?_⟩
  have ends := (SettleOnly.refl s.upExpires).settle s.sq
  obtain ⟨fu, cs, -, -, -, now⟩ := ((JobOnly.refl s).upExpires).settled ends
  obtain ⟨refuses, -⟩ := s.upExpires.settle_refusals s.sq
  generalize s.upExpires.settle s.sq = t at ends fu cs now refuses
  have target : t.sq.autoTarget = s.upExpires.sq.autoTarget := by rw [ends.sq]
  have taken : t.sq.taken = s.upExpires.sq.taken := by rw [ends.sq]
  dsimp only
  rw [target, taken]
  by_cases below : s.sq.autoTarget < takenField s.sq.taken 4
  · have run : s.upExpires = ({ s with sq := { s.sq with up := s.sq.up.runOut } } : State).retarget (s.sq.autoTarget + 1) :=
      if_pos below
    rw [run, if_pos below]
    obtain ⟨moved, same⟩ := State.retarget_sq { s with sq := { s.sq with up := s.sq.up.runOut } } (s.sq.autoTarget + 1)
    exact ⟨moved, fun top => absurd below (Nat.not_lt.mpr top), same, fu, cs, now⟩
  · have run : s.upExpires = { s with sq := { s.sq with up := s.sq.up.runOut, refusalUp := true } } := if_neg below
    rw [run] at refuses ⊢
    rw [if_neg below]
    refine ⟨rfl, fun _ drive wants => ?_, rfl, fu, cs, now⟩
    refine refuses.trans ?_
    show (true && decide (s.seqState = .drive) && (s.pub.engine.isNone || s.wantsUp)) = true
    rw [wants, decide_eq_true drive, Bool.or_true]
    rfl

theorem downTimerExpiry_moves {r : Run} (runs : r.out = false) (timer : s.sq.down = some r)
    (due : 500 ≤ elapsed s.now r.start) :
    CompletesWith .downTimerExpiry s fun t =>
      t.sq.autoTarget = (if takenField s.sq.taken 3 < s.sq.autoTarget then s.sq.autoTarget - 1 else s.sq.autoTarget) ∧
      (s.sq.autoTarget ≤ takenField s.sq.taken 3 → s.seqState = .drive → s.wantsDown = true → t.sq.refusalDown = true) ∧
      t.sq.taken = s.sq.taken ∧ t.fu = s.fu ∧ t.cs = s.cs ∧ t.now = s.now := by
  have comes : s.sq.down.due s.now 500 = true := by
    rw [timer]
    exact Timer.due_iff runs due
  refine ⟨_, congrArg Host.Outcome.next (State.expire_due (due := fun s => s.sq.down.due s.now 500) comes _), ?_⟩
  have ends := (SettleOnly.refl s.downExpires).settle s.sq
  obtain ⟨fu, cs, -, -, -, now⟩ := ((JobOnly.refl s).downExpires).settled ends
  obtain ⟨-, refuses⟩ := s.downExpires.settle_refusals s.sq
  generalize s.downExpires.settle s.sq = t at ends fu cs now refuses
  have target : t.sq.autoTarget = s.downExpires.sq.autoTarget := by rw [ends.sq]
  have taken : t.sq.taken = s.downExpires.sq.taken := by rw [ends.sq]
  dsimp only
  rw [target, taken]
  by_cases above : takenField s.sq.taken 3 < s.sq.autoTarget
  · have run : s.downExpires =
        ({ s with sq := { s.sq with down := s.sq.down.runOut } } : State).retarget (s.sq.autoTarget - 1) := if_pos above
    rw [run, if_pos above]
    obtain ⟨moved, same⟩ := State.retarget_sq { s with sq := { s.sq with down := s.sq.down.runOut } } (s.sq.autoTarget - 1)
    exact ⟨moved, fun bottom => absurd above (Nat.not_lt.mpr bottom), same, fu, cs, now⟩
  · have run : s.downExpires = { s with sq := { s.sq with down := s.sq.down.runOut, refusalDown := true } } := if_neg above
    rw [run] at refuses ⊢
    rw [if_neg above]
    refine ⟨rfl, fun _ drive wants => ?_, rfl, fu, cs, now⟩
    refine refuses.trans ?_
    show (true && decide (s.seqState = .drive) && (s.pub.engine.isNone || s.wantsDown)) = true
    rw [wants, decide_eq_true drive, Bool.or_true]
    rfl

/-! A cooling step (R96). -/

theorem State.heatOf_cool (s : State) (c : Clutch) :
    s.cool.heatOf c = ((s.sq.clutch.get c).heat - itemNat s.items 20 4, (s.sq.clutch.get c).hot) := by
  unfold State.heatOf State.cool
  rw [ByClutch.get_tabulate]

theorem coolingStep_cools (s : State) :
    CompletesWith .coolingStep s fun t =>
      (∀ c, t.heatOf c = hotTested s.items ((s.sq.clutch.get c).heat - itemNat s.items 20 4, (s.sq.clutch.get c).hot)) ∧
      (∀ k, k ≠ .clutchHot → t.fu.entry.get k = s.fu.entry.get k) ∧ t.cs = s.cs ∧ t.inputs = s.inputs ∧
      t.mu.conv = s.mu.conv ∧ t.mu.pub = s.mu.pub ∧ t.now = s.now := by
  have run : exec .coolingStep s = .next (((s.cool.hotTests).tryStart).settle s.sq) :=
    congrArg Host.Outcome.next (State.event_pos rfl _)
  refine ⟨_, run, ?_⟩
  have ends := (SettleOnly.refl ((s.cool.hotTests).tryStart)).settle s.sq
  generalize ((s.cool.hotTests).tryStart).settle s.sq = t at ends
  have starts := (JobOnly.refl s.cool.hotTests).tryStart
  have tests := HotOnly.hotTests s.cool
  have detects := (DetectOnly.refl s.cool).hotTests
  obtain ⟨fu, cs, inputs, conv, pub, now⟩ := starts.settled ends
  have cs' : s.cool.hotTests.cs = s.cs := detects.cs
  have inputs' : s.cool.hotTests.inputs = s.inputs := detects.inputs
  have mu : s.cool.hotTests.mu = s.mu := tests.mu
  have time : s.cool.hotTests.now = s.now := congrArg Lcu.now detects.lcu
  refine ⟨fun c => ?_, fun k other => ?_, cs.trans cs', inputs.trans inputs', conv.trans (congrArg Mu.conv mu),
    pub.trans (congrArg Mu.pub mu), now.trans time⟩
  · rw [(((SameHeat.refl s.cool.hotTests).tryStart).settle ends) c, State.heatOf_allTested, State.heatOf_cool]
    rfl
  · rw [fu]
    exact tests.entry k other

/-- Settles O57. -/
theorem gearTimersRunOut : Obligations.GearTimersRunOut := by
  refine ⟨fun r s runs => ⟨upTimerExpiry_moves runs, downTimerExpiry_moves runs⟩, fun s => ?_⟩
  obtain ⟨t, run, heat, kept⟩ := coolingStep_cools s
  refine ⟨t, run, fun c => ?_, kept⟩
  obtain ⟨cooled, tested⟩ := Prod.mk.inj (heat c)
  exact ⟨cooled, tested⟩

end Sys2Proof.Machine
end

section
/-! SUPPORT and O45. ENABLE falls and rises (R42, R98, R114, R132, R153, R162). -/

namespace Sys2Proof.Machine

variable {s t u : State}

/-! The axle under a low ENABLE follows its spring (R114). -/

/-- The coupling follows its spring: engaged, or engaging. -/
def Coupling.AtSpring (c : Coupling) : Prop := c = .engaged ∨ c = .engaging

theorem Coupling.afterEngage_atSpring (c : Coupling) : c.afterEngage.AtSpring := by
  unfold Coupling.AtSpring Coupling.afterEngage
  cases c <;> simp

theorem Coupling.AtSpring.engages {c d : Coupling} (rests : c.AtSpring) (goes : c.Engages d) : d = c := by
  rcases rests with rfl | rfl <;> exact goes

theorem Begins.atSpring (h : Begins s t) (rests : s.acu.coupling.AtSpring) : t.acu.coupling = s.acu.coupling := by
  rcases h with same | ⟨waits, -⟩
  · exact same
  · rcases rests with rests | rests <;> rw [rests] at waits <;> cases waits

theorem State.wants_disabled (off : s.enable = false) : s.acuWantsReleased = false := by
  unfold State.acuWantsReleased
  rw [off, Bool.and_false]

/-- A coupling at its spring has nothing to follow while ENABLE is low. -/
theorem State.acuFollow_disabled (off : s.enable = false) (rests : s.acu.coupling.AtSpring) : s.acuFollow = s := by
  refine State.acuFollow_of_stands fun _ => ?_
  rw [State.wants_disabled off]
  exact rests

theorem Grants.releaseFill (h : Grants s t) : Grants s t.releaseFill :=
  .ite h (h.trans (t := t) (u := { t with flow := { t.flow with fill := .idle, fillSite := none } })
    (.frame rfl rfl rfl)).grantPass

/-! The gearbox halts (R98). -/

/-- The halted gearbox before its flags clear. -/
def State.halting (s : State) : State :=
  { s.releaseFill with
    sq := { s.releaseFill.sq.openAll with
      queue := [], looseSync := none, interlock := true, up := none, down := none, refusalUp := false,
      refusalDown := false } }

theorem State.halt_eq (s : State) : s.halt = s.halting.clearFlags := rfl

theorem State.sq_halt (s : State) : s.halt.sq = { s.halting.sq with flags := .clear } :=
  State.sq_clearFlags (s := s.halting) (Sq.unwaiting_of_empty rfl)

theorem State.state_halt (s : State) (c : Clutch) : s.halt.sq.state c = .opened := by
  have every : c ∈ Clutch.all := by cases c <;> decide
  rw [State.sq_halt]
  exact (Sq.state_enterAll _ Clutch.all .opened c).trans (if_pos every)

theorem State.fill_halt (s : State) : s.halt.flow.fill.state = .idle :=
  State.clearFlags_idle (s := s.halting) s.fill_releaseFill

theorem State.coupling_halt (off : s.enable = false) (rests : s.acu.coupling.AtSpring) :
    s.halt.acu.coupling = s.acu.coupling := by
  have released : s.releaseFill.acu.coupling = s.acu.coupling := (Grants.refl s).releaseFill.coupling.atSpring rests
  have cleared : s.halting.flagsCleared.acu.coupling = s.acu.coupling := by
    rw [State.flagsCleared_eq]
    exact released
  have low : s.halting.flagsCleared.enable = false := by
    rw [State.flagsCleared_eq]
    exact (congrArg Inputs.enable ((JobOnly.refl s).releaseFill).inputs).trans off
  rw [State.halt_eq, State.clearFlags_eq]
  split
  · rw [State.acuFollow_disabled low (by rw [cleared]; exact rests), cleared]
  · exact cleared

/-! ENABLE falls in RUN. -/

/-- The state as ENABLE is low and no channel drives any more, before the units act. -/
def State.disabled (s : State) : State := ({ s with inputs := { s.inputs with enable := false } } : State).osGuard

/-- The units have acted on a fall in RUN, before it is detected. -/
def State.halted (s : State) : State := s.disabled.acuEnableFall.hrRefresh.halt

theorem exec_enableFall (high : s.inputs.enable = true) (running : s.running = true) :
    exec .enableFall s = .next ((s.halted.detect .enableLost enableSite).settle s.sq) := by
  have falls : s.enableFalls = s.halted.detect .enableLost enableSite := if_pos running
  refine congrArg Host.Outcome.next ((State.event_pos high _).trans ?_)
  rw [falls]

theorem State.halted_work (s : State) : JobOnly s.disabled s.halted := (JobOnly.refl _).acuEnableFall.hrRefresh.halt

theorem State.coupling_halted (running : s.running = true) : s.halted.acu.coupling = s.acu.coupling.afterEngage := by
  have engages : s.disabled.acuEnableFall = s.disabled.acuEngage := if_pos running
  have engaged : s.disabled.acuEngage.acu.coupling = s.acu.coupling.afterEngage := s.disabled.coupling_acuEngage
  have rests := s.acu.coupling.afterEngage_atSpring
  have work := ((JobOnly.refl s.disabled).acuEngage).hrRefresh
  unfold State.halted
  rw [engages]
  have refreshed := (Grants.refl s.disabled.acuEngage).hrRefresh.coupling.atSpring (by rw [engaged]; exact rests)
  rw [engaged] at refreshed
  rw [State.coupling_halt (congrArg Inputs.enable work.inputs) (by rw [refreshed]; exact rests), refreshed]

/-- What the detection of a fall meets: the units have acted, and ENABLE is low. -/
theorem State.halted_marked (running : s.running = true) :
    (s.halted.marked .enableLost enableSite).running = true ∧ (s.halted.marked .enableLost enableSite).enable = false ∧
      (s.halted.marked .enableLost enableSite).fu.entry.get .enableLost = ⟨true, some enableSite⟩ := by
  have only := s.halted.markOnly .enableLost enableSite
  obtain ⟨v, eq, -, -, -, -, -, entry, -⟩ := s.halted.marked_reported .enableLost enableSite
  refine ⟨only.running.trans (s.halted_work.running.trans running),
    only.enable.trans (congrArg Inputs.enable s.halted_work.inputs), ?_⟩
  rw [eq, (v.markUnits_entry _ _).1, entry, ByKind.get_set_self]

/-- What the units' following leaves in force after a fall in RUN. -/
theorem State.halted_follows (running : s.running = true)
    (follows : Followed (s.halted.marked .enableLost enableSite) t) :
    t.flow.fill.state = .idle ∧ t.acu.coupling = s.acu.coupling.afterEngage ∧ t.hr.mode = .hold ∧
      t.fu.entry.get .enableLost = ⟨true, some 0⟩ ∧ t.fu.safeNeutral = true := by
  have only := s.halted.markOnly .enableLost enableSite
  have idle : s.halted.flow.fill.state = .idle := State.fill_halt _
  obtain ⟨running', off, entry⟩ := State.halted_marked running
  have coupling := State.coupling_halted running
  rw [← only.axle.1] at coupling
  have flow : (s.halted.marked .enableLost enableSite).flow.fill.state = .idle := by
    rw [only.flow]
    exact idle
  generalize s.halted.marked .enableLost enableSite = m at *
  refine ⟨?_, ?_, ?_, ?_, ?_⟩
  · rw [follows.flow]
    exact ((GearStays.refl m).unitsFollow).idle flow
  · have engages := State.engages_unitsFollow running' (State.wants_disabled off)
    rw [follows.coupling, ← coupling]
    exact Coupling.AtSpring.engages (coupling ▸ s.acu.coupling.afterEngage_atSpring) engages
  · rw [follows.hitch]
    refine (State.rests_unitsFollow running' ?_).1
    unfold State.hrHold
    simp [off]
  · rw [follows.entry]
    exact entry
  · have low : t.enable = false := (congrArg Inputs.enable follows.inputs).trans off
    rw [follows.conditions.1]
    unfold State.safeCondition
    rw [low]
    rfl

/-- A channel under a low ENABLE drives nothing. -/
theorem State.outState_disabled (off : s.enable = false) (ch : OutCh) : s.outState ch ≠ .driving := by
  rw [State.outState_eq, if_pos off]
  split <;> nofun

theorem enableFall_halts (high : s.inputs.enable = true) (running : s.running = true) :
    CompletesWith .enableFall s fun t =>
      t.inputs = { s.inputs with enable := false } ∧ (∀ c, t.sq.state c = .opened) ∧ t.sq.queue = [] ∧
      t.sq.interlock = true ∧ t.sq.flags = .clear ∧ t.flow.fill.state = .idle ∧
      t.acu.coupling = s.acu.coupling.afterEngage ∧
      t.hr.mode = .hold ∧ (∀ ch, t.outState ch ≠ .driving ∧ t.outputCurrent ch = 0 ∧ (t.os.get ch).openTimer = none) ∧
      t.fu.entry.get .enableLost = ⟨true, some 0⟩ ∧ t.fu.safeNeutral = true ∧
      t.cs = s.cs ∧ t.lcu.leases = s.lcu.leases ∧ t.mu.conv = s.mu.conv ∧ t.mu.pub = s.mu.pub ∧ t.now = s.now ∧
      (∀ j, (t.order j).map Order.still = (s.order j).map Order.still) ∧ ∀ p, PortOnly (s.port p) (t.port p) := by
  refine ⟨_, exec_enableFall high running, ?_⟩
  have timers := fun ch => State.openTimer_settle (s.halted.detect .enableLost enableSite) s.sq (ch := ch)
  have ends := (SettleOnly.refl (s.halted.detect .enableLost enableSite)).settle s.sq
  generalize (s.halted.detect .enableLost enableSite).settle s.sq = t at timers ends
  have told := (DetectOnly.ofJob s.halted_work).detect .enableLost enableSite
  obtain ⟨-, -, conv, pub, -⟩ := State.detect_settled ends
  obtain ⟨fill, coupling, mode, entry, safe⟩ := State.halted_follows running (State.followed ends)
  have halts := State.sq_halt s.disabled.acuEnableFall.hrRefresh
  have sq : (s.halted.detect .enableLost enableSite).sq = s.halted.sq :=
    State.sq_detect (.inl s.disabled.acuEnableFall.hrRefresh.fill_halt) _ _
  have off : (s.halted.detect .enableLost enableSite).enable = false := congrArg Inputs.enable told.inputs
  have low : t.enable = false := ends.enable.trans off
  refine ⟨ends.inputs.trans told.inputs, fun c => ?_, ?_, ?_, ?_, fill, coupling, mode, fun ch => ⟨?_, ?_, ?_⟩, entry,
    safe, ends.cs.trans told.cs, ends.leases.trans (congrArg Lcu.leases told.lcu),
    conv.trans (congrArg Mu.conv s.halted_work.mu), pub.trans (congrArg Mu.pub s.halted_work.mu),
    ends.now.trans (congrArg Lcu.now told.lcu), fun j => ?_, fun p => (told.ports p).trans (ends.ports p)⟩
  · rw [ends.clutchState, sq]
    exact State.state_halt _ c
  · rw [ends.queue, sq, State.halted, halts]
    rfl
  · rw [ends.sq, sq, State.halted, halts]
    rfl
  · rw [ends.flags, sq, State.halted, halts]
  · exact State.outState_disabled low ch
  · unfold State.outputCurrent
    rw [decide_eq_false (State.outState_disabled low ch)]
    rfl
  · exact timers ch (State.outState_disabled off ch)
  · rw [ends.order]
    unfold State.order
    rw [told.otu]
    rfl

/-! ENABLE falls in CONFIG. -/

theorem enableFall_stopped (high : s.inputs.enable = true) (stopped : s.running = false) :
    CompletesWith .enableFall s fun t =>
      SettleOnly
        { s with
          inputs := { s.inputs with enable := false },
          fu := { s.fu with
            safeNeutral := true,
            breakaway := s.latched .breakaway,
            reports := s.fu.reports ++ (if s.fu.safeNeutral then [] else [(.safeNeutral, true)]) ++
              (if s.latched .breakaway = s.fu.breakaway then [] else [(.breakaway, s.latched .breakaway)]) } } t := by
  have falls : s.enableFalls = s.disabled.fuConditions := if_neg (Bool.eq_false_iff.mp stopped)
  have reports : (if true = s.fu.safeNeutral then [] else [(FaultOrder.safeNeutral, true)]) =
      if s.fu.safeNeutral then [] else [(.safeNeutral, true)] := if_congr eq_comm rfl rfl
  refine ⟨_, congrArg Host.Outcome.next (State.event_pos high _), ?_⟩
  rw [falls, ← reports]
  exact (SettleOnly.refl _).osGuard.settle s.sq

/-! ENABLE rises. -/

/-- The units have worked on after a rise, before the conditions follow. -/
def State.enabled (s : State) : State :=
  let v : State := { s with inputs := { s.inputs with enable := true } }
  if s.running then v.acuFollow.hrRefresh.replan else v

theorem exec_enableRise (low : s.inputs.enable = false) :
    exec .enableRise s = .next (s.enabled.fuConditions.settle s.sq) :=
  congrArg Host.Outcome.next (State.event_pos (show (!s.enable) = true by unfold State.enable; rw [low]; rfl) _)

theorem State.enabled_work (s : State) :
    JobOnly { s with inputs := { s.inputs with enable := true } } s.enabled :=
  .ite (JobOnly.refl _).acuFollow.hrRefresh.replan (.refl _)

theorem State.enabled_interlock (s : State) : s.enabled.sq.interlock = s.sq.interlock := by
  have follows := ((GearStays.refl ({ s with inputs := { s.inputs with enable := true } } : State)).acuFollow.hrRefresh).fills
  unfold State.enabled
  dsimp only
  split
  · exact (State.wishes_replan _).interlock.trans follows.interlock
  · rfl

theorem JobOnly.countsSafe (h : JobOnly s t) (k : FaultKind) : t.countsSafe k = s.countsSafe k := by
  unfold State.countsSafe State.latched State.action State.items
  rw [h.fu, h.cs]

/-- Settles O45. -/
theorem enableFallsAndRises : Obligations.EnableFallsAndRises := by
  refine ⟨fun s high => ⟨fun running => ?_, enableFall_stopped high⟩, fun s low => ?_⟩
  · exact enableFall_halts high running
  · refine ⟨_, exec_enableRise low, ⟨s.enabled, s.enabled_work, (SettleOnly.refl _).settle s.sq⟩, ?_, ?_, ?_⟩
    all_goals
      have ends := (SettleOnly.refl s.enabled.fuConditions).settle s.sq
      generalize s.enabled.fuConditions.settle s.sq = t at ends
    · have high : s.enabled.enable = true := congrArg Inputs.enable s.enabled_work.inputs
      have counts : s.enabled.countsSafe = s.countsSafe := funext s.enabled_work.countsSafe
      have safe : t.fu.safeNeutral = s.enabled.safeCondition := by
        rw [ends.fu]
        rfl
      rw [safe]
      unfold State.safeCondition
      rw [high, counts]
      rfl
    · rw [ends.fu]
      show s.enabled.fu.entry = _
      rw [s.enabled_work.fu]
    · rw [ends.sq]
      exact s.enabled_interlock

end Sys2Proof.Machine
end
